-- ==== Sys2Proof/Word.lean ====
section
/-!
DEFINITION. The word types of the model: bytes and FP32 bit patterns.
Addresses, cycles, beats and counts are natural numbers; a bit vector stands only where the
spec treats a value as bits.
-/
namespace Sys2Proof

/-- One byte, the smallest addressable unit of every memory (R265). -/
abbrev Byte := BitVec 8

/-- An FP32 bit pattern (R15). -/
abbrev F32 := BitVec 32

/-- A sparse table: pairs of key and value, keys strictly rising, no pair holding the default. -/
abbrev Sparse (α : Type) := List (Nat × α)

end Sys2Proof
end

