-- ==== Sys2Proof/Syntax.lean ====
section
/-!
DEFINITION. The commands the device takes, one constructor per row of the spec's opcode table, and their
operands. The table gives no row any bits: an operand is what the row's rules name.
-/
namespace Sys2Proof

/-! ### Operands of the panel commands (*Panel instruction bundles*, R164–R189) -/

/-- Where and when a panel operation issues: panel 0–127 and Tree cycle of its island (R155). -/
structure At where
  panel : Nat
  cycle : Nat
deriving DecidableEq, Repr

/-- A disturbance that an event meets, from the part or its surroundings (*What each step holds*). -/
inductive Upset where
  /-- nothing disturbs the event -/
  | none
  /-- an error of a panel, side or bundle memory that the check bits correct (R75) -/
  | corrected
  /-- an accumulator parity error, or an uncorrectable scratch, side or bundle word (R80, R82, R122) -/
  | uncorrectable
  /-- an uncorrectable scratch word among the bytes a stream row takes from scratch (R82) -/
  | scratchWord
  /-- a single-bit error of a Felt word that the read corrects (R272) -/
  | feltCorrected
  /-- an uncorrectable Felt word in the bytes read (R273) -/
  | feltWord
  /-- a line access that finds no bank slot, with the unit it collided with (R202) -/
  | lateAccess (other : Nat)
  /-- an uncorrectable command word of a crossing (R436) -/
  | commandWord
  /-- an uncorrectable error in the Loom entry looked up (R318) -/
  | loomEntry
deriving DecidableEq, Repr

/-- What the operations of a bundle's slots M, V and X meet. -/
structure SlotUpsets where
  m : Upset
  v : Upset
  x : Upset
deriving DecidableEq, Repr

/-- A panel operation with what its accesses meet. -/
structure MetAt where
  at_ : At
  meets : Upset
deriving DecidableEq, Repr

/-- What the fetch of a bundle and the operations of its slots meet. -/
structure MetBundle where
  fetch : Upset
  slots : SlotUpsets
deriving DecidableEq, Repr

/-- The end of a wait with what the slots of the bundle that it held meet. -/
structure MetWait where
  at_ : At
  slots : SlotUpsets
deriving DecidableEq, Repr

/-- A Shuttle with what its next access meets. -/
structure MetShuttle where
  shuttle : Nat
  meets : Upset
deriving DecidableEq, Repr

/-- The fields of mm.stream (R168, R169). -/
structure StreamF where
  tile : Nat
  first : Nat
  rows : Nat
  /-- 0 FELT, 1 and 2 BUS channel 0 and 1, 3 SCRATCH -/
  src : Nat
  typ : Nat
  aix : Nat
deriving DecidableEq, Repr

/-- The fields of mm.drain (R170). -/
structure DrainF where
  tile : Nat
  first : Nat
  rows : Nat
  cols : Nat
  typ : Nat
  /-- 0 vector unit, 1 scratch, 2 row engine, 3 Felt -/
  dest : Nat
  zap : Bool
  index : Bool
  target : Nat
deriving DecidableEq, Repr

/-- The fields of mm.drain with WB (R171). -/
structure DrainWbF where
  tile : Nat
  first : Nat
  rows : Nat
  cols : Nat
  zap : Bool
  aix : Nat
  contrib : Nat
  cadd : Bool
  clevel : Nat
deriving DecidableEq, Repr

/-- A vector-unit source: register or constant (R173). -/
inductive VSrc where
  | reg (n : Nat)
  | const (n : Nat)
deriving DecidableEq, Repr

/-- The fields of x.move (R177). -/
structure MoveF where
  saix : Nat
  daix : Nat
  rows : Nat
  bytes : Nat
  token : Option Nat
deriving DecidableEq, Repr

/-- The fields of s.wait (R182). -/
structure WaitF where
  ctr : Nat
  n : Nat
  unit : Nat
  maxWait : Nat
deriving DecidableEq, Repr



/-! ### Operands of the Weave commands (*Weave fabric and the global memory space*) -/

/-- A request as it reaches its target: source, job tag, class, LATE bit and the head of R311 with its
data. A GET_REQ carries a length in place of data. -/
structure ReqF where
  src : Nat
  tag : Nat
  cls : Nat
  late : Bool
  addr : Nat
  /-- [15:11] requesting Shuttle, [10:0] request number -/
  reqId : Nat
  op : Nat
  stream : Nat
  token : Nat
  len : Nat
  data : List Byte
deriving DecidableEq, Repr

/-- The payload of a LINK flit (R302). -/
structure LinkF where
  /-- cumulative counts of flits freed, queue 0 first -/
  freed : List Nat
  device : Nat
  warp : Nat
  weft : Nat
  pile : Nat
  state : Nat
  zone : Nat
  port : Nat
  tag : Nat
deriving DecidableEq, Repr

/-- The payload of a CREDIT flit (R325). -/
structure CreditF where
  src : Nat
  /-- the receiver's inbound stream -/
  inbound : Nat
  /-- the sender's outbound stream -/
  outbound : Nat
  bufLog : Nat
  /-- BUFS for INIT, the count for RETURN -/
  count : Nat
deriving DecidableEq, Repr

/-- The head of a reduce request (R347) with its source and tag. -/
structure ReduceF where
  src : Nat
  tag : Nat
  tree : Nat
  round : Nat
  step : Nat
  slot : Nat
  replay : Bool
  sentBeat : Nat
deriving DecidableEq, Repr

/-! ### Operands of the stack and memory commands -/

/-- What coupling tests, tuning and monitors find (*The bonded stack*, R441–R452). -/
structure TuneF where
  /-- channel tests: group of R435 and the positions that fail -/
  tests : List (Nat × List Nat)
  /-- positions with no passing window: group and position -/
  noWindow : List (Nat × Nat)
  /-- new delay codes of groups -/
  codes : List (Nat × Nat)
  /-- bank-group monitors: physical group 34 r + g and its speed s in units of 0.1 % -/
  speeds : List (Nat × Int)
deriving DecidableEq, Repr

/-- A coupling frame as its receiver has it (R437): the 2,048 payload bits in their order, eight to a byte from bit 0
up, and the 128 bits of the spare that carries the check word of its group. -/
structure FrameF where
  payload : List (BitVec 8)
  spare : BitVec 128
deriving DecidableEq, Repr

/-- The coupling group of a frame and the frame. -/
structure GroupFrame where
  group : Nat
  frame : FrameF
deriving DecidableEq, Repr

/-- What a start of the stack finds: the coupling's tests and tuning, and the self-test's failing accumulator rows, panel
and number of rows (R86, R445). -/
structure SelfTestF where
  tune : TuneF
  rows : List (Nat × Nat)
deriving DecidableEq, Repr

/-- Where a coupling frame's payload went (R438). -/
inductive FrameDest where
  /-- local memory from an address on -/
  | memory (addr : Nat)
  /-- data of the k-th request that the Felt holds, from a byte on -/
  | held (k off : Nat)
  /-- values already consumed in the Tree -/
  | consumed
deriving DecidableEq, Repr

/-- How a read of a stack block ends (R277). -/
inductive BlockRead where
  | clean
  /-- the stack corrected an error -/
  | corrected
  /-- the second read matched -/
  | reread
  /-- the second read failed, or the stack reported an uncorrectable error -/
  | lost
deriving DecidableEq, Repr


/-! ### Operands of the start-up, Tack and loader commands -/

/-- An instruction of IEEE 1149.1 at the JTAG port (R568). -/
inductive JtagI where
  | bypass | idcode | samplePreload | extest | other
deriving DecidableEq, Repr

/-- The two access paths of the Tack (R528). -/
inductive TackPath where
  | host | bridle
deriving DecidableEq, Repr

/-- How a load that passed every check ends (R573, R576): it is written; the second pass differs from the first or
a read fails; a stack power-down, a stack reset or a warm reset met it; a PCIe hot reset met it. -/
inductive LoadEnd where
  | done | broken | abandoned | hostReset
deriving DecidableEq, Repr

/-- What the part or its surroundings decide while a Tack write is performed: whether the flash reports a
program or erase as failed (R564), whether a fenced panel's self-test passes (R86), the snapshot image that a
restore reads from its target (R425), how a load ends (R576), and the straps at a cold reset (R617). -/
structure TackEnv where
  flashFails : Bool
  panelPasses : Bool
  image : Option (List Byte)
  load : LoadEnd
  strap : Nat
deriving DecidableEq, Repr

/-- What a start meets: the straps, Keeper's self-check, the fuse blocks with their values, and the flash
(R552, R555–R557, R617). -/
structure StartF where
  strap : Nat
  romOk : Bool
  fusesOk : Bool
  flashAnswers : Bool
  flashKib : Nat
  flashMode : Nat
  flashClock : Nat
  /-- REFCLK carries its clock (R618) -/
  refclk : Bool
deriving DecidableEq, Repr

/-- A BAR2 access of the host: an address of the local map and a length, and the bytes of a write (R569). -/
inductive Bar2 where
  | read (addr len : Nat)
  | write (addr : Nat) (bytes : List Byte)
deriving DecidableEq, Repr

/-- An access of the host with what it meets. -/
structure MetBar2 where
  access : Bar2
  meets : Upset
deriving DecidableEq, Repr

/-- What the loader meets (R573): the image in host memory, and how the load ends. -/
structure HostImage where
  bytes : List Byte
  ends : LoadEnd
deriving DecidableEq, Repr

/-! ### The commands: one constructor for each row of the opcode table -/

/-- A command of the block. -/
inductive Instr where
  /-- BUNDLE_ISSUE (R155): The sequencer issues the next bundle ISSUE_DELAY Tree cycles after its previous issue, and all of the bundle's valid slots issue in that cycle. -/
  | bundleIssue (panel : Nat) (u : MetBundle)
  /-- MM_TILE (R165): Writes one tile-table entry from an immediate value, or refuses the value. -/
  | mmTile (a : At) (tile value : Nat)
  /-- MM_ZERO (R66): Clears a whole tile to its initial values through the clear port. -/
  | mmZero (a : At) (tile : Nat)
  /-- MM_LOAD (R54): Loads a packed weight tile into the shadow latches from the Felt or from scratch. -/
  | mmLoad (a : At) (typ term aix : Nat) (u : Upset)
  /-- MM_LOAD_TURN (R126): Loads a transposed weight tile through a turn-buffer half into the shadow latches. -/
  | mmLoadTurn (a : At) (typ term aix : Nat) (u : Upset)
  /-- MM_LOAD_ACC (R69): Restores parked accumulator rows of a tile from the Felt. -/
  | mmLoadAcc (a : At) (aix tile first rows : Nat) (u : Upset)
  /-- MM_LOAD_COMPLETE (R55): The last byte of a load or restore is delivered, which frees the panel's load slot. -/
  | mmLoadComplete (a : At)
  /-- MM_SWAP (R52): Exchanges the active and shadow weight tiles for the rows that enter afterwards. -/
  | mmSwap (a : At)
  /-- MM_STREAM_ADD (R56): Streams activation rows through the active tile, adding the group sums into a tile. -/
  | mmStreamAdd (a : At) (f : StreamF) (group : Nat) (strict : Bool) (term kBase : Nat)
  /-- MM_STREAM_MAX (R70): Streams rows through the active tile and keeps the running maximum of each column with its winner index. -/
  | mmStreamMax (a : At) (f : StreamF) (group : Nat) (strict : Bool) (term kBase : Nat)
  /-- MM_STREAM_MIN (R70): Streams rows through the active tile and keeps the running minimum of each column with its winner index. -/
  | mmStreamMin (a : At) (f : StreamF) (group : Nat) (strict : Bool) (term kBase : Nat)
  /-- STREAM_ROW_ENTRY (R28): An activation row enters the array once its bytes arrive, and its products update the accumulator row. -/
  | streamRowEntry (a : At) (u : Upset)
  /-- MM_DRAIN (R67): Reads tile rows, converts them, and writes them to the vector unit, scratch, the row engine or the Felt. -/
  | mmDrain (a : At) (f : DrainF) (u : Upset)
  /-- MM_DRAIN_WB (R171): Drains FP32 tile rows to the wide buffer as contributions carrying a contributor ID. -/
  | mmDrainWb (a : At) (f : DrainWbF) (u : Upset)
  /-- VU_ADD (R116): Adds two sources lane by lane with one rounding. -/
  | vuAdd (a : At) (dst : Nat) (x y : VSrc)
  /-- VU_SUB (R116): Subtracts two sources lane by lane with one rounding. -/
  | vuSub (a : At) (dst : Nat) (x y : VSrc)
  /-- VU_MUL (R116): Multiplies two sources lane by lane with one rounding. -/
  | vuMul (a : At) (dst : Nat) (x y : VSrc)
  /-- VU_MAX (R116): Takes the lane-wise maximum of two sources. -/
  | vuMax (a : At) (dst : Nat) (x y : VSrc)
  /-- VU_MIN (R116): Takes the lane-wise minimum of two sources. -/
  | vuMin (a : At) (dst : Nat) (x y : VSrc)
  /-- VU_FMA (R116): Computes A times B plus C lane by lane with one rounding. -/
  | vuFma (a : At) (dst : Nat) (x y z : VSrc)
  /-- VU_ABS (R116): Clears the sign bit of each lane. -/
  | vuAbs (a : At) (dst : Nat) (x : VSrc)
  /-- VU_NEG (R116): Inverts the sign bit of each lane. -/
  | vuNeg (a : At) (dst : Nat) (x : VSrc)
  /-- VU_MOV (R116): Copies a source to a register. -/
  | vuMov (a : At) (dst : Nat) (x : VSrc)
  /-- VU_CVT (R173): Rounds each lane to a narrower type, or returns a split-mode term of each lane. -/
  | vuCvt (a : At) (dst : Nat) (x : VSrc) (typ term : Nat)
  /-- VU_EXP (R118): Computes the correctly rounded exponential of each lane. -/
  | vuExp (a : At) (dst : Nat) (x : VSrc)
  /-- VU_LOG (R118): Computes the correctly rounded natural logarithm of each lane. -/
  | vuLog (a : At) (dst : Nat) (x : VSrc)
  /-- VU_RECIP (R118): Computes the correctly rounded reciprocal of each lane. -/
  | vuRecip (a : At) (dst : Nat) (x : VSrc)
  /-- VU_RSQRT (R118): Computes the correctly rounded reciprocal square root of each lane. -/
  | vuRsqrt (a : At) (dst : Nat) (x : VSrc)
  /-- VU_GELUT (R118): Computes the tanh form of GELU for each lane. -/
  | vuGelut (a : At) (dst : Nat) (x : VSrc)
  /-- VU_GELUE (R118): Computes the erf form of GELU for each lane. -/
  | vuGelue (a : At) (dst : Nat) (x : VSrc)
  /-- VU_SILU (R118): Computes SiLU for each lane. -/
  | vuSilu (a : At) (dst : Nat) (x : VSrc)
  /-- VU_DGELUT (R116): Multiplies dy by the derivative of tanh GELU for each lane. -/
  | vuDgelut (a : At) (dst : Nat) (x dy : VSrc)
  /-- VU_DGELUE (R116): Multiplies dy by the derivative of erf GELU for each lane. -/
  | vuDgelue (a : At) (dst : Nat) (x dy : VSrc)
  /-- VU_DSILU (R116): Multiplies dy by the derivative of SiLU for each lane. -/
  | vuDsilu (a : At) (dst : Nat) (x dy : VSrc)
  /-- VU_DROP (R120): Applies the hashed dropout mask and scale to each lane, then advances ECTR by 64. -/
  | vuDrop (a : At) (dst : Nat) (x y z : VSrc) (site : Nat)
  /-- VU_ESET (R175): Sets VSLOT and the element counter ECTR. -/
  | vuEset (a : At) (slot rowNum : Nat)
  /-- VU_LD (R175): Loads 64 elements from panel scratch into a register. -/
  | vuLd (a : At) (dst aix row typ : Nat) (u : Upset)
  /-- VU_ST (R175): Stores a register, converted, to scratch or to the Felt. -/
  | vuSt (a : MetAt) (src aix row typ : Nat)
  /-- RE_GO (R91): Submits a row-engine request to the island's queue, or refuses it on a collision or a full queue. -/
  | reGo (a : At) (request slot rowOff : Nat)
  /-- X_MOVE (R178): Copies rows between scratch and the Felt, and may post a token. -/
  | xMove (a : MetAt) (f : MoveF)
  /-- X_TURN (R127): Transposes a 96 by 64 block from the Felt through a turn-buffer half. -/
  | xTurn (a : MetAt) (saix daix typ : Nat) (token : Option Nat)
  /-- X_BCAST (R57): Reads rows from the Felt as lead and drives them on an island broadcast channel. -/
  | xBcast (a : MetAt) (channel aix rows typ : Nat)
  /-- S_POST_TOKEN (R181): Adds AMOUNT to a token counter of an island. -/
  | sPostToken (a : At) (island ctr amount : Nat)
  /-- S_POST_STASH (R147): Retires one backward use of a stash version by decrementing REMAIN. -/
  | sPostStash (a : At) (entry tag amount : Nat)
  /-- S_WAIT (R182): Holds the bundle until a token counter covers N, then subtracts N. -/
  | sWait (a : At) (f : WaitF)
  /-- S_WAIT_SATISFIED (R182): A held bundle issues in the first cycle in which its counter covers N. -/
  | sWaitSatisfied (a : MetWait)
  /-- S_LOOP (R184): Increments a loop counter and branches to START, or clears the counter and falls through. -/
  | sLoop (a : At) (level start count : Nat)
  /-- S_BEAT (R186): Arms a beat alarm for a named beat. -/
  | sBeat (a : At) (basis : Bool) (alarm ctr beat : Nat)
  /-- S_FENCE (R187): Checks that earlier operations of the named classes are complete, and records 0x0587 if not. -/
  | sFence (a : At) (classes : Nat)
  /-- S_TALLY (R188): Copies one Tally counter to panel scratch. -/
  | sTally (a : At) (counter aix row : Nat)
  /-- S_HALT (R189): Halts the panel's sequencer and records CODE. -/
  | sHalt (a : At) (code : Nat)
  /-- TOKEN_CROSSING (R203): A token posted to another island takes effect at the receiving island. -/
  | tokenCrossing (island cycle : Nat)
  /-- OFF_TREE_TOKEN (R204): A token from a Billet or Selvage unit, or a Weave arrival, becomes visible at an island. -/
  | offTreeToken (island cycle : Nat)
  /-- TOKEN_WAIT_TIMEOUT (R207): A wait passes its MAXWAIT, records the token-wait fault and takes the configured response. -/
  | tokenWaitTimeout (a : At)
  /-- LATE_LIMIT_EXCEEDED (R221): Lateness beyond LATE_LIMIT_BEATS records 0x0512, and the device enters FAULTED. -/
  | lateLimitExceeded
  /-- BEAT_ALARM_FIRE (R186): An armed alarm posts its token when the island observes the named beat. -/
  | beatAlarmFire (a : At) (alarm : Nat)
  /-- RE_REQUEST_START (R91): A queued row-engine request starts once the previous request's last row has ended. -/
  | reRequestStart (island cycle : Nat)
  /-- RE_LN_FWD (R102): Computes LayerNorm rows and writes the mean and reciprocal standard deviation records. -/
  | reLnFwd (island cycle : Nat) (u : Upset)
  /-- RE_LN_BWD (R103): Computes LayerNorm input gradients from the stored records and sends the gain and bias contribution. -/
  | reLnBwd (island cycle : Nat) (u : Upset)
  /-- RE_RMS_FWD (R102): Computes RMSNorm rows and writes their records. -/
  | reRmsFwd (island cycle : Nat) (u : Upset)
  /-- RE_RMS_BWD (R103): Computes RMSNorm input gradients and sends the gain contribution. -/
  | reRmsBwd (island cycle : Nat) (u : Upset)
  /-- RE_SMAX_FWD (R106): Computes whole-row soft-maximum probabilities and writes their records. -/
  | reSmaxFwd (island cycle : Nat) (u : Upset)
  /-- RE_SMAX_BLK (R107): Processes one block of the online soft-maximum, updating the records and writing rescale factors. -/
  | reSmaxBlk (island cycle : Nat) (u : Upset)
  /-- RE_SMAX_FIN (R107): Writes the reciprocal running sum of each row. -/
  | reSmaxFin (island cycle : Nat) (u : Upset)
  /-- RE_SMAX_BWD (R108): Recomputes probabilities from the records and forms dS. -/
  | reSmaxBwd (island cycle : Nat) (u : Upset)
  /-- RE_ROWDOT (R101): Writes the fixed-order dot product of each row. -/
  | reRowdot (island cycle : Nat) (u : Upset)
  /-- RE_XENT_STAT (R109): Updates the cross-entropy running maximum, running sum and argmax over a block of logits. -/
  | reXentStat (island cycle : Nat) (u : Upset)
  /-- RE_XENT_GRAD (R110): Writes the scaled dlogits and the per-row loss. -/
  | reXentGrad (island cycle : Nat) (u : Upset)
  /-- RE_WMAX (R112): Combines windowed winners into one winner per row. -/
  | reWmax (island cycle : Nat) (u : Upset)
  /-- RE_TOPK (R113): Writes the k best candidates of each row in rank order. -/
  | reTopk (island cycle : Nat) (u : Upset)
  /-- WB_CONTRIBUTION_ROW (R137): A contribution row reaches its wide-buffer tile and is applied, held or discarded by the tile's state and list. -/
  | wbContributionRow (sender cycle : Nat)
  /-- WB_EARLY_ROW_APPLY (R138): A row held in the reorder window is applied once it becomes eligible. -/
  | wbEarlyRowApply (group cycle : Nat)
  /-- WB_SENDER_STALL_LIMIT (R139): A sender stall that passes STALL_MAX records 0x0572 and takes the reorder-overflow response. -/
  | wbSenderStallLimit (sender cycle : Nat)
  /-- STASH_CLAIM_GRANT (R146): A held stash claim takes effect, and its token posts, when the entry's REMAIN reaches 0. -/
  | stashClaimGrant (entry : Nat)
  /-- RAW_BOUNDARY (R465): A multiple of the beat period falls in Weave time, and the device observes the next logical beat unless a hold freezes counting. -/
  | rawBoundary
  /-- STEP_START (R210): The hub observes a step's start beat, the step counter advances, and step-entry tokens and Shuttle bodies proceed. -/
  | stepStart
  /-- RUN_START (R228): The start beat of the start step is observed in LOADED or ADOPTING, and the device enters RUNNING. -/
  | runStart
  /-- RUN_END (R229): After the last step, once every panel waits at step entry and every queue is empty, the device returns to LOADED. -/
  | runEnd
  /-- STEP_RECOVERY (R222): At the recovery beat, a device that withheld or has a halted panel resets its panels and refills its tables. -/
  | stepRecovery (found : TuneF) (failing : List (Nat × Nat))
  /-- BEAT_PAUSE (R448): At the pause beat of a step, each island runs its channel tests and re-centres its coupling delays. -/
  | beatPause (found : TuneF)
  /-- SHUTTLE_BODY_START (R234): A Shuttle starts the body of the next step after its previous body is done and its die observes the step's start beat. -/
  | shuttleBodyStart (shuttle : Nat)
  /-- DESCRIPTOR_START (R236): A descriptor starts once its start condition is met, the previous one has issued and fewer than 8 are in flight. -/
  | descriptorStart (shuttle : MetShuttle)
  /-- STREAM_CREDIT_TAKE (R324): A stream descriptor takes its credits and releases its first request once the stream holds enough. -/
  | streamCreditTake (shuttle : Nat)
  /-- SHUTTLE_POSITION (R242): A Shuttle handles one position in traversal order: read, convert, and write or add. -/
  | shuttlePosition (shuttle : MetShuttle)
  /-- DESCRIPTOR_COMPLETE (R236): Every read and write of a descriptor is complete, and it posts its DONE token. -/
  | descriptorComplete (shuttle cycle : Nat)
  /-- FLIT_RECEIVE (R301): A sequenced flit arrives and is delivered, held for reorder, NAKed or discarded. -/
  | flitReceive (port : Nat) (bytes : List Byte) (stamp egress : Nat)
  /-- ACK_TIMEOUT_RESEND (R301): The oldest unacknowledged flit is re-sent after 2 µs without ACK progress. -/
  | ackTimeoutResend (port : Nat)
  /-- LINK_FLIT (R302): A LINK flit returns link credits and carries the neighbour's identity. -/
  | linkFlit (port : Nat) (f : LinkF)
  /-- PORT_TRAINED (R303): Link training completes, and the port becomes UP. -/
  | portTrained (port : Nat)
  /-- PORT_TRAINING_TIMEOUT (R303): A port not UP within 1 s becomes FAILED with 0x0403. -/
  | portTrainingTimeout (port : Nat)
  /-- LINK_LOSS (R303): An UP port loses FEC lock, valid flits or acknowledgement and goes DOWN with 0x0402. -/
  | linkLoss (port : Nat)
  /-- PORT_RETRAIN (R303): A DOWN or FAILED port retrains once per second. -/
  | portRetrain (port : Nat)
  /-- PUT (R312): A PUT request writes its data at the target and is answered by a COMPLETION. -/
  | put (r : ReqF)
  /-- GET_REQ (R312): A GET_REQ reads data at the target, which answers with GET_RSP flits. -/
  | getReq (r : ReqF)
  /-- GET_RSP (R311): GET_RSP data reaches the requesting Shuttle, which converts and writes it. -/
  | getRsp (src reqId : Nat) (data : List Byte)
  /-- ATOMIC (R312): An ATOMIC request adds its data element by element at the target. -/
  | atomic (r : ReqF)
  /-- MCAST (R328): A multicast flit is copied to the OUT ports of its group and applied locally where DELIVER is set. -/
  | mcast (port group : Nat) (r : ReqF)
  /-- COMPLETION (R313): A COMPLETION flit completes a request at its requester, or is combined up a multicast tree. -/
  | completion (port src reqId status group : Nat)
  /-- CREDIT_INIT (R325): An INIT credit flit grants BUFS credits to an outbound stream. -/
  | creditInit (f : CreditF)
  /-- CREDIT_RETURN (R325): A RETURN credit flit adds returned buffers to an outbound stream's credits. -/
  | creditReturn (f : CreditF)
  /-- REQUEST_TIMEOUT (R316): A request with no completion within E2E_TIMEOUT_US completes with TIMEOUT. -/
  | requestTimeout (reqId : Nat)
  /-- RELEASE_WORD_WRITE (R325): A write of an inbound stream's release word sends its count to the sender as a RETURN credit. -/
  | releaseWordWrite (stream count : Nat)
  /-- LOOM_UPDATE_WRITE (R320): An update record written to the Loom update window rewrites one Loom map entry. -/
  | loomUpdateWrite (shuttle : Nat) (record : List Byte)
  /-- REDUCE_DATA (R350): A REDUCE DATA request from a child writes its blocks to staging, or is held or dropped as late. -/
  | reduceData (f : ReduceF) (first blocks : Nat) (data : List Byte)
  /-- REDUCE_CLOSE (R351): A child's CLOSE marks it closed, and the round closes when every term is in. -/
  | reduceClose (f : ReduceF) (on fold : Nat)
  /-- REDUCE_VOID (R350): A child's VOID marks it void for the round. -/
  | reduceVoid (f : ReduceF)
  /-- ROUND_DEADLINE (R351): A node observes a round's deadline beat and closes the round with the terms it has. -/
  | roundDeadline (node round : Nat)
  /-- LEAF_CLOSE (R349): A doorbell write closes the device's own leaf of a round. -/
  | leafClose (tree round step : Nat)
  /-- FP_OPEN (R358): A doorbell write clears a fingerprint set and makes it the receiving set. -/
  | fpOpen (tag : Nat)
  /-- FP_CHECK (R359): A doorbell write checks a fingerprint set, releasing or voiding the held leaf closes. -/
  | fpCheck (tag : Nat)
  /-- VOTE_UP (R363): A child's VOTE_UP is combined, and the node sends its own VOTE_UP once complete. -/
  | voteUp (src : Nat) (msg : List Byte)
  /-- VOTE_DEADLINE (R363): The vote deadline beat is observed, and the node sends VOTE_UP with INCOMPLETE set. -/
  | voteDeadline
  /-- VOTE_DOWN (R364): The first VOTE_DOWN of the step is forwarded and applied, and the step record is written. -/
  | voteDown (msg : List Byte)
  /-- REPLICA_VOID (R356): A REPLICA_VOID for the current step makes the device withhold its own contribution. -/
  | replicaVoid (step : Nat)
  /-- REDUCE_REPLAY (R370): A child re-sends its kept rounds and its VOTE_UP to the adopting parent. -/
  | reduceReplay (src step : Nat)
  /-- BURNISHER_RUN_START (R383): A part's run starts once the step record is visible, START is met and previous mirror puts are complete. -/
  | burnisherRunStart (part : Nat)
  /-- BURNISHER_CHUNK_COMMIT (R392): A chunk's new values are logged, prepared, applied, committed and mirrored. -/
  | burnisherChunkCommit (part : Nat)
  /-- BURNISHER_RUN_COMPLETE (R395): The run writes FP_PART and FP_OUT, advances UPDATE_COUNT and posts DONE. -/
  | burnisherRunComplete (part : Nat)
  /-- SNAPSHOT_DRAIN_COMPLETE (R409): Every drain write is acknowledged, the header is marked COMPLETE, and FROZEN is released. -/
  | snapshotDrainComplete (ok : Bool)
  /-- MIRROR_HELLO (R405): A buddy checks a MIRROR_HELLO against its stage, leaf and zone and answers HELLO_ACK. -/
  | mirrorHello (sender zone stage leaf : Nat)
  /-- HELLO_ACK (R405): A HELLO_ACK enables mirror puts, or marks every part broken. -/
  | helloAck (status : Nat)
  /-- HELLO_TIMEOUT (R405): No HELLO_ACK within E2E_TIMEOUT_US records 0x0732 and marks every part broken. -/
  | helloTimeout
  /-- VOTE_QUERY (R419): A VOTE_QUERY is answered with the receiver's vote history. -/
  | voteQuery (src : Nat)
  /-- VOTE_REPLY (R419): An adopting spare takes the vote history and starts the restore of each part. -/
  | voteReply (u uPrev v : Nat)
  /-- ADOPT_PORTS_READY (R418): Every required port of an adopting spare becomes UP and matched, ending WAIT_PORTS. -/
  | adoptPortsReady
  /-- ADOPT_VERIFY (R421): Once the restore reads end, the spare verifies each restored fingerprint and moves to REPLAY and LIVE. -/
  | adoptVerify
  /-- RESTORE_TARGET (R425): Restores the snapshot step from the target copy if it is check-valid. -/
  | restoreTarget (path : TackPath) (env : TackEnv)
  /-- RESTORE_LOCAL (R425): Restores the snapshot step from the local inactive buffers if they are check-valid. -/
  | restoreLocal (path : TackPath) (env : TackEnv)
  /-- WITNESS (R426): Arms a witness run at WITNESS_BEAT. -/
  | witness (path : TackPath)
  /-- WITNESS_RUN_START (R426): At WITNESS_BEAT, panels with a replay entry start in pair mode and the Shuttles run the step's body. -/
  | witnessRunStart
  /-- WITNESS_RUN_END (R426): After REPLAY_BEATS the replayed losses are compared with the witness rows. -/
  | witnessRunEnd
  /-- REMIRROR (R423): Resends every part's active arrays and a mirror record to the buddy. -/
  | remirror (path : TackPath)
  /-- STATE_UNLOAD (R534): Removes the Pattern and returns the device to READY. -/
  | stateUnload (path : TackPath)
  /-- STATE_SPARE (R413): Moves a READY device with no fenced panel into SPARE. -/
  | stateSpare (path : TackPath)
  /-- STATE_ADOPT (R417): Applies ADOPT_PLAN, and the spare enters READY with adoption pending. -/
  | stateAdopt (path : TackPath)
  /-- STATE_RETIRE (R429): Unloads the Pattern, idles the ports and moves the device to RETIRED. -/
  | stateRetire (path : TackPath)
  /-- STATE_REINSTATE (R532): Warm-resets a RETIRED or FAULTED device back to READY. -/
  | stateReinstate (path : TackPath)
  /-- STATE_UNSPARE (R532): Returns a SPARE device to READY. -/
  | stateUnspare (path : TackPath)
  /-- STATE_STOW (R532): Starts STOW at once with a management hold. -/
  | stateStow (path : TackPath)
  /-- STATE_RESUME (R532): Allows warm resume of a commanded stow once the clear condition holds. -/
  | stateResume (path : TackPath)
  /-- RESET_COLD (R483): Resets the whole device except fuses and restored keys, and retrains links and stacks. -/
  | resetCold (path : TackPath) (env : TackEnv)
  /-- RESET_WARM (R483): Zeroes the Tree, Felt and stacks, keeps stack training and UP links, and returns to READY. -/
  | resetWarm (path : TackPath)
  /-- RESET_STACK (R485): Performs an orderly stack reset that powers the Tree and Felt down and up. -/
  | resetStack (path : TackPath)
  /-- LP_L0 (R488): Wakes the device from a low-power state. -/
  | lpL0 (path : TackPath)
  /-- LP_L1 (R488): Gates every clock of the stack. -/
  | lpL1 (path : TackPath)
  /-- LP_L2 (R488): Powers the stack off, with the stacks in self-refresh and the ports in LPI. -/
  | lpL2 (path : TackPath)
  /-- LP_L3 (R488): Leaves only the standby rail powered, and the device enters STANDBY. -/
  | lpL3 (path : TackPath)
  /-- HOLD_COMMAND_ADD (R468): Adds the management cause to the device's own hold. -/
  | holdCommandAdd (path : TackPath)
  /-- HOLD_COMMAND_END (R468): Ends the management cause of the device's own hold. -/
  | holdCommandEnd (path : TackPath)
  /-- HOLD_RELEASE (R468): Floods RELEASE for a named active hold, or for every active hold. -/
  | holdRelease (path : TackPath) (v : Nat)
  /-- STICKY_CLEAR (R44): Clears every flag set and STICKY_LAST. -/
  | stickyClear (path : TackPath) (v : Nat)
  /-- PANEL_UNFENCE (R86): Self-tests a fenced panel and clears its PANEL_FENCED bit on a pass. -/
  | panelUnfence (path : TackPath) (v : Nat) (env : TackEnv)
  /-- STEP_REBASE (R211): Subtracts a multiple of 256 from STEP_COUNTER, FIRST_STEP and LAST_STEP. -/
  | stepRebase (path : TackPath) (v : Nat)
  /-- RUN_START_STEP (R228): Sets the step at which RUNNING begins, recording 0x0508 if its beat has already passed. -/
  | runStartStep (path : TackPath) (v : Nat)
  /-- TALLY_CLEAR (R586): Zeroes the counters and bins of the named groups. -/
  | tallyClear (path : TackPath) (v : Nat)
  /-- FAULT_LOG_CLEAR (R547): Empties every fault-log slot and sets CLEARED. -/
  | faultLogClear (path : TackPath) (v : Nat)
  /-- FAULT_N_CLEAR (R548): Releases FAULT_N latched under FAULT_N_MASK. -/
  | faultNClear (path : TackPath) (v : Nat)
  /-- FLASH_DATA (R564): Programs bytes into the flash at FLASH_OFFSET, then advances it. -/
  | flashData (path : TackPath) (bytes : List Byte) (env : TackEnv)
  /-- FLASH_ERASE (R564): Erases the 64 KiB flash sector that holds the given offset. -/
  | flashErase (path : TackPath) (v : Nat) (env : TackEnv)
  /-- MGMT_KEY (R566): Stores the Bridle management key, wrapped, in the key store. -/
  | mgmtKey (path : TackPath) (bytes : List Byte) (env : TackEnv)
  /-- ROLLBACK_ADVANCE (R567): Burns the fused rollback count up to the image in use. -/
  | rollbackAdvance (path : TackPath) (v : Nat)
  /-- KEY_REVOKE (R567): Burns the revoke fuse of one key slot. -/
  | keyRevoke (path : TackPath) (v : Nat)
  /-- TIME_SET_S (R507): Sets the root's TAI seconds at its next PPS edge, or at once in free run. -/
  | timeSetS (path : TackPath) (v : Nat)
  /-- OWNER_WRITE (R530): Changes OWNER; a Bridle write while the host owns is a seizure. -/
  | ownerWrite (path : TackPath) (v : Nat)
  /-- TACK_WRITE (R519): A dictionary WRITE to an entry with no row of its own stages segments and applies the whole value. -/
  | tackWrite (path : TackPath) (key : Nat) (last : Bool) (offset : Nat) (bytes : List Byte) (tag : Nat) (env : TackEnv)
  /-- DICT_READ (R523): Returns bytes of an entry's value from a snapshot, within the response budget. -/
  | dictRead (path : TackPath) (key len offset tag : Nat)
  /-- DICT_NEXT (R523): Returns the descriptor of the next entry in index order. -/
  | dictNext (path : TackPath) (key tag : Nat)
  /-- MB_DOORBELL (R537): Submits the host mailbox request buffer, which is parsed and processed message by message. -/
  | mbDoorbell (v : Nat) (envs : List TackEnv)
  /-- EVENT_CAUSE_CLEAR (R536): A write-1-to-clear of EVENT_CAUSE clears host event bits. -/
  | eventCauseClear (v : Nat)
  /-- BRIDLE_FRAME (R540): A Bridle request frame is authenticated, its messages processed and a response frame sent. -/
  | bridleFrame (bytes : List Byte) (full : Bool) (envs : List TackEnv)
  /-- PTP_FRAME (R512): The Bridle port's IEEE 1588 grandmaster service handles a PTP message. -/
  | ptpFrame (msg : List Byte) (stamp : Nat)
  /-- HOST_BAR2_ACCESS (R569): A host BAR2 access reaches memory or completes with Completer Abort, Unsupported Request or poisoned data. -/
  | hostBar2Access (x : MetBar2)
  /-- SAMPLE_READ_WRITE (R591): A write of SAMPLE_READ consumes sample records, or is ignored if out of range. -/
  | sampleReadWrite (value : Nat)
  /-- LQ_TAIL_DOORBELL (R571): A write of LQ_TAIL submits ring entries to the Pattern loader. -/
  | lqTailDoorbell (v : Nat)
  /-- LOAD_ENTRY (R573): The loader takes a ring entry once READY, checks and writes the image, and reports its STATUS. -/
  | loadEntry (entry : List Byte) (img : HostImage)
  /-- LOAD_COMMAND_LOAD (R574): Loads a Pattern image from a near stack through the Tack. -/
  | loadCommandLoad (path : TackPath) (env : TackEnv)
  /-- LOAD_COMMAND_RELOAD (R575): Reloads the Felt and Tree parts of the loaded Pattern after a stack reset. -/
  | loadCommandReload (path : TackPath) (env : TackEnv)
  /-- WARN_CONDITION (R471): VBULK or PWR_WARN_N meets the warn condition, and the device braces and issues a hold. -/
  | warnCondition (pin : Bool) (mv : Nat)
  /-- CLEAR_CONDITION (R472): The clear condition during BRACE returns the device to its state before BRACE and releases the hold. -/
  | clearCondition (mv : Nat)
  /-- BRACE_TIMER_EXPIRY (R473): The brace timer expires and STOW starts. -/
  | braceTimerExpiry
  /-- STOW_NOW_CROSSING (R473): VBULK falls below 4,200 mV, and STOW starts at once. -/
  | stowNowCrossing (mv : Nat)
  /-- RESET_CROSSING (R486): VBULK falls below 3,950 mV, causing a forced stack reset or an incomplete stow. -/
  | resetCrossing (mv : Nat)
  /-- VBULK_OVERVOLTAGE (R614): VBULK at 5.25 V for 10 µs removes the stack domains with a forced stack reset. -/
  | vbulkOvervoltage (mv : Nat)
  /-- WARM_RESUME (R477): A STOWED device powers its stack up, restores the image and rejoins the held step. -/
  | warmResume (f : TuneF)
  /-- HOLD_QUERY_TIMEOUT (R478): Missing or wrong HOLD_REPLY answers at warm resume record 0x0108, and the device enters FAULTED. -/
  | holdQueryTimeout
  /-- HOLD_LIMIT (R480): An active hold lasting HOLD_LIMIT_S records 0x0106 and sets LIMIT. -/
  | holdLimit
  /-- HOLD (R464): A HOLD message enters the hold table and is flooded onward. -/
  | hold (port cause origin seq freeze : Nat)
  /-- RELEASE (R468): A RELEASE schedules the end of a hold at RESUME_AT and is flooded onward. -/
  | release (port origin seq resume releaser : Nat)
  /-- STOW_NOTICE (R466): A STOW_NOTICE is flooded onward. -/
  | stowNotice (port origin seq : Nat)
  /-- HOLD_QUERY (R466): A HOLD_QUERY is answered with HOLD_REPLY. -/
  | holdQuery (src seq : Nat)
  /-- HOLD_REPLY (R478): A HOLD_REPLY is checked during step 5 of warm resume. -/
  | holdReply (src : Nat) (active : Bool) (beat : Nat)
  /-- POWER_ON_RESET (R552): VSTBY reaches its good level, and the start-up sequence runs from ROM. -/
  | powerOnReset (x : StartF)
  /-- RESET_N_ASSERT (R616): RESET_N held for 10 µs causes a cold reset. -/
  | resetNAssert (strap : Nat)
  /-- PCIE_PERST (R616): PCIE_PERST_N asserted for 100 µs resets the PCIe endpoint. -/
  | pciePerst
  /-- PCIE_HOT_RESET (R483): A PCIe hot reset resets endpoint state only. -/
  | pcieHotReset
  /-- RAIL_GOOD (R613): A rail becomes good, and its outside domain is gated on. -/
  | railGood (domain : Nat) (failed : List Nat)
  /-- RAIL_WAIT_TIMEOUT (R578): A rail not good within RAIL_WAIT_MS records 0x0906. -/
  | railWaitTimeout (domain : Nat)
  /-- READY_ENTRY (R553): Once the stack, memory, ports and time are settled, the device enters READY and asserts the READY pin. -/
  | readyEntry
  /-- READY_TIMEOUT (R553): READY not reached 10 s after CONFIGURED records 0x0907. -/
  | readyTimeout
  /-- STACK_POWER_UP (R445): The Girth powers the stack up, locks clocks, tunes coupling delays and zeroes SRAM. -/
  | stackPowerUp (f : SelfTestF)
  /-- DOMAIN_LOSS (R457): A stack domain below 92 % of its set point or over its limit is removed, and a forced stack reset follows. -/
  | domainLoss (domain : Nat)
  /-- PERIPHERY_DOMAIN_LOSS (R457): A lost domain outside the stack records 0x0233, and the device enters FAULTED. -/
  | peripheryDomainLoss (domain : Nat)
  /-- COIL_LOCK_LOSS (R450): A coil pair out of lock for 8 edges records 0x0234 and forces a stack reset. -/
  | coilLockLoss (island : Nat)
  /-- FRAME_CHECK_FAIL (R438): A coupling frame's check fails at the receiver, which requests a re-send. -/
  | frameCheckFail (group : GroupFrame)
  /-- FRAME_RESEND (R439): A re-sent frame overwrites the destination, and a differing payload records 0x0201 and withholds. -/
  | frameResend (group : Nat) (differs : Bool) (dest : FrameDest) (bytes : List Byte)
  /-- SENTINEL_TRACK (R447): Every 4,096 cycles each island steps its delay codes toward the sentinel drift. -/
  | sentinelTrack (island : Nat) (drift : Int)
  /-- BANK_GROUP_COPY_DONE (R453): The scrubber finishes copying a retiring bank group to its spare. -/
  | bankGroupCopyDone (place : Nat)
  /-- THERMAL_CONTROL (R628): Every 100 µs each island's thermal stretch code is raised or lowered by its temperature excess. -/
  | thermalControl (temps : List Int) (cool : List Nat)
  /-- THERMAL_TRIP (R629): A sensor at its trip limit asserts THERMTRIP_N, faults the device and removes the stack. -/
  | thermalTrip (sensor : Nat)
  /-- FELT_SCRUB (R272): The Felt scrubber reads a line, rewrites corrected words and poisons uncorrectable ones. -/
  | feltScrub (line : Nat) (single : List Nat) (bad : List (Nat × Nat))
  /-- PATROL_SCRUB (R279): A Billet's patrol scrub reads a stack block, rewriting or poisoning it. -/
  | patrolScrub (block : Nat) (r : BlockRead)
  /-- STACK_BLOCK_REREAD (R277): A block whose check failed is read once more and delivered, or lost and poisoned. -/
  | stackBlockReread (block : Nat) (ok : Bool)
  /-- STACK_NOT_RESPONDING (R281): A ready memory stack stops responding, so 0x0321 is recorded and the device enters FAULTED. -/
  | stackNotResponding (stack : Nat)
  /-- TIME_ANNOUNCE (R497): An ANNOUNCE updates the root choice and parent port, is forwarded, and aligns the beat count before the first load. -/
  | timeAnnounce (port source root priority hops : Nat) (frozen : Bool) (seq beat raw : Nat)
  /-- ANNOUNCE_TIMER (R497): Every 62.5 ms a candidate that knows no better live candidate floods its own ANNOUNCE. -/
  | announceTimer
  /-- CANDIDATE_EXPIRY (R508): A candidate with no ANNOUNCE for 500 ms is no longer live, and the root may change. -/
  | candidateExpiry (root : Nat)
  /-- TIME_SYNC (R501): A SYNC on the parent port updates the offset, disciplines the clock and is forwarded. -/
  | timeSync (port root seq origin : Nat) (corr : Int) (stamp egress : Nat) (resent : Bool)
  /-- SYNC_TIMER (R501): The root sends SYNC on every UP port every 7.8125 ms. -/
  | syncTimer (now : Nat)
  /-- SYNC_LOSS (R505): No SYNC for 31.25 ms records 0x0422, and the device enters holdover. -/
  | syncLoss
  /-- DELAY_MEASURE_TIMER (R500): Once per second the device sends DELAY_REQ on each UP port. -/
  | delayMeasureTimer (now : Nat)
  /-- DELAY_REQ (R500): A DELAY_REQ is answered with DELAY_RESP carrying t2 and t3. -/
  | delayReq (port seq t2 t3 : Nat)
  /-- DELAY_RESP (R500): A DELAY_RESP yields one link-delay measurement. -/
  | delayResp (port seq t2 t3 t4 : Nat) (resent : Bool)
  /-- PPS_EDGE (R506): A TIME_PPS_IN edge marks the second at the root, or is ignored with 0x0425. -/
  | ppsEdge (stamp : Nat)
  /-- PPS_LOSS (R506): No valid PPS edge for 2 s puts the root in holdover with 0x0421. -/
  | ppsLoss
  /-- PPS_OUT_PULSE (R511): PPS_OUT rises at each Weave second for 10 µs. -/
  | ppsOutPulse
  /-- NO_ROOT_CANDIDATE (R497): A priority-0 device hears no candidate 2 s after its ports settle and records 0x0424. -/
  | noRootCandidate
  /-- DUMP_LATCH (R592): At a beat that is a multiple of DUMP_BEATS, every counter is latched for a dump record. -/
  | dumpLatch
  /-- DUMP_WRITE_DONE (R593): A dump record's write completes, and vector 16 may be signalled. -/
  | dumpWriteDone
  /-- SAMPLE_COMPLETE (R598): A completed sample record enters the sample ring, or is lost. -/
  | sampleComplete (panel : Nat)
  /-- COUNTER_SHADOW_REFRESH (R591): Each die refreshes the islands' shadows of its counters at least every 2 µs. -/
  | counterShadowRefresh (group : Nat)
  /-- VSTBY_LOSS (R613): VSTBY below 2.85 V for 10 µs takes the whole device, Keeper included, down until a power-on reset. -/
  | vstbyLoss
  /-- RESET_N_RELEASE (R616): Release of RESET_N lets a cold reset held before step 4 of R552 continue within 1 ms. -/
  | resetNRelease
  /-- PCIE_PERST_RELEASE (R569): Deassertion of PCIE_PERST_N makes the PCIe endpoint ready and BAR0 served within 100 ms. -/
  | pciePerstRelease
  /-- JTAG_INSTRUCTION (R568): An instruction shifted into the JTAG port is performed or treated as BYPASS, depending on DEBUG_LOCK and RESET_N. -/
  | jtagInstruction (i : JtagI)
  /-- MB_REQUEST_WRITE (R537): A host write to MB_REQUEST stores request bytes, or is discarded while BUSY is 1. -/
  | mbRequestWrite (off : Nat) (bytes : List Byte)
  /-- LQ_RING_CONFIG_WRITE (R571): A host write of LQ_BASE_LO, LQ_BASE_HI or LQ_ENTRIES sets the loader ring, or is ignored while entries are outstanding or for an illegal size. -/
  | lqRingConfigWrite (off v : Nat)
  /-- FLIT_TRANSMIT (R310): A Weave output port sends its next flit: a re-send first, then class 3, then classes 0–2 by weighted round robin, or a LINK flit when nothing else is eligible. -/
  | flitTransmit (port : Nat)
  /-- FRAME_CHECK_PASS (R440): A coupling frame passes its check, releasing Felt-held data bound for Billet or Selvage dies and held LEAF_CLOSE writes. -/
  | frameCheckPass (group : GroupFrame)
deriving DecidableEq, Repr

end Sys2Proof
end

