-- ==== Sys2Proof/WellFormed.lean ====
section
/-!
DEFINITION. Well-formed commands: every operand fits the field that carries it, or names a unit the device has. A
meaning does not assume it: a command that is not well formed is one that nothing of the spec can send.
-/
namespace Sys2Proof

/-- v fits a field of w bits. -/
def fits (w v : Nat) : Bool := decide (v < 2 ^ w)
def within_ (lo hi v : Nat) : Bool := decide (lo ≤ v) && decide (v ≤ hi)

/-- A panel of the device (R48). -/
def At.ok (a : At) : Bool := decide (a.panel < 128)
/-- A source specifier (R173). -/
def VSrc.ok : VSrc → Bool
  | .reg n => fits 5 n
  | .const n => fits 4 n
/-- A token counter, where one is named (R177). -/
def tokenOk : Option Nat → Bool
  | none => true
  | some c => fits 9 c
/-- The fields of an ADD stream (R168). -/
def StreamF.okAdd (f : StreamF) : Bool :=
  fits 6 f.tile && fits 12 f.first && within_ 1 4096 f.rows && fits 2 f.src && fits 4 f.typ && fits 6 f.aix
/-- The fields of a MAX or MIN stream (R169). -/
def StreamF.okOrder (f : StreamF) : Bool :=
  fits 6 f.tile && fits 10 f.first && within_ 1 1024 f.rows && fits 2 f.src && fits 4 f.typ && fits 4 f.aix
/-- The fields of a drain (R170). -/
def DrainF.ok (f : DrainF) : Bool :=
  fits 6 f.tile && fits 12 f.first && within_ 1 4096 f.rows && within_ 1 64 f.cols && fits 4 f.typ && fits 2 f.dest && fits 6 f.target
/-- The fields of a drain with WB (R171). -/
def DrainWbF.ok (f : DrainWbF) : Bool :=
  fits 6 f.tile && fits 11 f.first && f.first % 16 == 0 && within_ 16 2048 f.rows && f.rows % 16 == 0 && within_ 1 64 f.cols
    && fits 6 f.aix && fits 16 f.contrib && fits 2 f.clevel
/-- The fields of x.move (R177). -/
def MoveF.ok (f : MoveF) : Bool := fits 6 f.saix && fits 6 f.daix && within_ 1 4096 f.rows && within_ 1 256 f.bytes && tokenOk f.token
/-- The fields of s.wait (R182). -/
def WaitF.ok (f : WaitF) : Bool := fits 9 f.ctr && fits 8 f.n && fits 2 f.unit && fits 16 f.maxWait
/-- The payload of a LINK flit (R302). -/
def LinkF.ok (f : LinkF) : Bool :=
  fits 16 f.device && fits 8 f.warp && fits 8 f.weft && fits 8 f.pile && fits 8 f.state && fits 8 f.zone && fits 8 f.port
/-- A BAR2 access has a byte. -/
def Bar2.ok : Bar2 → Bool
  | .read _ n => decide (0 < n)
  | .write _ bs => !bs.isEmpty

/-- A well-formed command. -/
def Instr.wf : Instr → Bool
  | .bundleIssue panel _ => decide (panel < 128)
  | .mmTile a tile value => a.ok && fits 6 tile && fits 32 value
  | .mmZero a tile => a.ok && fits 6 tile
  | .mmLoad a typ term aix _ => a.ok && fits 4 typ && fits 2 term && fits 6 aix
  | .mmLoadTurn a typ term aix _ => a.ok && fits 4 typ && fits 2 term && fits 6 aix
  | .mmLoadAcc a aix tile first rows _ => a.ok && fits 6 aix && fits 6 tile && fits 11 first && within_ 1 2048 rows
  | .mmLoadComplete a => a.ok
  | .mmSwap a => a.ok
  | .mmStreamAdd a f group _ term _ => a.ok && f.okAdd && fits 2 group && fits 2 term
  | .mmStreamMax a f group strict term kBase => a.ok && f.okOrder && group == 0 && !strict && term == 0 && fits 16 kBase
  | .mmStreamMin a f group strict term kBase => a.ok && f.okOrder && group == 0 && !strict && term == 0 && fits 16 kBase
  | .streamRowEntry a _ => a.ok
  | .mmDrain a f _ => a.ok && f.ok
  | .mmDrainWb a f _ => a.ok && f.ok
  | .vuAdd a dst x y => a.ok && fits 5 dst && x.ok && y.ok
  | .vuSub a dst x y => a.ok && fits 5 dst && x.ok && y.ok
  | .vuMul a dst x y => a.ok && fits 5 dst && x.ok && y.ok
  | .vuMax a dst x y => a.ok && fits 5 dst && x.ok && y.ok
  | .vuMin a dst x y => a.ok && fits 5 dst && x.ok && y.ok
  | .vuFma a dst x y z => a.ok && fits 5 dst && x.ok && y.ok && z.ok
  | .vuAbs a dst x => a.ok && fits 5 dst && x.ok
  | .vuNeg a dst x => a.ok && fits 5 dst && x.ok
  | .vuMov a dst x => a.ok && fits 5 dst && x.ok
  | .vuCvt a dst x typ term => a.ok && fits 5 dst && x.ok && fits 4 typ && fits 2 term
  | .vuExp a dst x => a.ok && fits 5 dst && x.ok
  | .vuLog a dst x => a.ok && fits 5 dst && x.ok
  | .vuRecip a dst x => a.ok && fits 5 dst && x.ok
  | .vuRsqrt a dst x => a.ok && fits 5 dst && x.ok
  | .vuGelut a dst x => a.ok && fits 5 dst && x.ok
  | .vuGelue a dst x => a.ok && fits 5 dst && x.ok
  | .vuSilu a dst x => a.ok && fits 5 dst && x.ok
  | .vuDgelut a dst x dy => a.ok && fits 5 dst && x.ok && dy.ok
  | .vuDgelue a dst x dy => a.ok && fits 5 dst && x.ok && dy.ok
  | .vuDsilu a dst x dy => a.ok && fits 5 dst && x.ok && dy.ok
  | .vuDrop a dst x y z site => a.ok && fits 5 dst && x.ok && y.ok && z.ok && fits 10 site
  | .vuEset a slot rowNum => a.ok && fits 6 slot && fits 32 rowNum
  | .vuLd a dst aix row typ _ => a.ok && fits 5 dst && fits 6 aix && fits 12 row && fits 4 typ
  | .vuSt a src aix row typ => a.at_.ok && fits 5 src && fits 6 aix && fits 12 row && fits 4 typ
  | .reGo a request slot rowOff => a.ok && fits 11 request && fits 6 slot && fits 16 rowOff
  | .xMove a f => a.at_.ok && f.ok
  | .xTurn a saix daix typ token => a.at_.ok && fits 6 saix && fits 6 daix && fits 4 typ && tokenOk token
  | .xBcast a channel aix rows typ => a.at_.ok && fits 1 channel && fits 6 aix && within_ 1 2048 rows && fits 4 typ
  | .sPostToken a island ctr amount => a.ok && decide (island < 16) && fits 9 ctr && fits 8 amount
  | .sPostStash a entry tag amount => a.ok && fits 2 entry && fits 8 tag && fits 8 amount
  | .sWait a f => a.ok && f.ok
  | .sWaitSatisfied a => a.at_.ok
  | .sLoop a level start count => a.ok && fits 2 level && fits 13 start && fits 16 count
  | .sBeat a _ alarm ctr beat => a.ok && fits 1 alarm && fits 9 ctr && fits 32 beat
  | .sFence a classes => a.ok && fits 4 classes
  | .sTally a counter aix row => a.ok && fits 12 counter && fits 6 aix && fits 12 row
  | .sHalt a code => a.ok && fits 16 code
  | .tokenCrossing island _ => decide (island < 16)
  | .offTreeToken island _ => decide (island < 16)
  | .tokenWaitTimeout a => a.ok
  | .lateLimitExceeded => true
  | .beatAlarmFire a alarm => a.ok && fits 1 alarm
  | .reRequestStart island _ => decide (island < 16)
  | .reLnFwd island _ _ => decide (island < 16)
  | .reLnBwd island _ _ => decide (island < 16)
  | .reRmsFwd island _ _ => decide (island < 16)
  | .reRmsBwd island _ _ => decide (island < 16)
  | .reSmaxFwd island _ _ => decide (island < 16)
  | .reSmaxBlk island _ _ => decide (island < 16)
  | .reSmaxFin island _ _ => decide (island < 16)
  | .reSmaxBwd island _ _ => decide (island < 16)
  | .reRowdot island _ _ => decide (island < 16)
  | .reXentStat island _ _ => decide (island < 16)
  | .reXentGrad island _ _ => decide (island < 16)
  | .reWmax island _ _ => decide (island < 16)
  | .reTopk island _ _ => decide (island < 16)
  | .wbContributionRow sender _ => decide (sender < 144)
  | .wbEarlyRowApply group _ => decide (group < 512)
  | .wbSenderStallLimit sender _ => decide (sender < 144)
  | .stashClaimGrant entry => fits 2 entry
  | .rawBoundary => true
  | .stepStart => true
  | .runStart => true
  | .runEnd => true
  | .stepRecovery _ _ => true
  | .beatPause _ => true
  | .shuttleBodyStart shuttle => decide (shuttle < 28)
  | .descriptorStart shuttle => decide (shuttle.shuttle < 28)
  | .streamCreditTake shuttle => decide (shuttle < 28)
  | .shuttlePosition shuttle => decide (shuttle.shuttle < 28)
  | .descriptorComplete shuttle _ => decide (shuttle < 28)
  | .flitReceive port bytes _ _ => fits 3 port && bytes.length == 256
  | .ackTimeoutResend port => fits 3 port
  | .linkFlit port f => fits 3 port && f.ok
  | .portTrained port => fits 3 port
  | .portTrainingTimeout port => fits 3 port
  | .linkLoss port => fits 3 port
  | .portRetrain port => fits 3 port
  | .put _ => true
  | .getReq _ => true
  | .getRsp src reqId data => fits 16 src && fits 16 reqId && within_ 1 1024 data.length
  | .atomic _ => true
  | .mcast port group _ => fits 3 port && fits 16 group
  | .completion port src reqId status group => fits 3 port && fits 16 src && fits 16 reqId && fits 8 status && fits 16 group
  | .creditInit _ => true
  | .creditReturn _ => true
  | .requestTimeout reqId => fits 16 reqId
  | .releaseWordWrite stream count => fits 6 stream && fits 16 count
  | .loomUpdateWrite shuttle record => decide (shuttle < 28) && record.length == 32
  | .reduceData _ first _ _ => fits 32 first
  | .reduceClose _ _ _ => true
  | .reduceVoid _ => true
  | .roundDeadline node round => fits 16 node && fits 8 round
  | .leafClose tree round step => fits 16 tree && fits 8 round && fits 32 step
  | .fpOpen tag => fits 8 tag
  | .fpCheck tag => fits 8 tag
  | .voteUp src _ => fits 16 src
  | .voteDeadline => true
  | .voteDown _ => true
  | .replicaVoid step => fits 32 step
  | .reduceReplay src step => fits 16 src && fits 32 step
  | .burnisherRunStart part => fits 3 part
  | .burnisherChunkCommit part => fits 3 part
  | .burnisherRunComplete part => fits 3 part
  | .snapshotDrainComplete _ => true
  | .mirrorHello sender zone stage leaf => fits 16 sender && fits 8 zone && fits 8 stage && fits 16 leaf
  | .helloAck status => fits 8 status
  | .helloTimeout => true
  | .voteQuery src => fits 16 src
  | .voteReply u uPrev v => fits 32 u && fits 32 uPrev && fits 32 v
  | .adoptPortsReady => true
  | .adoptVerify => true
  | .restoreTarget _ _ => true
  | .restoreLocal _ _ => true
  | .witness _ => true
  | .witnessRunStart => true
  | .witnessRunEnd => true
  | .remirror _ => true
  | .stateUnload _ => true
  | .stateSpare _ => true
  | .stateAdopt _ => true
  | .stateRetire _ => true
  | .stateReinstate _ => true
  | .stateUnspare _ => true
  | .stateStow _ => true
  | .stateResume _ => true
  | .resetCold _ _ => true
  | .resetWarm _ => true
  | .resetStack _ => true
  | .lpL0 _ => true
  | .lpL1 _ => true
  | .lpL2 _ => true
  | .lpL3 _ => true
  | .holdCommandAdd _ => true
  | .holdCommandEnd _ => true
  | .holdRelease _ v => fits 16 v
  | .stickyClear _ v => fits 8 v
  | .panelUnfence _ v _ => fits 8 v
  | .stepRebase _ v => fits 32 v
  | .runStartStep _ v => fits 32 v
  | .tallyClear _ v => fits 32 v
  | .faultLogClear _ v => fits 8 v
  | .faultNClear _ v => fits 8 v
  | .flashData _ bytes _ => within_ 1 4096 bytes.length
  | .flashErase _ v _ => fits 32 v
  | .mgmtKey _ bytes _ => bytes.length == 32
  | .rollbackAdvance _ v => fits 8 v
  | .keyRevoke _ v => fits 8 v
  | .timeSetS _ v => fits 64 v
  | .ownerWrite _ v => fits 8 v
  | .tackWrite _ key _ offset bytes tag _ => fits 24 key && fits 32 offset && decide (bytes.length ≤ 1024) && fits 32 tag
  | .dictRead _ key len offset tag => fits 24 key && fits 16 len && fits 32 offset && fits 32 tag
  | .dictNext _ key tag => fits 24 key && fits 32 tag
  | .mbDoorbell v _ => fits 32 v
  | .eventCauseClear v => fits 32 v
  | .bridleFrame bytes _ _ => decide (bytes.length ≤ 65535)
  | .ptpFrame _ _ => true
  | .hostBar2Access x => x.access.ok
  | .sampleReadWrite value => fits 64 value
  | .lqTailDoorbell v => fits 32 v
  | .loadEntry entry _ => entry.length == 32
  | .loadCommandLoad _ _ => true
  | .loadCommandReload _ _ => true
  | .warnCondition _ mv => fits 16 mv
  | .clearCondition mv => fits 16 mv
  | .braceTimerExpiry => true
  | .stowNowCrossing mv => fits 16 mv
  | .resetCrossing mv => fits 16 mv
  | .vbulkOvervoltage mv => fits 16 mv
  | .warmResume _ => true
  | .holdQueryTimeout => true
  | .holdLimit => true
  | .hold port cause origin seq freeze => fits 3 port && within_ 1 5 cause && fits 16 origin && fits 32 seq && fits 64 freeze
  | .release port origin seq resume releaser => fits 3 port && fits 16 origin && fits 32 seq && fits 64 resume && fits 16 releaser
  | .stowNotice port origin seq => fits 3 port && fits 16 origin && fits 32 seq
  | .holdQuery src seq => fits 16 src && fits 32 seq
  | .holdReply src _ beat => fits 16 src && fits 64 beat
  | .powerOnReset x => fits 8 x.strap
  | .resetNAssert strap => fits 8 strap
  | .pciePerst => true
  | .pcieHotReset => true
  | .railGood domain failed => within_ 56 75 domain && (failed.all fun k => decide (k < 24))
  | .railWaitTimeout domain => within_ 56 75 domain
  | .readyEntry => true
  | .readyTimeout => true
  | .stackPowerUp _ => true
  | .domainLoss domain => decide (domain < 56)
  | .peripheryDomainLoss domain => within_ 56 75 domain
  | .coilLockLoss island => decide (island < 17)
  | .frameCheckFail group => group.frame.payload.length == 256
  | .frameResend _ _ _ _ => true
  | .sentinelTrack island _ => decide (island < 17)
  | .bankGroupCopyDone place => decide (place < 512)
  | .thermalControl temps cool => temps.length == 41 && (cool.all fun k => decide (k < 16))
  | .thermalTrip sensor => decide (sensor < 41)
  | .feltScrub line single bad => decide (line < 8912896) && (single.all fun k => decide (k < 32)) && (bad.all fun w => decide (w.1 < 32))
  | .patrolScrub _ _ => true
  | .stackBlockReread _ _ => true
  | .stackNotResponding stack => decide (stack < 24)
  | .timeAnnounce port source root priority hops _ seq beat raw => fits 3 port && fits 8 source && fits 16 root && fits 8 priority && fits 16 hops && fits 32 seq && fits 64 beat && fits 64 raw
  | .announceTimer => true
  | .candidateExpiry root => fits 16 root
  | .timeSync port root seq _ _ _ _ _ => fits 3 port && fits 16 root && fits 32 seq
  | .syncTimer _ => true
  | .syncLoss => true
  | .delayMeasureTimer _ => true
  | .delayReq port seq _ _ => fits 3 port && fits 32 seq
  | .delayResp port seq _ _ _ _ => fits 3 port && fits 32 seq
  | .ppsEdge _ => true
  | .ppsLoss => true
  | .ppsOutPulse => true
  | .noRootCandidate => true
  | .dumpLatch => true
  | .dumpWriteDone => true
  | .sampleComplete panel => decide (panel < 128)
  | .counterShadowRefresh group => decide (group < 31)
  | .vstbyLoss => true
  | .resetNRelease => true
  | .pciePerstRelease => true
  | .jtagInstruction _ => true
  | .mbRequestWrite off _ => fits 16 off
  | .lqRingConfigWrite off v => fits 12 off && fits 32 v
  | .flitTransmit port => fits 3 port
  | .frameCheckPass group => group.frame.payload.length == 256

end Sys2Proof
end

