-- ==== Sys2Proof/Decode.lean ====
section
/-!
DEFINITION. Commands spelt by words. Every row of spec/opcode_table.json has an empty list of fields: the table gives
no command any bits, so a word spells none.
-/
namespace Sys2Proof

/-- The command that a word of the table's bits spells: none, since no row gives bits. -/
def decodeTableWord (_nbits _w : Nat) : Option Instr := none

end Sys2Proof
end

