-- ==== Sys2Proof/Config.lean ====
section
/-!
DEFINITION. What the spec leaves free: constants with no body, so that nothing can be proved of their
values. Each is named in a log entry (notes/assumptions).
-/
namespace Sys2Proof.Config
open Sys2Proof

/-- The derivative of a GELU or SiLU form at ±∞, for which R118 and R116 state no value (log 6). -/
opaque derivAtInfinity : Nat → Bool → F32

/-- Contents the spec calls unspecified: a byte drawn by the free counter of the state (log 7). -/
opaque freeByte : Nat → Nat → Byte

/-- An event or measurement the spec leaves to the part: a number drawn by the free counter (log 7). -/
opaque freeNat : Nat → Nat → Nat

/-- ECDSA P-384 with SHA-384 over an image: key, image bytes, signature (R560, log 8). -/
opaque ecdsaVerify : List Byte → List Byte → List Byte → Bool

/-- AES-256 key wrap (RFC 3394) of the management key under the device-unique key (R566, log 8). -/
opaque keyWrap : List Byte → List Byte → List Byte

/-- Its inverse: none when the integrity check fails (R566, log 8). -/
opaque keyUnwrap : List Byte → List Byte → Option (List Byte)

/-- The 32-bit lane pattern of a group's spare in a frame: a PRBS known to both ends, which R437 does not give
(log 109). -/
opaque lanePattern : Nat → Nat → BitVec 32

/-- The fault codes the loader can prove certain in an image (R227 check 14, R88; log 9). -/
opaque provableFault : List Byte → Option Nat

end Sys2Proof.Config
end

