-- ==== Sys2Proof/Machine/Bits.lean ====
section
/-!
DEFINITION. Bit fields, byte order and sign extension (*Scope and conventions* › Notation, R4, R5).
Every stored structure of the spec is little-endian.
-/
namespace Sys2Proof.Machine
open Sys2Proof

/-- The field [hi:lo] of a value. -/
def fieldOf (n hi lo : Nat) : Nat := (n >>> lo) % 2 ^ (hi + 1 - lo)

/-- The bit at place i. -/
def bitOf (n i : Nat) : Bool := n.testBit i

/-- n with the field of w bits at place lo replaced by v. -/
def putField (n lo w v : Nat) : Nat :=
  (n >>> (lo + w)) <<< (lo + w) + (v % 2 ^ w) <<< lo + n % 2 ^ lo

/-- 1 for true. -/
def bitNat (b : Bool) : Nat := if b then 1 else 0

/-- The number that a list of bytes spells, first byte least significant. -/
def leNat : List Byte → Nat
  | [] => 0
  | b :: bs => b.toNat + 256 * leNat bs

/-- The len bytes of a number, least significant first. -/
def leBytes : Nat → Nat → List Byte
  | 0, _ => []
  | k + 1, n => BitVec.ofNat 8 n :: leBytes k (n / 256)

/-- Bytes off to off + len − 1 of a byte list as a number; bytes beyond the list are 0. -/
def leAt (bs : List Byte) (off len : Nat) : Nat := leNat ((bs.drop off).take len)

/-- The signed value of the low w bits. -/
def signExt (w n : Nat) : Int :=
  let v := n % 2 ^ w
  if 2 ^ w ≤ 2 * v then (v : Int) - (2 ^ w : Nat) else (v : Int)

/-- The low w bits of the two's complement of an integer. -/
def ofInt (w : Nat) (i : Int) : Nat := (i % ((2 ^ w : Nat) : Int)).toNat

/-- Division rounded up. -/
def ceilDiv (a b : Nat) : Nat := (a + b - 1) / b

/-- A counter that stops at its largest value. -/
def satAdd (max a b : Nat) : Nat := min max (a + b)

/-- The numbers 0 to n − 1. -/
def upTo (n : Nat) : List Nat := List.range n

/-- Byte k of a value. -/
def byteOf (n k : Nat) : Nat := (n >>> (8 * k)) % 256

/-- A value with bytes off to off + len − 1 replaced. -/
def putBytes (n off len v : Nat) : Nat := putField n (8 * off) (8 * len) v

/-- Bytes off to off + len − 1 of a value. -/
def getBytes (n off len : Nat) : Nat := (n >>> (8 * off)) % 2 ^ (8 * len)

/-- The value with one bit written. -/
def setBit (n i : Nat) (b : Bool) : Nat := putField n i 1 (bitNat b)

/-- How many bits of the low w bits are 1. -/
def popcount : Nat → Nat → Nat
  | 0, _ => 0
  | k + 1, n => n % 2 + popcount k (n / 2)

/-- Exclusive or of 64-bit values. -/
def xor64 (a b : Nat) : Nat := (a ^^^ b) % 2 ^ 64

/-- The list cut into pieces of n, the last perhaps shorter; fuel bounds the pieces. -/
def chunksOf {α : Type} : Nat → Nat → List α → List (List α)
  | 0, _, _ => []
  | _ + 1, _, [] => []
  | k + 1, n, xs => xs.take n :: chunksOf k n (xs.drop n)

/-- The value at a place of a list, or a default. -/
def nth {α : Type} (d : α) (xs : List α) (i : Nat) : α := (xs[i]?).getD d

/-- The list with the value at one place replaced. -/
def setNth {α : Type} (xs : List α) (i : Nat) (v : α) : List α := xs.set i v

end Sys2Proof.Machine
end

