-- ==== Sys2Proof/Machine/Crypto.lean ====
section
/-!
DEFINITION. The checks the spec names by standard: CRC-32 (R224), CRC-32C (R287, R560), SHA-256 and
HMAC-SHA-256 (R539), SHA-384 (R223).
-/
namespace Sys2Proof.Machine
open Sys2Proof

/-- One byte through a reflected CRC-32 register. -/
def crcBits : Nat → Nat → Nat → Nat
  | 0, _, c => c
  | k + 1, poly, c => crcBits k poly (if c % 2 = 1 then (c / 2) ^^^ poly else c / 2)

/-- A reflected CRC-32 with all-ones start and final inversion. -/
def crcReflected (poly : Nat) (bs : List Byte) : Nat :=
  bs.foldl (fun c b => crcBits 8 poly (c ^^^ b.toNat)) 0xFFFFFFFF ^^^ 0xFFFFFFFF

/-- CRC-32, IEEE 802.3 polynomial (R224). -/
def crc32 (bs : List Byte) : Nat := crcReflected 0xEDB88320 bs

/-- CRC-32C, Castagnoli polynomial. -/
def crc32c (bs : List Byte) : Nat := crcReflected 0x82F63B78 bs

/-- Rotate right in w bits. -/
def rotr (w x n : Nat) : Nat := (x >>> n ||| x <<< (w - n)) % 2 ^ w

/-- Big-endian number of bytes. -/
def beNat (bs : List Byte) : Nat := bs.foldl (fun a b => a * 256 + b.toNat) 0

/-- The len big-endian bytes of a number. -/
def beBytes (len n : Nat) : List Byte := (leBytes len n).reverse

/-! SHA-2 takes its constants from the fractions of the roots of the primes (FIPS 180-4): they are computed here. -/

/-- The primes below 410, which are the first eighty. -/
def primes : List Nat := (upTo 410).filter fun n => decide (2 ≤ n) && (upTo 21).all fun d => decide (d < 2 ∨ n ≤ d) || n % d != 0

/-- The greatest r + x with x below 2 ^ b whose k-th power is at most n. -/
def rootFrom (k n : Nat) : Nat → Nat → Nat
  | 0, r => r
  | b + 1, r => rootFrom k n b (if (r + 2 ^ b) ^ k ≤ n then r + 2 ^ b else r)

/-- The first w bits of the fraction of the k-th root of n. -/
def rootFraction (k w n : Nat) : Nat := rootFrom k (n * 2 ^ (k * w)) (w + 5) 0 % 2 ^ w

/-- The parameters of one member of the SHA-2 family. -/
structure Sha where
  w : Nat
  ks : List Nat
  big0 : Nat × Nat × Nat
  big1 : Nat × Nat × Nat
  small0 : Nat × Nat × Nat
  small1 : Nat × Nat × Nat

def shaP256 : Sha := ⟨32, (primes.take 64).map (rootFraction 3 32), (2, 13, 22), (6, 11, 25), (7, 18, 3), (17, 19, 10)⟩
def shaP512 : Sha := ⟨64, primes.map (rootFraction 3 64), (28, 34, 39), (14, 18, 41), (1, 8, 7), (19, 61, 6)⟩

def Sha.bigSig (p : Sha) (r : Nat × Nat × Nat) (x : Nat) : Nat :=
  rotr p.w x r.1 ^^^ rotr p.w x r.2.1 ^^^ rotr p.w x r.2.2

def Sha.smallSig (p : Sha) (r : Nat × Nat × Nat) (x : Nat) : Nat :=
  rotr p.w x r.1 ^^^ rotr p.w x r.2.1 ^^^ (x >>> r.2.2)

/-- The message schedule, newest word first, grown by fuel words. -/
def Sha.sched (p : Sha) : Nat → List Nat → List Nat
  | 0, ws => ws
  | k + 1, ws =>
    let x := (p.smallSig p.small1 (nth 0 ws 1) + nth 0 ws 6 + p.smallSig p.small0 (nth 0 ws 14)
      + nth 0 ws 15) % 2 ^ p.w
    p.sched k (x :: ws)

/-- One round on the eight working words. -/
def Sha.round (p : Sha) (v : List Nat) (kw : Nat × Nat) : List Nat :=
  let a := nth 0 v 0; let b := nth 0 v 1; let c := nth 0 v 2; let d := nth 0 v 3
  let e := nth 0 v 4; let f := nth 0 v 5; let g := nth 0 v 6; let h := nth 0 v 7
  let m := 2 ^ p.w
  let ch := (e &&& f) ^^^ ((m - 1 - e) &&& g)
  let t1 := (h + p.bigSig p.big1 e + ch + kw.1 + kw.2) % m
  let t2 := (p.bigSig p.big0 a + ((a &&& b) ^^^ (a &&& c) ^^^ (b &&& c))) % m
  [(t1 + t2) % m, a, b, c, (d + t1) % m, e, f, g]

/-- One block into the chaining words. -/
def Sha.block (p : Sha) (h : List Nat) (bs : List Byte) : List Nat :=
  let ws := ((chunksOf 16 (p.w / 8) bs).map beNat).reverse
  let full := (p.sched (p.ks.length - 16) ws).reverse
  let v := (p.ks.zip full).foldl p.round h
  (h.zip v).map fun x => (x.1 + x.2) % 2 ^ p.w

/-- Padding and all blocks. -/
def Sha.digest (p : Sha) (h0 : List Nat) (bs : List Byte) : List Byte :=
  let blk := 2 * p.w
  let lenB := p.w / 4
  let used := (bs.length + 1 + lenB) % blk
  let pad := if used = 0 then 0 else blk - used
  let msg := bs ++ [0x80#8] ++ List.replicate pad 0#8 ++ beBytes lenB (8 * bs.length)
  ((chunksOf (msg.length + 1) blk msg).foldl p.block h0).flatMap (beBytes (p.w / 8))

def sha256 (bs : List Byte) : List Byte := shaP256.digest ((primes.take 8).map (rootFraction 2 32)) bs

def sha384 (bs : List Byte) : List Byte :=
  (shaP512.digest (((primes.drop 8).take 8).map (rootFraction 2 64)) bs).take 48

/-- HMAC-SHA-256 (R539). -/
def hmacSha256 (key bs : List Byte) : List Byte :=
  let k0 := if 64 < key.length then sha256 key else key
  let k := k0 ++ List.replicate (64 - k0.length) 0#8
  sha256 (k.map (· ^^^ 0x5C#8) ++ sha256 (k.map (· ^^^ 0x36#8) ++ bs))

end Sys2Proof.Machine
end

