-- ==== Sys2Proof/Machine/Dict.lean ====
section
/-!
DEFINITION. The Tack object dictionary: every entry of the spec's entry tables with its type, access,
retention, size and default (*The Tack object dictionary*, R515–R518, and each chapter's entry table).
A value is the little-endian number of the entry's bytes. Type codes by R516, access codes by R517,
retention codes by R518. A default the spec leaves to a fuse is 0 here and comes from the fuses of the
state where the model holds them (log 2).
-/
namespace Sys2Proof.Machine

/-! ### Entry keys: index × 256 + subindex -/
namespace Ent
/-- 0x1001:00 VENDOR_CODE. -/
def vendorCode : Nat := 0x100100

/-- 0x1002:00 PRODUCT_CODE. -/
def productCode : Nat := 0x100200

/-- 0x1003:00 GRADE. -/
def grade : Nat := 0x100300

/-- 0x1004:00 DIE_STEPPING. -/
def dieStepping : Nat := 0x100400

/-- 0x1005:00 SERIAL_NUMBER. -/
def serialNumber : Nat := 0x100500

/-- 0x1006:00 EUI64. -/
def eui64 : Nat := 0x100600

/-- 0x1007:00 KEEPER_VERSION. -/
def keeperVersion : Nat := 0x100700

/-- 0x1008:00 POWER_ON_S. -/
def powerOnS : Nat := 0x100800

/-- 0x1009:00 RESET_COUNT. -/
def resetCount : Nat := 0x100900

/-- 0x100A:00 SESSION. -/
def session : Nat := 0x100A00

/-- 0x100B:00 DICT_VERSION. -/
def dictVersion : Nat := 0x100B00

/-- 0x1010:00 DEVICE_STATE. -/
def deviceState : Nat := 0x101000

/-- 0x1011:00 STATE_COMMAND. -/
def stateCommand : Nat := 0x101100

/-- 0x1012:00 STATE_CMD_STATUS. -/
def stateCmdStatus : Nat := 0x101200

/-- 0x1013:00 STATE_HISTORY. -/
def stateHistory : Nat := 0x101300

/-- 0x1020:00 RESET_COMMAND. -/
def resetCommand : Nat := 0x102000

/-- 0x1021:00 RESET_CAUSE. -/
def resetCause : Nat := 0x102100

/-- 0x1030:00 OWNER. -/
def owner : Nat := 0x103000

/-- 0x1031:00 OWNER_LOG. -/
def ownerLog : Nat := 0x103100

/-- 0x1040:00 BRIDLE_EVENT_DEST. -/
def bridleEventDest : Nat := 0x104000

/-- 0x1041:00 BRIDLE_PHY. -/
def bridlePhy : Nat := 0x104100

/-- 0x1042:00 BRIDLE_COUNTS. -/
def bridleCounts : Nat := 0x104200

/-- 0x1101:00 BOOT_STATUS. -/
def bootStatus : Nat := 0x110100

/-- 0x1102:00 BOOT_TIMES. -/
def bootTimes : Nat := 0x110200

/-- 0x1103:00 RAIL_WAIT_MS. -/
def railWaitMs : Nat := 0x110300

/-- 0x1110:00 FLASH. -/
def flash : Nat := 0x111000

/-- 0x1110:01 FLASH_OFFSET. -/
def flashOffset : Nat := 0x111001

/-- 0x1110:02 FLASH_DATA. -/
def flashData : Nat := 0x111002

/-- 0x1110:03 FLASH_ERASE. -/
def flashErase : Nat := 0x111003

/-- 0x1111:00 FLASH_INFO. -/
def flashInfo : Nat := 0x111100

/-- 0x1120:00 LOADER. -/
def loader : Nat := 0x112000

/-- 0x1120:01 LOAD_ADDRESS. -/
def loadAddress : Nat := 0x112001

/-- 0x1120:02 LOAD_LENGTH. -/
def loadLength : Nat := 0x112002

/-- 0x1120:03 LOAD_COMMAND. -/
def loadCommand : Nat := 0x112003

/-- 0x1121:00 LOAD_PROGRESS. -/
def loadProgress : Nat := 0x112100

/-- 0x2001:00 STACK_CAPS. -/
def stackCaps : Nat := 0x200100

/-- 0x2002:00 DOMAIN_STATUS. -/
def domainStatus : Nat := 0x200200

/-- 0x2003:00 DOMAIN_SENSE. -/
def domainSense : Nat := 0x200300

/-- 0x2004:00 STACK_TEMPS. -/
def stackTemps : Nat := 0x200400

/-- 0x2005:00 GIRTH_EVENTS. -/
def girthEvents : Nat := 0x200500

/-- 0x2010:00 COUPLING_MAP. -/
def couplingMap : Nat := 0x201000

/-- 0x2011:00 COUPLING_COUNTS. -/
def couplingCounts : Nat := 0x201100

/-- 0x2012:00 DELAY_CODES. -/
def delayCodes : Nat := 0x201200

/-- 0x2013:00 SENTINEL_DRIFT. -/
def sentinelDrift : Nat := 0x201300

/-- 0x2014:00 RETUNE_STATUS. -/
def retuneStatus : Nat := 0x201400

/-- 0x2020:00 BG_CLASS. -/
def bgClass : Nat := 0x202000

/-- 0x2021:00 BG_STATE. -/
def bgState : Nat := 0x202100

/-- 0x2022:00 FELT_BG_FENCED. -/
def feltBgFenced : Nat := 0x202200

/-- 0x2023:00 MARGIN_GUARD. -/
def marginGuard : Nat := 0x202300

/-- 0x2110:00 POWER_THRESHOLDS. -/
def powerThresholds : Nat := 0x211000

/-- 0x2110:01 VBULK_WARN_MV. -/
def vbulkWarnMv : Nat := 0x211001

/-- 0x2110:02 VBULK_STOW_MV. -/
def vbulkStowMv : Nat := 0x211002

/-- 0x2110:03 BRACE_TIMER_MS. -/
def braceTimerMs : Nat := 0x211003

/-- 0x2110:04 HOLD_LIMIT_S. -/
def holdLimitS : Nat := 0x211004

/-- 0x2110:05 VBULK_RESET_MV. -/
def vbulkResetMv : Nat := 0x211005

/-- 0x2111:00 VBULK_NOW_MV. -/
def vbulkNowMv : Nat := 0x211100

/-- 0x2112:00 POWER_EVENT_STATUS. -/
def powerEventStatus : Nat := 0x211200

/-- 0x2113:00 POWER_EVENT_COUNTS. -/
def powerEventCounts : Nat := 0x211300

/-- 0x2120:00 HOLD_COMMAND. -/
def holdCommand : Nat := 0x212000

/-- 0x2121:00 HOLD_RELEASE. -/
def holdRelease : Nat := 0x212100

/-- 0x2122:00 HOLD_STATUS. -/
def holdStatus : Nat := 0x212200

/-- 0x2123:00 HOLD_TABLE. -/
def holdTable : Nat := 0x212300

/-- 0x2130:00 STACK_RESET_STATUS. -/
def stackResetStatus : Nat := 0x213000

/-- 0x2140:00 LP_COMMAND. -/
def lpCommand : Nat := 0x214000

/-- 0x2141:00 LP_STATE. -/
def lpState : Nat := 0x214100

/-- 0x3001:00 TIME_ROOT_PRIORITY. -/
def timeRootPriority : Nat := 0x300100

/-- 0x3002:00 BEAT_PERIOD_NS. -/
def beatPeriodNs : Nat := 0x300200

/-- 0x3003:00 TIME_INPUT. -/
def timeInput : Nat := 0x300300

/-- 0x3004:00 PPS_IN_DELAY_PS. -/
def ppsInDelayPs : Nat := 0x300400

/-- 0x3005:00 TIME_SET_S. -/
def timeSetS : Nat := 0x300500

/-- 0x3006:00 TIME_NOW. -/
def timeNow : Nat := 0x300600

/-- 0x3007:00 TIME_STATUS. -/
def timeStatus : Nat := 0x300700

/-- 0x3008:00 PORT_ASYM_PS. -/
def portAsymPs : Nat := 0x300800

/-- 0x3010:00 PTP_CONFIG. -/
def ptpConfig : Nat := 0x301000

/-- 0x4001:00 COORDINATE. -/
def coordinate : Nat := 0x400100

/-- 0x4002:00 DOMAIN_SHAPE. -/
def domainShape : Nat := 0x400200

/-- 0x4003:00 POWER_ZONE. -/
def powerZone : Nat := 0x400300

/-- 0x4004:00 DEVICE_ID. -/
def deviceId : Nat := 0x400400

/-- 0x4005:00 PORT_MAP. -/
def portMap : Nat := 0x400500

/-- 0x4006:00 PORT_ENABLE. -/
def portEnable : Nat := 0x400600

/-- 0x4007:00 PORT_STATE. -/
def portState : Nat := 0x400700

/-- 0x4008:00 NEIGHBOUR. -/
def neighbour : Nat := 0x400800

/-- 0x4009:00 LINK_COUNTS. -/
def linkCounts : Nat := 0x400900

/-- 0x4010:00 ROUTE_OVERRIDE. -/
def routeOverride : Nat := 0x401000

/-- 0x4011:00 CLASS_WEIGHTS. -/
def classWeights : Nat := 0x401100

/-- 0x4012:00 E2E_TIMEOUT_US. -/
def e2eTimeoutUs : Nat := 0x401200

/-- 0x4013:00 E2E_STATUS_COUNT. -/
def e2eStatusCount : Nat := 0x401300

/-- 0x4014:00 STREAM_STATE. -/
def streamState : Nat := 0x401400

/-- 0x4101:00 JOB_TAG. -/
def jobTag : Nat := 0x410100

/-- 0x4102:00 LOOM_VALID. -/
def loomValid : Nat := 0x410200

/-- 0x4103:00 LOOM. -/
def loom : Nat := 0x410300

/-- 0x4103:01 LOOM_INDEX. -/
def loomIndex : Nat := 0x410301

/-- 0x4103:02 LOOM_ENTRY. -/
def loomEntry : Nat := 0x410302

/-- 0x4104:00 FOREIGN_TAG_COUNT. -/
def foreignTagCount : Nat := 0x410400

/-- 0x5001:00 MEM_CAPS. -/
def memCaps : Nat := 0x500100

/-- 0x5002:00 STACK_STATUS. -/
def stackStatus : Nat := 0x500200

/-- 0x5003:00 FELT_ERR_COUNT. -/
def feltErrCount : Nat := 0x500300

/-- 0x5004:00 STACK_ERR_COUNT. -/
def stackErrCount : Nat := 0x500400

/-- 0x5005:00 STACK_SCRUB_S. -/
def stackScrubS : Nat := 0x500500

/-- 0x5006:00 POISON_LOG. -/
def poisonLog : Nat := 0x500600

/-- 0x5007:00 FELT_BG_SPARES. -/
def feltBgSpares : Nat := 0x500700

/-- 0x5008:00 STOW_SEQ. -/
def stowSeq : Nat := 0x500800

/-- 0x6001:00 PANEL_MASK. -/
def panelMask : Nat := 0x600100

/-- 0x6002:00 PANEL_FENCED. -/
def panelFenced : Nat := 0x600200

/-- 0x6003:00 PANEL_UNFENCE. -/
def panelUnfence : Nat := 0x600300

/-- 0x6004:00 ACC_SPARES_LEFT. -/
def accSparesLeft : Nat := 0x600400

/-- 0x6005:00 PANEL_ERR_COUNT. -/
def panelErrCount : Nat := 0x600500

/-- 0x6010:00 JOB_SEED. -/
def jobSeed : Nat := 0x601000

/-- 0x6011:00 RE_CAPS. -/
def reCaps : Nat := 0x601100

/-- 0x6012:00 SIDE_USE. -/
def sideUse : Nat := 0x601200

/-- 0x6013:00 SIDE_ERR_COUNT. -/
def sideErrCount : Nat := 0x601300

/-- 0x6020:00 WB_CAPS. -/
def wbCaps : Nat := 0x602000

/-- 0x6021:00 PIPE_MODE. -/
def pipeMode : Nat := 0x602100

/-- 0x6022:00 STASH_STATE. -/
def stashState : Nat := 0x602200

/-- 0x6023:00 WB_STALL_PEAK. -/
def wbStallPeak : Nat := 0x602300

/-- 0x6024:00 STASH_STALL_BEATS. -/
def stashStallBeats : Nat := 0x602400

/-- 0x6030:00 BUNDLE_CAPS. -/
def bundleCaps : Nat := 0x603000

/-- 0x6031:00 PANEL_PC. -/
def panelPc : Nat := 0x603100

/-- 0x6032:00 PANEL_HALT_CODE. -/
def panelHaltCode : Nat := 0x603200

/-- 0x6101:00 ARITH_MODE. -/
def arithMode : Nat := 0x610100

/-- 0x6102:00 ARITH_CAPS. -/
def arithCaps : Nat := 0x610200

/-- 0x6110:00 STICKY_FLAGS. -/
def stickyFlags : Nat := 0x611000

/-- 0x6111:00 STICKY_LAST. -/
def stickyLast : Nat := 0x611100

/-- 0x6112:00 STICKY_CLEAR. -/
def stickyClear : Nat := 0x611200

/-- 0x6113:00 STEP_FLAG_SUMMARY. -/
def stepFlagSummary : Nat := 0x611300

/-- 0x6201:00 PATTERN_DIGEST. -/
def patternDigest : Nat := 0x620100

/-- 0x6202:00 LOAD_STATUS. -/
def loadStatus : Nat := 0x620200

/-- 0x6203:00 STEP_COUNTER. -/
def stepCounter : Nat := 0x620300

/-- 0x6204:00 RUN_START_STEP. -/
def runStartStep : Nat := 0x620400

/-- 0x6205:00 STEP_REBASE. -/
def stepRebase : Nat := 0x620500

/-- 0x6206:00 LOGICAL_BEAT. -/
def logicalBeat : Nat := 0x620600

/-- 0x6210:00 CONTRACT_RESPONSE. -/
def contractResponse : Nat := 0x621000

/-- 0x6211:00 CONTRACT_FAULT_COUNT. -/
def contractFaultCount : Nat := 0x621100

/-- 0x6212:00 LATE_STATUS. -/
def lateStatus : Nat := 0x621200

/-- 0x6213:00 STRETCH_LAST. -/
def stretchLast : Nat := 0x621300

/-- 0x6214:00 SLACK_MIN. -/
def slackMin : Nat := 0x621400

/-- 0x6215:00 CONTRACT_CAPS. -/
def contractCaps : Nat := 0x621500

/-- 0x6301:00 SHUTTLE_CAPS. -/
def shuttleCaps : Nat := 0x630100

/-- 0x6302:00 QUEUE_STATE. -/
def queueState : Nat := 0x630200

/-- 0x6303:00 GUARD_FORCE. -/
def guardForce : Nat := 0x630300

/-- 0x6304:00 LOOM_CACHE_STATS. -/
def loomCacheStats : Nat := 0x630400

/-- 0x6310:00 SHUTTLE_FAULT_LAST. -/
def shuttleFaultLast : Nat := 0x631000

/-- 0x6311:00 SHUTTLE_FAULT_COUNT. -/
def shuttleFaultCount : Nat := 0x631100

/-- 0x7001:00 COLL_CAPS. -/
def collCaps : Nat := 0x700100

/-- 0x7010:00 LATE_POLICY. -/
def latePolicy : Nat := 0x701000

/-- 0x7011:00 VOTE_LAST. -/
def voteLast : Nat := 0x701100

/-- 0x7012:00 LATE_COUNTS. -/
def lateCounts : Nat := 0x701200

/-- 0x7013:00 FP_STATUS. -/
def fpStatus : Nat := 0x701300

/-- 0x7014:00 FP_SETS. -/
def fpSets : Nat := 0x701400

/-- 0x7101:00 BURNISHER_CAPS. -/
def burnisherCaps : Nat := 0x710100

/-- 0x7102:00 UPDATE_COUNT. -/
def updateCount : Nat := 0x710200

/-- 0x7103:00 BURNISHER_STATE. -/
def burnisherState : Nat := 0x710300

/-- 0x7104:00 BURNISHER_FLAGS. -/
def burnisherFlags : Nat := 0x710400

/-- 0x7106:00 MIRROR_STATUS. -/
def mirrorStatus : Nat := 0x710600

/-- 0x7107:00 SHARD_FP. -/
def shardFp : Nat := 0x710700

/-- 0x7110:00 LOSS_SCALE. -/
def lossScale : Nat := 0x711000

/-- 0x7111:00 LS_GROWTH_INTERVAL. -/
def lsGrowthInterval : Nat := 0x711100

/-- 0x7112:00 LS_MIN. -/
def lsMin : Nat := 0x711200

/-- 0x7113:00 LS_MAX. -/
def lsMax : Nat := 0x711300

/-- 0x7114:00 LS_CLEAN_STEPS. -/
def lsCleanSteps : Nat := 0x711400

/-- 0x7201:00 RESILIENCE_MODE. -/
def resilienceMode : Nat := 0x720100

/-- 0x7202:00 BUDDY_ID. -/
def buddyId : Nat := 0x720200

/-- 0x7203:00 SNAP_INTERVAL. -/
def snapInterval : Nat := 0x720300

/-- 0x7204:00 SNAP_TARGET. -/
def snapTarget : Nat := 0x720400

/-- 0x7205:00 SNAP_BASE. -/
def snapBase : Nat := 0x720500

/-- 0x7206:00 SNAP_BYTES. -/
def snapBytes : Nat := 0x720600

/-- 0x7207:00 SNAP_STATUS. -/
def snapStatus : Nat := 0x720700

/-- 0x7208:00 VOTE_HISTORY. -/
def voteHistory : Nat := 0x720800

/-- 0x7210:00 ADOPT_PLAN. -/
def adoptPlan : Nat := 0x721000

/-- 0x7211:00 ADOPT_STATUS. -/
def adoptStatus : Nat := 0x721100

/-- 0x7212:00 RESIL_COMMAND. -/
def resilCommand : Nat := 0x721200

/-- 0x7213:00 RESTORE_STEP. -/
def restoreStep : Nat := 0x721300

/-- 0x7214:00 WITNESS_BEAT. -/
def witnessBeat : Nat := 0x721400

/-- 0x7215:00 WITNESS_STATUS. -/
def witnessStatus : Nat := 0x721500

/-- 0x8001:00 TALLY_OPEN. -/
def tallyOpen : Nat := 0x800100

/-- 0x8002:00 TALLY_CAPS. -/
def tallyCaps : Nat := 0x800200

/-- 0x8003:00 TALLY_CLEAR. -/
def tallyClear : Nat := 0x800300

/-- 0x8010:00 DUMP_BEATS. -/
def dumpBeats : Nat := 0x801000

/-- 0x8011:00 DUMP_BASE. -/
def dumpBase : Nat := 0x801100

/-- 0x8012:00 DUMP_RECORDS. -/
def dumpRecords : Nat := 0x801200

/-- 0x8013:00 SAMPLE_CONFIG. -/
def sampleConfig : Nat := 0x801300

/-- 0x8014:00 SAMPLE_BASE. -/
def sampleBase : Nat := 0x801400

/-- 0x8015:00 SAMPLE_RECORDS. -/
def sampleRecords : Nat := 0x801500

/-- 0x8016:00 TALLY_EVENT_ENABLE. -/
def tallyEventEnable : Nat := 0x801600

/-- 0x8020:00 TALLY_SELECT. -/
def tallySelect : Nat := 0x802000

/-- 0x9001:00 FAULT_LOG. -/
def faultLog : Nat := 0x900100

/-- 0x9002:00 FAULT_LOG_CLEAR. -/
def faultLogClear : Nat := 0x900200

/-- 0x9003:00 FAULT_CLASS_COUNTS. -/
def faultClassCounts : Nat := 0x900300

/-- 0x9004:00 FAULT_NEWEST. -/
def faultNewest : Nat := 0x900400

/-- 0x9005:00 FAULT_N_MASK. -/
def faultNMask : Nat := 0x900500

/-- 0x9006:00 FAULT_N_CLEAR. -/
def faultNClear : Nat := 0x900600

/-- 0x9007:00 FAULT_STEP. -/
def faultStep : Nat := 0x900700

/-- 0xA001:00 MGMT_KEY. -/
def mgmtKey : Nat := 0xA00100

/-- 0xA002:00 MGMT_KEY_STATUS. -/
def mgmtKeyStatus : Nat := 0xA00200

/-- 0xA003:00 SECURE_STATE. -/
def secureState : Nat := 0xA00300

/-- 0xA004:00 ROLLBACK_ADVANCE. -/
def rollbackAdvance : Nat := 0xA00400

/-- 0xA005:00 KEY_REVOKE. -/
def keyRevoke : Nat := 0xA00500

/-- 0xA006:00 KEY_HASH. -/
def keyHash : Nat := 0xA00600

end Ent

/-- One row of the dictionary. -/
structure EntRow where
  key : Nat
  typ : Nat
  access : Nat
  retention : Nat
  patternWritable : Bool
  size : Nat
  dflt : Nat
deriving DecidableEq, Repr

/-- Every row, in increasing order of index and then subindex. -/
def dictionary : List EntRow :=
  [
  ⟨Ent.vendorCode, 4, 5, 1, false, 4, 0x4E4F524D⟩,
  ⟨Ent.productCode, 4, 5, 1, false, 4, 0x00000002⟩,
  ⟨Ent.grade, 2, 5, 1, false, 1, 0⟩,
  ⟨Ent.dieStepping, 9, 5, 1, false, 16, 0⟩,
  ⟨Ent.serialNumber, 9, 5, 1, false, 16, 0⟩,
  ⟨Ent.eui64, 5, 5, 1, false, 8, 0⟩,
  ⟨Ent.keeperVersion, 9, 1, 3, false, 16, 0⟩,
  ⟨Ent.powerOnS, 5, 1, 2, false, 8, 0⟩,
  ⟨Ent.resetCount, 4, 1, 2, false, 4, 0⟩,
  ⟨Ent.session, 5, 1, 3, false, 8, 0⟩,
  ⟨Ent.dictVersion, 3, 5, 1, false, 2, 0x0001⟩,
  ⟨Ent.deviceState, 2, 1, 3, false, 1, 0x01⟩,
  ⟨Ent.stateCommand, 2, 4, 5, false, 1, 0⟩,
  ⟨Ent.stateCmdStatus, 4, 1, 4, false, 4, 0x00000000⟩,
  ⟨Ent.stateHistory, 9, 1, 2, false, 256, 0⟩,
  ⟨Ent.resetCommand, 2, 4, 5, false, 1, 0⟩,
  ⟨Ent.resetCause, 2, 1, 2, false, 1, 0x00⟩,
  ⟨Ent.owner, 2, 2, 3, false, 1, 0x01⟩,
  ⟨Ent.ownerLog, 9, 1, 3, false, 32, 0⟩,
  ⟨Ent.bridleEventDest, 9, 2, 3, false, 20, 0⟩
  ] ++
  [
  ⟨Ent.bridlePhy, 4, 2, 3, false, 4, 0x00200800⟩,
  ⟨Ent.bridleCounts, 9, 1, 3, false, 32, 0⟩,
  ⟨Ent.bootStatus, 9, 1, 3, false, 16, 0⟩,
  ⟨Ent.bootTimes, 9, 1, 3, false, 32, 0⟩,
  ⟨Ent.railWaitMs, 3, 2, 3, false, 2, 1000⟩,
  ⟨Ent.flash, 8, 5, 1, false, 1, 0x03⟩,
  ⟨Ent.flashOffset, 4, 2, 3, false, 4, 0⟩,
  ⟨Ent.flashData, 9, 4, 5, false, 4096, 0⟩,
  ⟨Ent.flashErase, 4, 4, 5, false, 4, 0⟩,
  ⟨Ent.flashInfo, 9, 1, 3, false, 8, 0⟩,
  ⟨Ent.loader, 8, 5, 1, false, 1, 0x03⟩,
  ⟨Ent.loadAddress, 5, 2, 5, false, 8, 0⟩,
  ⟨Ent.loadLength, 5, 2, 5, false, 8, 0⟩,
  ⟨Ent.loadCommand, 2, 4, 5, false, 1, 0⟩,
  ⟨Ent.loadProgress, 9, 1, 5, false, 16, 0⟩,
  ⟨Ent.stackCaps, 4, 5, 1, false, 4, 0x40111438⟩,
  ⟨Ent.domainStatus, 9, 1, 3, false, 76, 0⟩,
  ⟨Ent.domainSense, 9, 1, 3, false, 304, 0⟩,
  ⟨Ent.stackTemps, 9, 1, 3, false, 82, 0⟩,
  ⟨Ent.girthEvents, 9, 1, 3, false, 112, 0⟩
  ] ++
  [
  ⟨Ent.couplingMap, 9, 1, 2, false, 22688, 0⟩,
  ⟨Ent.couplingCounts, 9, 1, 3, false, 408, 0⟩,
  ⟨Ent.delayCodes, 9, 1, 5, false, 22688, 0⟩,
  ⟨Ent.sentinelDrift, 9, 1, 5, false, 34, 0⟩,
  ⟨Ent.retuneStatus, 9, 1, 5, false, 17, 0⟩,
  ⟨Ent.bgClass, 9, 5, 1, false, 544, 0⟩,
  ⟨Ent.bgState, 9, 1, 3, false, 1088, 0⟩,
  ⟨Ent.feltBgFenced, 9, 1, 2, false, 64, 0⟩,
  ⟨Ent.marginGuard, 2, 2, 2, false, 1, 10⟩,
  ⟨Ent.powerThresholds, 8, 5, 1, false, 1, 0x05⟩,
  ⟨Ent.vbulkWarnMv, 3, 2, 3, false, 2, 4450⟩,
  ⟨Ent.vbulkStowMv, 3, 5, 1, false, 2, 4200⟩,
  ⟨Ent.braceTimerMs, 2, 2, 3, false, 1, 12⟩,
  ⟨Ent.holdLimitS, 2, 5, 1, false, 1, 30⟩,
  ⟨Ent.vbulkResetMv, 3, 5, 1, false, 2, 3950⟩,
  ⟨Ent.vbulkNowMv, 3, 1, 3, false, 2, 0⟩,
  ⟨Ent.powerEventStatus, 3, 1, 3, false, 2, 0x0000⟩,
  ⟨Ent.powerEventCounts, 9, 1, 2, false, 32, 0⟩,
  ⟨Ent.holdCommand, 2, 4, 5, false, 1, 0⟩,
  ⟨Ent.holdRelease, 3, 4, 5, false, 2, 0⟩
  ] ++
  [
  ⟨Ent.holdStatus, 9, 1, 4, false, 32, 0⟩,
  ⟨Ent.holdTable, 9, 1, 4, false, 8192, 0⟩,
  ⟨Ent.stackResetStatus, 9, 1, 4, false, 16, 0⟩,
  ⟨Ent.lpCommand, 2, 4, 5, false, 1, 0⟩,
  ⟨Ent.lpState, 2, 1, 3, false, 1, 0x00⟩,
  ⟨Ent.timeRootPriority, 2, 2, 3, false, 1, 1⟩,
  ⟨Ent.beatPeriodNs, 4, 3, 3, false, 4, 8192⟩,
  ⟨Ent.timeInput, 2, 2, 3, false, 1, 0x04⟩,
  ⟨Ent.ppsInDelayPs, 6, 2, 3, false, 4, 0⟩,
  ⟨Ent.timeSetS, 5, 4, 5, false, 8, 0⟩,
  ⟨Ent.timeNow, 9, 1, 3, false, 12, 0⟩,
  ⟨Ent.timeStatus, 9, 1, 3, false, 16, 0⟩,
  ⟨Ent.portAsymPs, 9, 2, 3, false, 16, 0⟩,
  ⟨Ent.ptpConfig, 9, 2, 3, false, 8, 161069662209⟩,
  ⟨Ent.coordinate, 4, 3, 3, false, 4, 0x00000000⟩,
  ⟨Ent.domainShape, 4, 3, 3, false, 4, 0x07010101⟩,
  ⟨Ent.powerZone, 2, 3, 3, false, 1, 0⟩,
  ⟨Ent.deviceId, 3, 1, 3, false, 2, 0x0000⟩,
  ⟨Ent.portMap, 4, 2, 3, false, 4, 0x00543210⟩,
  ⟨Ent.portEnable, 2, 2, 3, false, 1, 0x3F⟩
  ] ++
  [
  ⟨Ent.portState, 9, 1, 3, false, 8, 0⟩,
  ⟨Ent.neighbour, 9, 1, 3, false, 64, 0⟩,
  ⟨Ent.linkCounts, 9, 1, 3, false, 256, 0⟩,
  ⟨Ent.routeOverride, 3, 3, 4, true, 2, 0x0000⟩,
  ⟨Ent.classWeights, 4, 3, 4, true, 4, 0x00010101⟩,
  ⟨Ent.e2eTimeoutUs, 4, 2, 3, false, 4, 1000⟩,
  ⟨Ent.e2eStatusCount, 9, 1, 3, false, 32, 0⟩,
  ⟨Ent.streamState, 9, 1, 4, false, 512, 0⟩,
  ⟨Ent.jobTag, 3, 3, 3, false, 2, 0x0000⟩,
  ⟨Ent.loomValid, 4, 1, 4, false, 4, 0⟩,
  ⟨Ent.loom, 8, 5, 1, false, 1, 0x02⟩,
  ⟨Ent.loomIndex, 4, 2, 4, false, 4, 0⟩,
  ⟨Ent.loomEntry, 9, 2, 4, false, 16, 0⟩,
  ⟨Ent.foreignTagCount, 5, 1, 3, false, 8, 0⟩,
  ⟨Ent.memCaps, 4, 5, 1, false, 4, 0x40240810⟩,
  ⟨Ent.stackStatus, 9, 1, 3, false, 24, 0⟩,
  ⟨Ent.feltErrCount, 9, 1, 3, false, 128, 0⟩,
  ⟨Ent.stackErrCount, 9, 1, 3, false, 384, 0⟩,
  ⟨Ent.stackScrubS, 4, 2, 2, false, 4, 86400⟩,
  ⟨Ent.poisonLog, 9, 1, 3, false, 520, 0⟩
  ] ++
  [
  ⟨Ent.feltBgSpares, 9, 1, 2, false, 16, 0x2020202020202020202020202020202⟩,
  ⟨Ent.stowSeq, 5, 1, 3, false, 8, 0⟩,
  ⟨Ent.panelMask, 9, 3, 2, false, 16, 340282366920938463463374607431768211455⟩,
  ⟨Ent.panelFenced, 9, 1, 2, false, 16, 0⟩,
  ⟨Ent.panelUnfence, 2, 4, 5, false, 1, 0⟩,
  ⟨Ent.accSparesLeft, 9, 1, 2, false, 128, 0x2020202020202020202020202020202020202020202020202020202020202020202020202020202020202020202020202020202020202020202020202020202020202020202020202020202020202020202020202020202020202020202020202020202020202020202020202020202020202020202020202020202020202020⟩,
  ⟨Ent.panelErrCount, 9, 1, 3, false, 1024, 0⟩,
  ⟨Ent.jobSeed, 5, 3, 3, true, 8, 0x0⟩,
  ⟨Ent.reCaps, 4, 5, 1, false, 4, 0x00088000⟩,
  ⟨Ent.sideUse, 9, 1, 5, false, 128, 0⟩,
  ⟨Ent.sideErrCount, 9, 1, 3, false, 64, 0⟩,
  ⟨Ent.wbCaps, 4, 5, 1, false, 4, 0x04080200⟩,
  ⟨Ent.pipeMode, 2, 1, 5, false, 1, 0x00⟩,
  ⟨Ent.stashState, 9, 1, 5, false, 32, 0⟩,
  ⟨Ent.wbStallPeak, 9, 1, 3, false, 64, 0⟩,
  ⟨Ent.stashStallBeats, 5, 1, 3, false, 8, 0⟩,
  ⟨Ent.bundleCaps, 4, 5, 1, false, 4, 0x0FFF4004⟩,
  ⟨Ent.panelPc, 9, 1, 5, false, 256, 0⟩,
  ⟨Ent.panelHaltCode, 9, 1, 5, false, 256, 0⟩,
  ⟨Ent.arithMode, 2, 3, 4, true, 1, 0x00⟩
  ] ++
  [
  ⟨Ent.arithCaps, 4, 5, 1, false, 4, 0x00000FFF⟩,
  ⟨Ent.stickyFlags, 9, 1, 5, false, 188, 0⟩,
  ⟨Ent.stickyLast, 9, 1, 5, false, 188, 0⟩,
  ⟨Ent.stickyClear, 1, 4, 5, false, 1, 0⟩,
  ⟨Ent.stepFlagSummary, 2, 1, 5, false, 1, 0x00⟩,
  ⟨Ent.patternDigest, 9, 1, 5, false, 48, 0⟩,
  ⟨Ent.loadStatus, 4, 1, 5, false, 4, 0x00000000⟩,
  ⟨Ent.stepCounter, 4, 1, 5, false, 4, 0x00000000⟩,
  ⟨Ent.runStartStep, 4, 3, 5, false, 4, 0x00000000⟩,
  ⟨Ent.stepRebase, 4, 4, 5, false, 4, 0⟩,
  ⟨Ent.logicalBeat, 5, 1, 5, false, 8, 0⟩,
  ⟨Ent.contractResponse, 2, 2, 4, true, 1, 0x6A⟩,
  ⟨Ent.contractFaultCount, 9, 1, 3, false, 16, 0⟩,
  ⟨Ent.lateStatus, 3, 1, 5, false, 2, 0x0000⟩,
  ⟨Ent.stretchLast, 9, 1, 5, false, 16, 0⟩,
  ⟨Ent.slackMin, 6, 1, 5, false, 4, 0x7FFFFFFF⟩,
  ⟨Ent.contractCaps, 4, 5, 1, false, 4, 0x02002828⟩,
  ⟨Ent.shuttleCaps, 4, 5, 1, false, 4, 0x0005081C⟩,
  ⟨Ent.queueState, 9, 1, 5, false, 224, 0⟩,
  ⟨Ent.guardForce, 1, 2, 4, false, 1, 0⟩
  ] ++
  [
  ⟨Ent.loomCacheStats, 9, 1, 3, false, 224, 0⟩,
  ⟨Ent.shuttleFaultLast, 9, 1, 5, false, 1120, 0⟩,
  ⟨Ent.shuttleFaultCount, 9, 1, 3, false, 112, 0⟩,
  ⟨Ent.collCaps, 4, 5, 1, false, 4, 0xFF201000⟩,
  ⟨Ent.latePolicy, 2, 3, 4, true, 1, 0x00⟩,
  ⟨Ent.voteLast, 9, 1, 5, false, 32, 0⟩,
  ⟨Ent.lateCounts, 9, 1, 3, false, 32, 0⟩,
  ⟨Ent.fpStatus, 9, 1, 3, false, 16, 0⟩,
  ⟨Ent.fpSets, 9, 1, 5, false, 288, 0⟩,
  ⟨Ent.burnisherCaps, 4, 5, 1, false, 4, 0x1F101008⟩,
  ⟨Ent.updateCount, 9, 1, 4, false, 32, 0⟩,
  ⟨Ent.burnisherState, 9, 1, 4, false, 128, 0⟩,
  ⟨Ent.burnisherFlags, 9, 1, 5, false, 8, 0⟩,
  ⟨Ent.mirrorStatus, 9, 1, 4, false, 128, 0⟩,
  ⟨Ent.shardFp, 5, 1, 4, false, 8, 0⟩,
  ⟨Ent.lossScale, 7, 3, 3, true, 4, 0x47800000⟩,
  ⟨Ent.lsGrowthInterval, 4, 3, 3, true, 4, 2000⟩,
  ⟨Ent.lsMin, 7, 3, 3, true, 4, 0x3F800000⟩,
  ⟨Ent.lsMax, 7, 3, 3, true, 4, 0x4B800000⟩,
  ⟨Ent.lsCleanSteps, 4, 3, 3, true, 4, 0⟩
  ] ++
  [
  ⟨Ent.resilienceMode, 2, 3, 3, true, 1, 0x00⟩,
  ⟨Ent.buddyId, 3, 3, 3, true, 2, 0xFFFF⟩,
  ⟨Ent.snapInterval, 4, 3, 3, true, 4, 0⟩,
  ⟨Ent.snapTarget, 2, 3, 3, true, 1, 0x00⟩,
  ⟨Ent.snapBase, 5, 3, 3, false, 8, 0⟩,
  ⟨Ent.snapBytes, 5, 3, 3, false, 8, 0⟩,
  ⟨Ent.snapStatus, 9, 1, 4, false, 128, 0⟩,
  ⟨Ent.voteHistory, 9, 1, 4, false, 16, 340282366920938463463374607431768211455⟩,
  ⟨Ent.adoptPlan, 9, 2, 3, false, 16, 0⟩,
  ⟨Ent.adoptStatus, 9, 1, 5, false, 16, 0⟩,
  ⟨Ent.resilCommand, 2, 4, 5, false, 1, 0⟩,
  ⟨Ent.restoreStep, 4, 3, 5, false, 4, 0⟩,
  ⟨Ent.witnessBeat, 5, 3, 5, false, 8, 0⟩,
  ⟨Ent.witnessStatus, 2, 1, 5, false, 1, 0x00⟩,
  ⟨Ent.tallyOpen, 5, 2, 3, false, 8, 0⟩,
  ⟨Ent.tallyCaps, 4, 5, 1, false, 4, 0x40201610⟩,
  ⟨Ent.tallyClear, 4, 4, 5, false, 4, 0⟩,
  ⟨Ent.dumpBeats, 4, 2, 4, true, 4, 64⟩,
  ⟨Ent.dumpBase, 5, 2, 3, false, 8, 0⟩,
  ⟨Ent.dumpRecords, 4, 2, 3, false, 4, 1⟩
  ] ++
  [
  ⟨Ent.sampleConfig, 9, 2, 4, true, 32, 0⟩,
  ⟨Ent.sampleBase, 5, 2, 3, false, 8, 0⟩,
  ⟨Ent.sampleRecords, 4, 2, 3, false, 4, 64⟩,
  ⟨Ent.tallyEventEnable, 2, 2, 3, false, 1, 0x00⟩,
  ⟨Ent.tallySelect, 9, 2, 4, true, 1024, 0⟩,
  ⟨Ent.faultLog, 9, 1, 2, false, 49216, 0⟩,
  ⟨Ent.faultLogClear, 1, 4, 5, false, 1, 0⟩,
  ⟨Ent.faultClassCounts, 9, 1, 2, false, 36, 0⟩,
  ⟨Ent.faultNewest, 9, 1, 2, false, 48, 0⟩,
  ⟨Ent.faultNMask, 3, 2, 3, false, 2, 0x0000⟩,
  ⟨Ent.faultNClear, 1, 4, 5, false, 1, 0⟩,
  ⟨Ent.faultStep, 4, 1, 2, false, 4, 0⟩,
  ⟨Ent.mgmtKey, 9, 4, 2, false, 32, 0⟩,
  ⟨Ent.mgmtKeyStatus, 9, 1, 3, false, 16, 0⟩,
  ⟨Ent.secureState, 9, 1, 1, false, 16, 0⟩,
  ⟨Ent.rollbackAdvance, 1, 4, 5, false, 1, 0⟩,
  ⟨Ent.keyRevoke, 2, 4, 5, false, 1, 0⟩,
  ⟨Ent.keyHash, 9, 1, 1, false, 96, 0⟩
  ]

/-- The row of an entry. -/
def entRow (key : Nat) : Option EntRow := dictionary.find? fun r => r.key == key

/-- The default of an entry (R518). -/
def entDefault (key : Nat) : Nat := match entRow key with
  | some r => r.dflt
  | none => 0

/-- The retention code of an entry. -/
def entRetention (key : Nat) : Nat := match entRow key with
  | some r => r.retention
  | none => 5

/-- The size of an entry in bytes. -/
def entSize (key : Nat) : Nat := match entRow key with
  | some r => r.size
  | none => 0

end Sys2Proof.Machine
end

