-- ==== Sys2Proof/Machine/Fp.lean ====
section
/-!
DEFINITION. Floating-point values and their rounding (*Number formats and arithmetic*, R13–R17, R632).
A finite value is an exact dyadic number; every operation is computed exactly and rounded once.
-/
namespace Sys2Proof.Machine
open Sys2Proof

/-- The three sticky events of R41. -/
structure Flags where
  invalid : Bool := false
  overflow : Bool := false
  underflow : Bool := false
deriving DecidableEq, Repr

def Flags.none : Flags := ⟨false, false, false⟩
def Flags.inv : Flags := ⟨true, false, false⟩
def Flags.ovf : Flags := ⟨false, true, false⟩

/-- Events only accumulate (R41). -/
def Flags.or (a b : Flags) : Flags :=
  ⟨a.invalid || b.invalid, a.overflow || b.overflow, a.underflow || b.underflow⟩

/-- The flag byte of R43. -/
def Flags.toByte (f : Flags) : Nat := 4 * bitNat f.invalid + 2 * bitNat f.overflow + bitNat f.underflow

/-- A computed value with the events it raised. -/
abbrev Fl (α : Type) := α × Flags

/-- Sequence two computations, joining their events. -/
def Fl.bind {α β : Type} (x : Fl α) (f : α → Fl β) : Fl β := ((f x.1).1, x.2.or (f x.1).2)

/-- A value with no event. -/
def Fl.pure {α : Type} (a : α) : Fl α := (a, Flags.none)

/-- A computation over every element of a list. -/
def Fl.mapList {α β : Type} (f : α → Fl β) : List α → Fl (List β)
  | [] => Fl.pure []
  | a :: as => Fl.bind (f a) fun b => Fl.bind (Fl.mapList f as) fun bs => Fl.pure (b :: bs)

/-- A computation folded over a list. -/
def Fl.foldList {α β : Type} (f : β → α → Fl β) : β → List α → Fl β
  | b, [] => Fl.pure b
  | b, a :: as => Fl.bind (f b a) fun b' => Fl.foldList f b' as

/-- A value: a NaN (signalling or quiet), an infinity, or ± mant × 2^exp exactly. -/
inductive Num where
  | nan (signalling : Bool)
  | inf (neg : Bool)
  | fin (neg : Bool) (mant : Nat) (exp : Int)
deriving DecidableEq, Repr

def Num.zero : Num := .fin false 0 0

def Num.isNan : Num → Bool
  | .nan _ => true
  | _ => false

def Num.isInf : Num → Bool
  | .inf _ => true
  | _ => false

def Num.isFinite : Num → Bool
  | .fin .. => true
  | _ => false

def Num.isSig : Num → Bool
  | .nan s => s
  | _ => false

def Num.isNeg : Num → Bool
  | .nan _ => false
  | .inf n => n
  | .fin n _ _ => n

def Num.isZero : Num → Bool
  | .fin _ m _ => m == 0
  | _ => false

/-- The sign inverted. -/
def Num.negate : Num → Num
  | .nan s => .nan s
  | .inf n => .inf (!n)
  | .fin n m e => .fin (!n) m e

/-- The value times a power of two, exactly. -/
def Num.scale (x : Num) (k : Int) : Num :=
  match x with
  | .fin n m e => .fin n m (e + k)
  | y => y

/-- A signed mantissa of a finite value at exponent e, for e at or below the value's own. -/
def Num.mantAt (x : Num) (e : Int) : Int :=
  match x with
  | .fin n m e' => let v : Int := ((m <<< (e' - e).toNat : Nat) : Int); if n then -v else v
  | _ => 0

/-- The exponent of a finite value. -/
def Num.expOf : Num → Int
  | .fin _ _ e => e
  | _ => 0

/-- A value from a signed mantissa; zero takes the given sign. -/
def Num.ofInt (zeroNeg : Bool) (m : Int) (e : Int) : Num :=
  if m = 0 then .fin zeroNeg 0 0 else .fin (decide (m < 0)) m.natAbs e

/-- The exact product (R28 step 1); 0 × ∞ and NaN operands by R32. -/
def Num.mul (x y : Num) : Fl Num :=
  match x, y with
  | .nan a, .nan b => (.nan false, ⟨a || b, false, false⟩)
  | .nan a, .inf _ => (.nan false, ⟨a, false, false⟩)
  | .nan a, .fin .. => (.nan false, ⟨a, false, false⟩)
  | .inf _, .nan b => (.nan false, ⟨b, false, false⟩)
  | .fin .., .nan b => (.nan false, ⟨b, false, false⟩)
  | .inf a, .inf b => Fl.pure (.inf (a != b))
  | .inf a, .fin b m _ => if m = 0 then (.nan false, Flags.inv) else Fl.pure (.inf (a != b))
  | .fin a m _, .inf b => if m = 0 then (.nan false, Flags.inv) else Fl.pure (.inf (a != b))
  | .fin a m e, .fin b n f => Fl.pure (.fin (a != b) (m * n) (e + f))

/-- The exact sum; an exact zero is −0 only when both operands are −0 (R32). -/
def Num.add (x y : Num) : Fl Num :=
  match x, y with
  | .nan a, .nan b => (.nan false, ⟨a || b, false, false⟩)
  | .nan a, .inf _ => (.nan false, ⟨a, false, false⟩)
  | .nan a, .fin .. => (.nan false, ⟨a, false, false⟩)
  | .inf _, .nan b => (.nan false, ⟨b, false, false⟩)
  | .fin .., .nan b => (.nan false, ⟨b, false, false⟩)
  | .inf a, .inf b => if a = b then Fl.pure (.inf a) else (.nan false, Flags.inv)
  | .inf a, .fin .. => Fl.pure (.inf a)
  | .fin .., .inf b => Fl.pure (.inf b)
  | .fin a m e, .fin b n f =>
    let g := min e f
    let s := Num.mantAt (.fin a m e) g + Num.mantAt (.fin b n f) g
    Fl.pure (Num.ofInt (a && b) s g)

/-- The order of two non-NaN values, with −0 below +0 (R101). -/
def Num.lt (x y : Num) : Bool :=
  match x, y with
  | .inf true, .inf true => false
  | .inf true, _ => true
  | _, .inf true => false
  | .inf false, _ => false
  | _, .inf false => true
  | .fin a m e, .fin b n f =>
    let g := min e f
    let p := Num.mantAt (.fin a m e) g
    let q := Num.mantAt (.fin b n f) g
    decide (p < q) || (decide (p = q) && a && !b)
  | _, _ => false

/-- The order of the magnitudes of two finite values. -/
def Num.magLt (x y : Num) : Bool :=
  match x, y with
  | .fin _ m e, .fin _ n f =>
    let g := min e f
    decide (m <<< (e - g).toNat < n <<< (f - g).toNat)
  | _, _ => false

/-- An element format of R15: widths of exponent and mantissa, bias, whether all-ones exponents
encode infinities and NaNs, and the largest finite encoding. -/
structure Fmt where
  ebits : Nat
  mbits : Nat
  bias : Nat
  ieee : Bool
  maxMag : Nat
  nanMag : Nat
deriving DecidableEq, Repr

namespace Fmt
def fp32 : Fmt := ⟨8, 23, 127, true, 0x7F7FFFFF, 0x7FC00000⟩
def bf16 : Fmt := ⟨8, 7, 127, true, 0x7F7F, 0x7FC0⟩
def fp16 : Fmt := ⟨5, 10, 15, true, 0x7BFF, 0x7E00⟩
def e4m3 : Fmt := ⟨4, 3, 7, false, 0x7E, 0x7F⟩
def e5m2 : Fmt := ⟨5, 2, 15, true, 0x7B, 0x7E⟩
def e2m3 : Fmt := ⟨2, 3, 1, false, 0x1F, 0x20⟩
def e3m2 : Fmt := ⟨3, 2, 3, false, 0x1F, 0x20⟩
def e2m1 : Fmt := ⟨2, 1, 1, false, 0x7, 0x8⟩
end Fmt

/-- The width of a format in bits. -/
def Fmt.width (f : Fmt) : Nat := 1 + f.ebits + f.mbits

/-- The encoding of an infinity's magnitude in an IEEE-like format. -/
def Fmt.infMag (f : Fmt) : Nat := (2 ^ f.ebits - 1) <<< f.mbits

/-- The exponent of the format's smallest subnormal. -/
def Fmt.qmin (f : Fmt) : Int := 1 - (f.bias : Int) - (f.mbits : Int)

/-- The value an encoding holds (R15, R17): of NaNs only BF16, FP16 and FP32 encodings signal. -/
def Fmt.decode (f : Fmt) (bits : Nat) : Num :=
  let neg := bits.testBit (f.ebits + f.mbits)
  let mag := bits % 2 ^ (f.ebits + f.mbits)
  let man := mag % 2 ^ f.mbits
  let ex := mag >>> f.mbits
  if f.ieee && ex == 2 ^ f.ebits - 1 then
    if man = 0 then .inf neg
    else .nan (!man.testBit (f.mbits - 1) && decide (f.mbits ≠ 2))
  else if !f.ieee && f.mbits == 3 && f.ebits == 4 && mag == 0x7F then .nan false
  else if ex = 0 then .fin neg man f.qmin
  else .fin neg (man + 2 ^ f.mbits) (f.qmin + (ex : Int) - 1)

/-- A mantissa shifted right s places, rounded to nearest, ties to even. -/
def rneShift (m s : Nat) : Nat :=
  let n := m >>> s
  let r := m % 2 ^ s
  let half := 2 ^ s / 2
  if s = 0 then m
  else if half < r || (r = half && n % 2 = 1) then n + 1 else n

/-- The magnitude encoding of m × 2^e rounded to nearest even with no upper limit, and whether the
delivered value is exact. -/
def Fmt.roundMag (f : Fmt) (m : Nat) (e : Int) : Nat × Bool :=
  if m = 0 then (0, true)
  else
    let lead : Int := (Nat.log2 m : Int) + e
    let q := max (lead - (f.mbits : Int)) f.qmin
    if e ≥ q then
      (((q - f.qmin).toNat <<< f.mbits) + (m <<< (e - q).toNat), true)
    else
      let s := (q - e).toNat
      (((q - f.qmin).toNat <<< f.mbits) + rneShift m s, m % 2 ^ s == 0)

/-- Tiny after rounding (R632): the unlimited-exponent rounding stays below the smallest normal. -/
def Fmt.tiny (f : Fmt) (m : Nat) (e : Int) : Bool :=
  if m = 0 then false
  else
    let lead : Int := (Nat.log2 m : Int) + e
    let emin : Int := 1 - (f.bias : Int)
    let q := lead - (f.mbits : Int)
    let carry := if e ≥ q then false
      else decide (2 ^ (f.mbits + 1) ≤ rneShift m (q - e).toNat)
    decide (lead < emin) && !(carry && decide (lead = emin - 1))

/-- One rounding of an exact value to an IEEE-like format (RNE), with the events of R32 and R632. -/
def Fmt.round (f : Fmt) (x : Num) : Fl Nat :=
  let sgn (n : Bool) : Nat := if n then 2 ^ (f.ebits + f.mbits) else 0
  match x with
  | .nan s => (f.nanMag, ⟨s, false, false⟩)
  | .inf n => Fl.pure (sgn n + f.infMag)
  | .fin n m e =>
    let r := f.roundMag m e
    if f.maxMag < r.1 then (sgn n + f.infMag, Flags.ovf)
    else (sgn n + r.1, ⟨false, false, !r.2 && f.tiny m e⟩)

/-- One rounding of a finite value that saturates at the largest finite value, with no event (R40). -/
def Fmt.roundSat (f : Fmt) (x : Num) : Nat :=
  match x with
  | .fin n m e =>
    (if n then 2 ^ (f.ebits + f.mbits) else 0) + min f.maxMag (f.roundMag m e).1
  | _ => 0

/-! ### FP32 operations, one rounding each -/

/-- The value of an FP32 pattern. -/
def f32Num (x : F32) : Num := Fmt.fp32.decode x.toNat

/-- The FP32 nearest an exact value. -/
def f32Of (x : Num) : Fl F32 :=
  let r := Fmt.fp32.round x
  (BitVec.ofNat 32 r.1, r.2)

def f32Zero : F32 := 0x00000000#32
def f32One : F32 := 0x3F800000#32
def f32Nan : F32 := 0x7FC00000#32
def f32Inf : F32 := 0x7F800000#32
def f32NegInf : F32 := 0xFF800000#32

def f32IsNan (x : F32) : Bool := (f32Num x).isNan
def f32IsInf (x : F32) : Bool := (f32Num x).isInf

def f32Neg (x : F32) : F32 := x ^^^ 0x80000000#32
def f32Abs (x : F32) : F32 := x &&& 0x7FFFFFFF#32

def f32Add (x y : F32) : Fl F32 := Fl.bind ((f32Num x).add (f32Num y)) f32Of
def f32Sub (x y : F32) : Fl F32 := Fl.bind ((f32Num x).add (f32Num y).negate) f32Of
def f32Mul (x y : F32) : Fl F32 := Fl.bind ((f32Num x).mul (f32Num y)) f32Of

/-- fma_binary32 (R36): x × y + c with one rounding; 0 × ∞ is invalid even beside a quiet NaN. -/
def f32Fma (x y c : F32) : Fl F32 :=
  Fl.bind ((f32Num x).mul (f32Num y)) fun p => Fl.bind (p.add (f32Num c)) f32Of

/-- The larger or smaller of two values by R101: −0.0 below +0.0, a NaN gives the canonical NaN. -/
def f32MaxMin (wantMin : Bool) (x y : F32) : Fl F32 :=
  let a := f32Num x
  let b := f32Num y
  if a.isNan || b.isNan then (f32Nan, ⟨a.isSig || b.isSig, false, false⟩)
  else if (if wantMin then b.lt a else a.lt b) then Fl.pure y else Fl.pure x

/-- The correctly rounded quotient of two FP32 values. Division by zero sets no flag: R41 names three
events and the chapter gives none for it. 0 ÷ 0 and ∞ ÷ ∞ are invalid (IEEE 754-2019). -/
def f32Div (x y : F32) : Fl F32 :=
  match f32Num x, f32Num y with
  | .nan a, .nan b => (f32Nan, ⟨a || b, false, false⟩)
  | .nan a, _ => (f32Nan, ⟨a, false, false⟩)
  | _, .nan b => (f32Nan, ⟨b, false, false⟩)
  | .inf _, .inf _ => (f32Nan, Flags.inv)
  | .inf a, .fin b _ _ => f32Of (.inf (a != b))
  | .fin a _ _, .inf b => f32Of (.fin (a != b) 0 0)
  | .fin a m e, .fin b n f =>
    if n = 0 then (if m = 0 then (f32Nan, Flags.inv) else f32Of (.inf (a != b)))
    else
      let num := m <<< 80
      let q := num / n
      let s := if num % n = 0 then 0 else 1
      f32Of (.fin (a != b) (2 * q + s) (e - f - 81))

/-- An FP32 value from a natural number, rounded once. -/
def f32OfNat (n : Nat) : F32 := (f32Of (.fin false n 0)).1

end Sys2Proof.Machine
end

