-- ==== Sys2Proof/Machine/Mx.lean ====
section
/-!
DEFINITION. Element types, MX blocks, FP32 pairs, gradient blocks, split terms, group sums and
conversions (*Number formats and arithmetic*, R13–R40).
-/
namespace Sys2Proof.Machine
open Sys2Proof

/-- The element types of R13. -/
inductive ElemType where
  | fp32 | bf16 | fp16 | pair | e4m3 | e5m2 | e2m3 | e3m2 | e2m1 | gradBlock | i32 | u32
deriving DecidableEq, Repr

namespace ElemType

/-- The type a 4-bit code names; codes 0xC–0xF are reserved (R13). -/
def ofCode : Nat → Option ElemType
  | 0 => some fp32 | 1 => some bf16 | 2 => some fp16 | 3 => some pair
  | 4 => some e4m3 | 5 => some e5m2 | 6 => some e2m3 | 7 => some e3m2 | 8 => some e2m1
  | 9 => some gradBlock | 10 => some i32 | 11 => some u32
  | _ => none

/-- Bits of one element, less any scale or header (R13). -/
def bits : ElemType → Nat
  | fp32 => 32 | bf16 => 16 | fp16 => 16 | pair => 64
  | e4m3 => 8 | e5m2 => 8 | e2m3 => 6 | e3m2 => 6 | e2m1 => 4
  | gradBlock => 16 | i32 => 32 | u32 => 32

def isMx : ElemType → Bool
  | e4m3 | e5m2 | e2m3 | e3m2 | e2m1 => true
  | fp32 | bf16 | fp16 | pair | gradBlock | i32 | u32 => false

def is16 : ElemType → Bool
  | bf16 | fp16 => true
  | fp32 | pair | e4m3 | e5m2 | e2m3 | e3m2 | e2m1 | gradBlock | i32 | u32 => false

/-- The format of a floating-point element type (R15). -/
def fmt : ElemType → Fmt
  | bf16 => Fmt.bf16 | fp16 => Fmt.fp16 | e4m3 => Fmt.e4m3 | e5m2 => Fmt.e5m2
  | e2m3 => Fmt.e2m3 | e3m2 => Fmt.e3m2 | e2m1 => Fmt.e2m1
  | gradBlock => Fmt.fp16
  | fp32 | pair | i32 | u32 => Fmt.fp32

/-- emax of R15: the exponent of the largest normal power of two. -/
def emax : ElemType → Int
  | e4m3 => 8 | e5m2 => 15 | e2m3 => 2 | e3m2 => 4 | e2m1 => 2
  | fp32 | bf16 | fp16 | pair | gradBlock | i32 | u32 => 0

/-- Legal as a matrix operand (R13). -/
def operandOk : ElemType → Bool
  | pair | gradBlock | i32 | u32 => false
  | fp32 | bf16 | fp16 | e4m3 | e5m2 | e2m3 | e3m2 | e2m1 => true

/-- Legal as an mm.drain output (R13). -/
def drainOk : ElemType → Bool
  | gradBlock | i32 | u32 => false
  | fp32 | bf16 | fp16 | pair | e4m3 | e5m2 | e2m3 | e3m2 | e2m1 => true

end ElemType

/-! ### MX blocks -/

/-- The value of an MX element under its block scale; scale 0xFF makes every element a quiet NaN (R20). -/
def mxValue (t : ElemType) (scale bits : Nat) : Num :=
  if scale = 0xFF then .nan false
  else (t.fmt.decode bits).scale ((scale : Int) - 127)

/-- floor(log₂) of a non-zero finite value's magnitude. -/
def Num.ilog2 : Num → Int
  | .fin _ m e => (Nat.log2 m : Int) + e
  | _ => 0

/-- The largest magnitude among finite values. -/
def maxMag : List Num → Num
  | [] => Num.zero
  | x :: xs => let m := maxMag xs; if x.isFinite && m.magLt x then x else m

/-- Conversion of the values of one block to an MX type (R40): scale, elements and events. -/
def toMxBlock (t : ElemType) (vs : List Num) : Fl (Nat × List Nat) :=
  if vs.any (fun v => v.isNan || v.isInf) then
    ((0xFF, vs.map fun _ => 0),
      ⟨vs.any Num.isSig, vs.any Num.isInf, false⟩)
  else
    let m := maxMag vs
    if m.isZero then Fl.pure (0x7F, vs.map t.fmt.roundSat)
    else
      let raw := m.ilog2 - t.emax
      let x := min (max raw (-127)) 127
      (((x + 127).toNat, vs.map fun v => t.fmt.roundSat (v.scale (-x))),
        ⟨false, decide (127 < raw), false⟩)

/-! ### FP32 pairs (R21, R33) -/

/-- The value a pair stands for: hi + lo, or hi alone when hi is an infinity or a NaN. The sum of −0.0 and +0.0 is
+0.0, as RNE addition has it; R39 gives the exact sum and no sign of a zero (DESIGN CHOICE, log 92). -/
def pairNum (hi lo : F32) : Num :=
  let h := f32Num hi
  if h.isFinite then (h.add (f32Num lo)).1 else h

/-- A value rounded to a pair, with the events of its high part only (R33). -/
def toPair (x : Num) : Fl (F32 × F32) :=
  let h := f32Of x
  if (f32Num h.1).isFinite then
    (((h.1), (f32Of ((x.add (f32Num h.1).negate).1)).1), h.2)
  else ((h.1, f32Zero), h.2)

/-- The fixed addition sequence of R33 with flags at its stated points. -/
def pairAdd (a b : F32 × F32) : Fl (F32 × F32) :=
  let exact := ((f32Num a.1).add (f32Num b.1))
  let s := Fl.bind exact f32Of
  if !(f32Num s.1).isFinite then ((s.1, f32Zero), s.2)
  else
    let e := (exact.1.add (f32Num s.1).negate).1
    let t := (f32Add a.2 b.2).1
    let u := (f32Of (e.add (f32Num t)).1).1
    let hi := f32Add s.1 u
    let fl := s.2.or ⟨false, hi.2.overflow, false⟩
    if (f32Num hi.1).isInf then ((hi.1, f32Zero), fl)
    else
      let lo := (f32Sub u (f32Sub hi.1 s.1).1).1
      ((hi.1, lo), fl)

/-! ### Gradient blocks (R22–R25) -/

/-- A gradient block as it crosses the Weave: header fields and FP16 values. -/
structure GradBlock where
  exp : Int
  overflow : Bool
  lateFold : Bool
  stale : Bool
  count : Nat
  vals : List Nat
deriving DecidableEq, Repr

/-- The 32-bit header of R22. -/
def GradBlock.header (b : GradBlock) : Nat :=
  ofInt 8 b.exp <<< 24 + bitNat b.overflow <<< 23 + bitNat b.lateFold <<< 22
    + bitNat b.stale <<< 21 + b.count % 65536

/-- The 516 stored bytes (R22). -/
def GradBlock.bytes (b : GradBlock) : List Byte :=
  leBytes 4 b.header ++ b.vals.flatMap (leBytes 2)

/-- A stored block read back; receivers ignore the reserved bits (R23). -/
def GradBlock.ofBytes (bs : List Byte) : GradBlock :=
  let h := leAt bs 0 4
  { exp := signExt 8 (h >>> 24), overflow := bitOf h 23, lateFold := bitOf h 22, stale := bitOf h 21,
    count := h % 65536, vals := (upTo 256).map fun i => leAt bs (4 + 2 * i) 2 }

/-- Conversion of FP32 values to a block (R24): the producer's overflow flag, and invalid for a signalling NaN
(R17). -/
def toGradBlock (count : Nat) (vs : List Num) : Fl GradBlock :=
  if vs.any (fun v => !v.isFinite) then
    (⟨0, true, false, false, count, vs.map fun _ => 0x7E00⟩, ⟨vs.any Num.isSig, true, false⟩)
  else
    let m := maxMag vs
    let e := if m.isZero then 0 else min (max (m.ilog2 - 14) (-128)) 127
    Fl.pure ⟨e, false, false, false, count, vs.map fun v => (Fmt.fp16.round (v.scale (-e))).1⟩

/-- One element of a block converted to FP32, with its events (R17, R25, R632). -/
def gradConv (exp : Int) (bits : Nat) : Fl F32 := f32Of ((Fmt.fp16.decode bits).scale exp)

/-- One element of a block decoded to FP32 (R25). -/
def gradElem (b : GradBlock) (i : Nat) : F32 := (gradConv b.exp (nth 0 b.vals i)).1

/-! ### Split-mode terms (R34) -/

/-- Truncation toward zero to BF16 of a finite FP32 pattern. -/
def truncBf16 (x : F32) : Nat := x.toNat >>> 16

/-- An exact difference held as FP32; R34 states that it is exact. -/
def exactSub (x : F32) (t : Nat) : F32 :=
  (f32Of ((f32Num x).add (Fmt.bf16.decode t).negate).1).1

/-- Term 1, 2 or 3 of an FP32 value, as a BF16 pattern. -/
def splitTerm (term : Nat) (x : F32) : Nat :=
  match f32Num x with
  | .nan _ =>
    if term = 1 then
      let top := truncBf16 x
      if top % 128 = 0 then top + 1 else top
    else 0
  | .inf _ => if term = 1 then truncBf16 x else 0
  | .fin .. =>
    let x1 := truncBf16 x
    let r1 := exactSub x x1
    let x2 := truncBf16 r1
    let r2 := exactSub r1 x2
    if term = 1 then x1 else if term = 2 then x2 else truncBf16 r2

/-! ### Group sums (R27, R28, R32) -/

/-- Group size by GROUP code; 0b11 is reserved (R27). -/
def groupSize : Nat → Option Nat
  | 0 => some 16
  | 1 => some 4
  | 2 => some 8
  | _ => none

/-- The exact sum of the exact products of one group (R28 steps 1 and 2, R32). Products +∞ and −∞ set invalid also
where the group holds a quiet NaN (DESIGN CHOICE, log 92). -/
def groupSum (ps : List (Num × Num)) : Fl Num :=
  let prods := ps.map fun p => p.1.mul p.2
  let inv := prods.any fun p => p.2.invalid
  let pos := prods.any fun p => p.1.isInf && !p.1.isNeg
  let neg := prods.any fun p => p.1.isInf && p.1.isNeg
  if prods.any (fun p => p.1.isNan) || (pos && neg) then (.nan false, ⟨inv || (pos && neg), false, false⟩)
  else
    match prods.map Prod.fst with
    | [] => Fl.pure Num.zero
    | q :: qs => Fl.pure (qs.foldl (fun a b => (a.add b).1) q)

/-- One activation row against one weight column: groups added in increasing K (R28 steps 3 and 4). -/
def rowSumInto (group : Nat) (acc : F32) (w x : List Num) : Fl F32 :=
  Fl.foldList (fun a g => Fl.bind (Fl.bind (groupSum g) f32Of) fun s => f32Add a s) acc
    (chunksOf (w.length + 1) group (w.zip x))

/-- The same row into a pair tile (R33). -/
def rowPairInto (group : Nat) (acc : F32 × F32) (w x : List Num) : Fl (F32 × F32) :=
  Fl.foldList (fun a g => Fl.bind (Fl.bind (groupSum g) toPair) fun s => pairAdd a s) acc
    (chunksOf (w.length + 1) group (w.zip x))

/-- Strict mode (R36): one fused multiply-add per K-position in increasing K. -/
def rowStrictInto (acc : F32) (w x : List Num) : Fl F32 :=
  Fl.foldList (fun a p => Fl.bind ((p.1 : Num).mul p.2) fun q => Fl.bind (q.add (f32Num a)) f32Of) acc (w.zip x)

/-! ### Conversions (R39) -/

/-- An exact value rounded once to a 16-bit or FP32 type. -/
def convTo (t : ElemType) (x : Num) : Fl Nat := t.fmt.round x

/-- The value of one stored non-MX element. -/
def elemNum (t : ElemType) (bits : Nat) : Num :=
  match t with
  | .pair => pairNum (BitVec.ofNat 32 (bits % 2 ^ 32)) (BitVec.ofNat 32 (bits >>> 32))
  | .i32 => let v := signExt 32 bits; Num.ofInt false v 0
  | .u32 => .fin false (bits % 2 ^ 32) 0
  | t => t.fmt.decode bits

/-- One non-block conversion (R39): equal types copy the pattern (R16). -/
def convScalar (src dst : ElemType) (bits : Nat) : Fl Nat :=
  if src = dst then Fl.pure (bits % 2 ^ src.bits)
  else
    match dst with
    | .pair => Fl.bind (f32Of (elemNum src bits)) fun h => Fl.pure h.toNat
    | .fp32 =>
      match src with
      | .pair => Fl.bind (f32Of (f32Num (BitVec.ofNat 32 (bits % 2 ^ 32)))) fun h => Fl.pure h.toNat
      | _ => convTo .fp32 (elemNum src bits)
    | d => convTo d (elemNum src bits)

/-- An FP32 or pair word of an accumulator converted for a 16-bit, FP32 or pair destination. -/
def packBits (w : Nat) : List Nat → Nat
  | [] => 0
  | x :: xs => x % 2 ^ w + (packBits w xs) <<< w

/-- Element n of a packed row of w-bit elements. -/
def unpackBit (w n row : Nat) : Nat := (row >>> (n * w)) % 2 ^ w

/-- A packed MX row: 32-element blocks first, their scales after (R19, R54); element values. -/
def mxRowValues (t : ElemType) (k : Nat) (row : Nat) : List Num :=
  let body := k * t.bits
  (upTo k).map fun n => mxValue t ((row >>> (body + 8 * (n / 32))) % 256) (unpackBit t.bits n row)

end Sys2Proof.Machine
end

