-- ==== Sys2Proof/Machine/Sparse.lean ====
section
/-!
DEFINITION. Sparse tables in one canonical form: keys strictly rising and no pair that holds the
value an unlisted key reads as, so that equal tables are equal lists. Memory, register tables and
per-unit records all use it.
-/
namespace Sys2Proof.Machine
open Sys2Proof

variable {α : Type}

/-- The value at a key; an unlisted key reads as the default. -/
def sget (d : α) : Sparse α → Nat → α
  | [], _ => d
  | (k, v) :: m, i => if i = k then v else sget d m i

/-- The table without a key. -/
def serase (m : Sparse α) (i : Nat) : Sparse α := m.filter fun p => p.1 != i

/-- The table with a key bound, kept in rising order. -/
def sinsert : Sparse α → Nat → α → Sparse α
  | [], i, x => [(i, x)]
  | (k, v) :: m, i, x =>
    if i < k then (i, x) :: (k, v) :: m
    else if i = k then (i, x) :: m
    else (k, v) :: sinsert m i x

/-- Write a key: writing the default removes the entry. -/
def sset [DecidableEq α] (d : α) (m : Sparse α) (i : Nat) (x : α) : Sparse α :=
  if x = d then serase m i else sinsert m i x

/-- Change the value at a key. -/
def smod [DecidableEq α] (d : α) (m : Sparse α) (i : Nat) (f : α → α) : Sparse α :=
  sset d m i (f (sget d m i))

/-- Every listed value changed. -/
def smapv [DecidableEq α] (d : α) (m : Sparse α) (f : Nat → α → α) : Sparse α :=
  (m.map fun p => (p.1, f p.1 p.2)).filter fun p => decide (p.2 ≠ d)

/-- Every key of the half-open range [lo, hi) back to the default. -/
def sclear (m : Sparse α) (lo hi : Nat) : Sparse α :=
  m.filter fun p => !(decide (lo ≤ p.1) && decide (p.1 < hi))

/-- The listed pairs whose keys lie in [lo, hi). -/
def srange (m : Sparse α) (lo hi : Nat) : Sparse α :=
  m.filter fun p => decide (lo ≤ p.1) && decide (p.1 < hi)

/-- Keys strictly rising, each above the bound where there is one. -/
def srising : Option Nat → Sparse α → Bool
  | _, [] => true
  | none, (k, _) :: m => srising (some k) m
  | some b, (k, _) :: m => decide (b < k) && srising (some k) m

/-- The canonical form. -/
def swf [DecidableEq α] (d : α) (m : Sparse α) : Bool :=
  srising none m && m.all fun p => decide (p.2 ≠ d)

end Sys2Proof.Machine
end

