-- ==== Sys2Proof/Machine/State.lean ====
section
/-!
DEFINITION. The state of the device: everything the spec gives it, as plain data, the queue of waiting
commands, the reasons a step can stop, and the state after reset. Each field's docstring says what it
holds; INVENTORY.md lists every piece with its rule and reset value.
-/
namespace Sys2Proof.Machine
open Sys2Proof

/-! ### Panels (*Panels and the matrix array*, *Row engine and vector unit*, *Panel instruction bundles*) -/

/-- One weight tile of the array latches (R52, R53): type code, split term, packed bytes as a number. -/
structure Latch where
  typ : Nat
  term : Nat
  raw : Nat
deriving DecidableEq, Repr

/-- After panel reset a tile holds +0.0 and its type is BF16 (R85). -/
def Latch.reset : Latch := ⟨1, 0, 0⟩

/-- What a weight load moves (R54, R69, R126). -/
inductive LoadKind where
  | plain | turn | acc | scratch
deriving DecidableEq, Repr

/-- The load or restore in progress on a panel's load slot (R55). -/
structure LoadJob where
  kind : LoadKind
  typ : Nat
  term : Nat
  issue : Nat
  /-- bytes the input path still delivers -/
  left : Nat
  total : Nat
  /-- the lines already read, in delivery order -/
  got : List Byte
  /-- runs of source bytes in delivery order: address and length -/
  src : List (Nat × Nat)
  /-- the cycle in which the last byte is delivered, once known -/
  lastByte : Option Nat
  /-- restore: physical rows in order -/
  rows : List Nat
  tile : Nat
  half : Option Nat
  /-- its first access gave unspecified contents (R82, R202) -/
  late : Bool
deriving DecidableEq, Repr

/-- The operation of a stream (R56, R70). -/
inductive StreamOp where
  | add | max | min
deriving DecidableEq, Repr

/-- A stream in progress: rows not yet entered (R56). -/
structure StreamJob where
  op : StreamOp
  issue : Nat
  tile : Nat
  first : Nat
  rows : Nat
  next : Nat
  /-- 0 Felt, 1 and 2 bus channels, 3 scratch -/
  src : Nat
  group : Nat
  strict : Bool
  term : Nat
  typ : Nat
  kBase : Nat
  /-- source address of each row, or none for the bus -/
  addr : Nat
  pitch : Nat
  spacing : Nat
  /-- rows already read from their bank or port, not yet entered: index and bytes -/
  fetched : List (Nat × List Byte)
  stepTag : Nat
deriving DecidableEq, Repr

/-- An x.bcast in progress on an island (R57). -/
structure BcastJob where
  lead : Nat
  ch : Nat
  issue : Nat
  addr : Nat
  pitch : Nat
  rows : Nat
  typ : Nat
  spacing : Nat
  fetched : List (Nat × List Byte)
  /-- its first access gave unspecified contents (R202) -/
  late : Bool
deriving DecidableEq, Repr

/-- A stream row in the array, between its entry and its update: the tile's mode and sense, the logical row's first
physical row, the weight tile it met, and its bytes (R52, R78). -/
structure ArrayRow where
  job : StreamJob
  mode : Nat
  sense : Nat
  phys : Nat
  latch : Latch
  bytes : List Byte
  /-- the cycle of its update -/
  land : Nat
deriving DecidableEq, Repr

/-- Where a drain writes (R67, R170, R171). -/
inductive DrainDest where
  | vector (reg : Nat)
  | memory (scratch : Bool) (addr pitch : Nat)
  | rowEngine
  | wide (addr contrib : Nat)
deriving DecidableEq, Repr

/-- A drain in progress (R67). -/
structure DrainJob where
  issue : Nat
  tile : Nat
  mode : Nat
  sense : Nat
  first : Nat
  rows : Nat
  cols : Nat
  typ : Nat
  zap : Bool
  index : Bool
  dest : DrainDest
  /-- physical rows still to be read, in order, and how many were read -/
  todo : List Nat
  done : Nat
  stepTag : Nat
deriving DecidableEq, Repr

/-- A move or turn in progress (R127, R178). -/
structure MoveJob where
  issue : Nat
  turn : Bool
  srcScratch : Bool
  dstScratch : Bool
  rowBytes : Nat
  rows : Nat
  /-- source and destination addresses of row 0 and their pitches -/
  src : Nat
  srcPitch : Nat
  dst : Nat
  dstPitch : Nat
  /-- bytes the input path still delivers, and those delivered -/
  left : Nat
  got : List Byte
  token : Option Nat
  half : Option Nat
  elemBytes : Nat
  /-- its first access gave unspecified contents (R82, R202) -/
  late : Bool
deriving DecidableEq, Repr

/-- Ports and paths of a panel that one operation holds at a time (R65, R157). -/
inductive Port where
  | clear | drain | scratchRd | scratchWr | vertOut | array
deriving DecidableEq, Repr

/-- A port held over a range of cycles by the operation issued in a cycle and slot (R157). -/
structure Claim where
  port : Port
  first : Nat
  last : Nat
  issue : Nat
  slot : Nat
deriving DecidableEq, Repr

/-- What will touch or did touch a physical row (R65). -/
inductive TouchKind where
  | enter | zero | restore | read
deriving DecidableEq, Repr

/-- A run of touches of physical rows: rows row to row + count − 1, rate of them per cycle from a cycle
on, by the operation issued in a cycle. Scratch rows of pass-mode tiles are numbered from 8,192. -/
structure Touch where
  kind : TouchKind
  row : Nat
  count : Nat
  rate : Nat
  cycle : Nat
  issue : Nat
deriving DecidableEq, Repr

/-- A beat alarm armed for a logical beat (R186). -/
structure Alarm where
  ctr : Nat
  beat : Nat
deriving DecidableEq, Repr

/-- A bundle held by its s.wait (R182, R207). -/
structure Held where
  due : Nat
  ctr : Nat
  n : Nat
  unit : Nat
  maxWait : Nat
  /-- beat boundaries observed since the due cycle -/
  beats : Nat
  /-- the bundle that issues, or none for an s.wait sent as a command of its own -/
  bundle : Option Nat
  /-- the wait's fault was already detected -/
  late : Bool
  /-- how long beat counting had been frozen when the wait was due (R588) -/
  base : Nat
deriving DecidableEq, Repr

/-- One panel: sequencer, array, vector unit and its jobs. Its SRAM lies in memory (R76). -/
structure Panel where
  active : Latch
  shadow : Latch
  tiles : Sparse Nat
  pc : Nat
  lastPc : Nat
  rem : Option Nat
  started : Bool
  lastIssue : Nat
  halted : Bool
  haltedByFault : Bool
  haltAtBoundary : Bool
  frozen : Bool
  held : Option Held
  stallFrom : Option Nat
  its : Sparse Nat
  vslot : Nat
  ectr : Nat
  vr : Sparse (BitVec 32)
  vconst : Sparse (BitVec 32)
  alarm0 : Option Alarm
  alarm1 : Option Alarm
  load : Option LoadJob
  swapAt : Nat
  streams : List StreamJob
  drains : List DrainJob
  moves : List MoveJob
  claims : List Claim
  touches : List Touch
  half0 : Nat
  half1 : Nat
  /-- operations s.fence asks about: class bit, completion cycle and issue cycle (R187) -/
  pendingOps : List (Nat × Nat × Nat)
  /-- tile entries with rows still to be applied: entry and last cycle (R62) -/
  tileBusy : List (Nat × Nat)
  pairMode : Bool
  fillB : Bool
  lastErrorStep : Option Nat
  accTest : Bool
  /-- the panel has reached the s.wait of its step-entry bundle on time (R220) -/
  stepEntryReached : Bool
  /-- the step that its next pass of the step-entry bundle begins -/
  entryStep : Nat
  /-- bit k: bundle page k is being refilled (R51) -/
  busyPages : Nat
  /-- the bundle that is repeated -/
  bundle : Nat
deriving DecidableEq, Repr

/-- A panel after panel reset at power-up (R44, R61, R85, R115). -/
def Panel.reset : Panel :=
  { active := Latch.reset, shadow := Latch.reset, tiles := [], pc := 0, lastPc := 0, rem := none,
    started := false, lastIssue := 0, halted := false, haltedByFault := false, haltAtBoundary := false,
    frozen := false, held := none, stallFrom := none, its := [], vslot := 0, ectr := 0, vr := [],
    vconst := [], alarm0 := none, alarm1 := none, load := none, swapAt := 0,
    streams := [], drains := [], moves := [], claims := [], touches := [], half0 := 0, half1 := 0,
    pendingOps := [], tileBusy := [], pairMode := false, fillB := false, lastErrorStep := none, accTest := false,
    stepEntryReached := false, entryStep := 0, busyPages := 0, bundle := 0 }

/-- A row-engine request accepted into the queue (R91). -/
structure ReReq where
  panel : Nat
  accepted : Nat
  index : Nat
  slot : Nat
  rowOff : Nat
  /-- step tag of the request's slot, and its step (R114, R163, R366) -/
  stepTag : Nat
  step : Nat
deriving DecidableEq, Repr

/-- The running request of a row engine (R92, R93). -/
structure ReRun where
  req : ReReq
  start : Nat
  /-- the 64-byte record as it was fetched -/
  record : List Byte
  next : Nat
  /-- E of the last processed row -/
  lastEnd : Nat
  /-- drain arrivals so far and their rows of 64 FP32 values with arrival cycle -/
  arrivals : List (Nat × List (BitVec 32))
  /-- Felt inputs already read: row and bytes of A, B, C -/
  fetched : List (Nat × List Byte × List Byte × List Byte)
  /-- the Felt input bytes of the row that is being read, in order of delivery -/
  got : List Byte
  /-- the latest cycle from which an output so far is visible (R92) -/
  visible : Nat
  /-- gain and bias sums of a backward request (R104) -/
  dg : List (BitVec 32)
  db : List (BitVec 32)
deriving DecidableEq, Repr

/-- A contribution row on its way to a wide-buffer tile (R133). -/
structure Contrib where
  /-- sending unit: panel p, or 128 + island for a row engine -/
  sender : Nat
  addr : Nat
  id : Nat
  tag : Nat
  cols : Nat
  vals : List (BitVec 32)
  arrival : Nat
  /-- issue cycle of its drain; 0 for a row engine -/
  issue : Nat
deriving DecidableEq, Repr

/-- Time-driven work of an island, performed when its cycle is reached. -/
inductive Deferred where
  | vreg (panel reg : Nat) (lanes : List (BitVec 32))
  | bits (addr len value mask : Nat)
  | token (ctr amount : Nat) (poster : Nat)
  | pathCycle (panel : Nat)
  | streamRead (panel issue row part : Nat)
  | landRow (panel : Nat) (row : ArrayRow)
  | bcastRead (lead ch issue row part : Nat)
  | drainRow (panel issue m : Nat)
  | zeroRows (panel mode sense row count : Nat)
  | moveRow (panel issue row : Nat)
  | turnRow (panel issue row : Nat)
  | turnHalf (panel issue : Nat) (load : Bool)
  | reRead (row part : Nat)
  /-- a row whose record lies in the spill area: its end, its record's address and its Felt inputs -/
  | reRow (row e addr : Nat) (a b c : List Byte)
  /-- a group of rows of re.smax.fin with spilled records: first row, rows and end -/
  | reFin (first n e : Nat)
  /-- the running request's last row has ended -/
  | reDone (e : Nat)
  | reArrive (panel : Nat) (lanes : List (BitVec 32))
  | reAccept (req : ReReq)
  | stash (entry tag panel : Nat)
  /-- the row of this arrival number comes to the adders -/
  | wbRow (order : Nat)
deriving DecidableEq, Repr

/-- A deferred item with its cycle, its rank within the cycle, and the panel, issue cycle and slot of
the operation it belongs to. -/
structure Item where
  cycle : Nat
  rank : Nat
  panel : Nat
  issue : Nat
  slot : Nat
  work : Deferred
deriving DecidableEq, Repr

/-- One compute island: clock, tokens, agenda, broadcast channels, row engine. -/
structure Island where
  cycle : Nat
  agenda : List Item
  tokens : Sparse Nat
  bcasts : List BcastJob
  requests : Sparse (BitVec 8)
  consts : Sparse (BitVec 32)
  statMap : Sparse Nat
  queue : List ReReq
  running : Option ReRun
  reLastEnd : Nat
  reFrozen : Bool
  reLastErrorStep : Option Nat
  /-- the code in force: 12 while the warn condition holds, else the thermal code (R215, R471) -/
  stretch : Nat
  thermal : Nat
  stretchMax : Nat
deriving DecidableEq, Repr

def Island.reset : Island :=
  { cycle := 0, agenda := [], tokens := [], bcasts := [], requests := [], consts := [], statMap := [],
    queue := [], running := none, reLastEnd := 0, reFrozen := false, reLastErrorStep := none,
    stretch := 0, thermal := 0, stretchMax := 0 }

/-- A row held in a reorder window (R138). -/
structure WindowRow where
  row : Contrib
  order : Nat
deriving DecidableEq, Repr

/-- A sender stalled at a full reorder window (R139). -/
structure SenderStall where
  row : Contrib
  region : Nat
  group : Nat
  since : Nat
  faulted : Bool
  /-- its place in the order of arrival -/
  order : Nat
deriving DecidableEq, Repr

/-- An expected row on its way to a bank group's adders, with its place in the order of arrival and the cycle in which it
arrived (R136). -/
structure AdderRow where
  row : Contrib
  order : Nat
  entry : Nat
deriving DecidableEq, Repr

/-- A stash claim held until REMAIN is 0, with the completion token it posts (R146). -/
structure StashClaim where
  entry : Nat
  word : Nat
  shuttle : Nat
  index : Nat
deriving DecidableEq, Repr

/-- The backward-pass structures of the Felt die (R130–R148, R270). -/
structure WideState where
  /-- list entries applied to each row of a tile: key region × 2^19 + row -/
  progress : Sparse Nat
  /-- reorder windows, key region × 32 + group -/
  windows : Sparse (List WindowRow)
  /-- contributions sent, oldest first -/
  inFlight : List Contrib
  stalls : List SenderStall
  /-- rows that have arrived; a row's number is its place in the order of arrival -/
  arrivals : Nat
  /-- expected rows that have arrived and have not come to the adders yet -/
  adders : List AdderRow
  claims : List StashClaim
  /-- cycle, plus 1, in which each bank group last applied a row (R136) -/
  adder : Sparse Nat
  /-- a claim has been held since the last beat boundary (R148) -/
  heldInBeat : Bool
deriving DecidableEq, Repr

def WideState.reset : WideState := ⟨[], [], [], [], 0, [], [], [], false⟩

/-! ### The schedule contract and the loaded Pattern (*The schedule contract*) -/

/-- The loaded Pattern: the header values the device keeps and the sections it refers to later (R223). -/
structure Pattern where
  loaded : Bool
  grade : Nat
  jobTag : Nat
  slots : Nat
  recoveryBeats : Nat
  panelMask : Nat
  startBeat : Nat
  firstStep : Nat
  /-- what STEP_REBASE took FIRST_STEP below 0 (R211) -/
  rebased : Nat
  lastStep : Nat
  stepBeats : Nat
  pauseOffset : Nat
  lateLimit : Nat
  stashBase : Nat
  stashBytes : Nat
  copyBase : Nat
  copyBytes : Nat
  /-- panel table entries of 64 bits (R225) -/
  panelTable : Sparse Nat
  /-- lag of each slot (R226) -/
  lags : Sparse Nat
  /-- lengths of the recovery-copy sections, types 0x0002 to 0x0006 (R635) -/
  copyLens : List Nat
  sections : List (Nat × List Byte)
deriving DecidableEq, Repr

def Pattern.none : Pattern :=
  { loaded := false, grade := 0, jobTag := 0, slots := 0, recoveryBeats := 0, panelMask := 0,
    startBeat := 0, firstStep := 0, rebased := 0, lastStep := 0, stepBeats := 0, pauseOffset := 0, lateLimit := 0,
    stashBase := 0, stashBytes := 0, copyBase := 0, copyBytes := 0, panelTable := [], lags := [],
    copyLens := [], sections := [] }

/-- A token on its way to an island (R203, R204). -/
structure Transit where
  /-- true when an off-Tree unit posted it -/
  offTree : Bool
  island : Nat
  ctr : Nat
  amount : Nat
  poster : Nat
deriving DecidableEq, Repr

/-- Late mode, withholding and the step bookkeeping (R216–R222). -/
structure ContractState where
  /-- the next step whose start beat the hub has still to observe (R210) -/
  nextStep : Nat
  transit : List Transit
  /-- which flag sets the vote has captured, for late events (R42) -/
  captured : Option Nat
  /-- consecutive steps withheld for 0x0301 (R273) -/
  poisonSteps : Nat
  poisonThisStep : Bool
  /-- lowest slack seen in the current step (R215) -/
  slack : Option Int
  /-- greatest lateness of a late alarm of the step (R221) -/
  lateness : Nat
  pauseTraffic : Bool
  inPause : Bool
  recoveryPending : Bool
  /-- the step, plus 1, whose recovery beat was last acted on (R222) -/
  recovered : Nat
  /-- the step in which late mode was entered (R220) -/
  lateStep : Nat
  ended : Bool
deriving DecidableEq, Repr

def ContractState.reset : ContractState :=
  { nextStep := 0, transit := [], captured := none, poisonSteps := 0,
    poisonThisStep := false, slack := none, lateness := 0, pauseTraffic := false, inPause := false,
    recoveryPending := false, recovered := 0, lateStep := 0, ended := false }

/-! ### Memory tiers (*Memory tiers and placement*) -/

/-- Poison and scrub state beside the bytes (R272–R279). -/
structure MemTier where
  /-- poisoned Felt words: key address ÷ 8 -/
  poisonWords : Sparse Bool
  /-- lost stack blocks: key address ÷ 256 -/
  lostBlocks : Sparse Bool
  /-- fault step of the last 0x0301 record of a word -/
  poisonLogged : Sparse Nat
  /-- step, plus 1, of a bank group's last uncorrectable error: key place 32 r + g (R274) -/
  groupError : Sparse Nat
  feltScrubAt : Nat
  patrolAt : Sparse Nat
  /-- an image lies in the stow area -/
  stowSeq : Nat
deriving DecidableEq, Repr

def MemTier.reset : MemTier := ⟨[], [], [], [], 0, [], 0⟩

/-! ### Arithmetic flags (R41–R44) -/

/-- Sticky flag sets: key set × 188 + unit, and the sets of the last voted step are in the Tack. -/
structure FlagState where
  sets : Sparse Nat
deriving DecidableEq, Repr

def FlagState.reset : FlagState := ⟨[]⟩

/-! ### The Tack, its two paths and the fault log (*The Tack object dictionary*) -/

/-- One fault-log record (R546). -/
structure FaultRec where
  seq : Nat
  code : Nat
  unit : Nat
  rep : Nat
  step : Nat
  beat : Nat
  time : Nat
  detail : Nat
  /-- the fault step of its entry, for folding (R637) -/
  faultStep : Nat
deriving DecidableEq, Repr

/-- A staged segmented write of one path (R523); dropped marks one that a seizure discarded, whose later segments
are answered BUSY (R530). -/
structure Stage where
  key : Nat
  data : List (BitVec 8)
  dropped : Bool
deriving DecidableEq, Repr

/-- A path's snapshot of a value (R523). -/
structure Snap where
  key : Nat
  data : List (BitVec 8)
deriving DecidableEq, Repr

/-- One access path (R523, R536, R540). -/
structure Path where
  stage : Option Stage
  /-- snapshots in force: of the entry last read from OFFSET 0, and of those read at another OFFSET since -/
  snaps : List Snap
deriving DecidableEq, Repr

/-- How a BAR2 access of the host completes (R569): a successful read, a read with the poisoned-data indication, a
write taken, Completer Abort (an access error too), Unsupported Request. The last two return all ones to a read. -/
inductive Bar2Reply where
  | data (bytes : List (BitVec 8))
  | poisoned (bytes : List (BitVec 8))
  | written
  | completerAbort
  | unsupported
deriving DecidableEq, Repr

/-- The dictionary store, the fault log, the host mailbox and the Bridle port. -/
structure TackState where
  /-- values of entries away from their defaults, key index × 256 + subindex -/
  store : Sparse Nat
  /-- records still in the log, newest first, at most 1,024 (R546) -/
  faults : List FaultRec
  newest : Nat
  cleared : Nat
  newestRec : Option FaultRec
  faultNLatched : Bool
  /-- fault step of the last record of each once-per-step fault: key code × 256 + unit -/
  oncePerStep : Sparse Nat
  /-- Weave clock of the last 0x0820 and of the last 0x0821 record (R540) -/
  lastAuthFault : Option Nat
  lastSessionFault : Option Nat
  host : Path
  bridle : Path
  mbRequest : Sparse (BitVec 8)
  mbResponse : List (BitVec 8)
  mbStatus : Nat
  mbRespLen : Nat
  eventCause : Nat
  eventEnable : Nat
  msixTable : Sparse (BitVec 8)
  msixPba : Nat
  /-- MSI-X vectors signalled to the host, oldest first -/
  msixSent : List Nat
  highCounter : Nat
  eventSeq : Nat
  eventSecond : Nat
  eventsInSecond : Nat
  /-- Bridle datagrams sent, oldest first -/
  bridleOut : List (List (BitVec 8))
  /-- the response to the last dictionary message, as the model shows it for commands of one message -/
  lastResponse : List (BitVec 8)
  /-- how the last BAR2 access completed -/
  bar2Last : Option Bar2Reply
  /-- counts free values drawn so far -/
  freeCount : Nat
  /-- the Pattern loader ring in BAR4 (R571) -/
  lqBase : Nat
  lqEntries : Nat
  lqTail : Nat
  lqHead : Nat
deriving DecidableEq, Repr

def TackState.reset : TackState :=
  { store := [], faults := [], newest := 0, cleared := 0, newestRec := none, faultNLatched := false,
    oncePerStep := [], lastAuthFault := none, lastSessionFault := none, host := ⟨none, []⟩,
    bridle := ⟨none, []⟩, mbRequest := [], mbResponse := [], mbStatus := 0, mbRespLen := 0,
    eventCause := 0, eventEnable := 0xF, msixTable := [], msixPba := 0, msixSent := [], highCounter := 0,
    eventSeq := 0, eventSecond := 0, eventsInSecond := 0, bridleOut := [], lastResponse := [], bar2Last := none,
    freeCount := 0, lqBase := 0, lqEntries := 0, lqTail := 0, lqHead := 0 }

/-! ### Weave time (*Weave time and the time reference*) -/

/-- A time-root candidate the device has heard (R496, R497). -/
structure Candidate where
  root : Nat
  priority : Nat
  source : Nat
  hops : Nat
  port : Nat
  annSeq : Nat
  live : Bool
deriving DecidableEq, Repr

/-- The time unit. Totals are in units of 2⁻¹⁶ ns. -/
structure TimeState where
  /-- Weave time total (R494) -/
  clock : Nat
  /-- time has been acquired since reset (R636) -/
  acquired : Bool
  candidates : List Candidate
  root : Option Nat
  parent : Option Nat
  /-- link-delay measurements of each port, newest first, at most 8 (R500) -/
  delays : Sparse (List Int)
  /-- SEQ and t1 of the open DELAY_REQ of each port -/
  delayReqs : Sparse (Option (Nat × Nat))
  delaySeq : Nat
  syncSeq : Nat
  annSeq : Nat
  /-- consecutive SYNCs within ±2 ns, at most 8, and beyond 50 ns (R503, R505) -/
  inLock : Nat
  outOfRange : Nat
  holdover : Bool
  /-- phase still to be slewed (R502) -/
  slew : Int
  /-- I32 fields of TIME_STATUS: filtered offset in ps, frequency adjustment in ppb -/
  offsetPs : Nat
  freqPpb : Nat
  ppsSeen : Bool
  ppsLive : Bool
  /-- this root counts as locked (R506) -/
  rootLocked : Bool
  setPending : Option Nat
  /-- the count is held until an unfrozen ANNOUNCE (R636) -/
  alignHold : Bool
  everLoaded : Bool
  /-- READY has been reached since the reset, or since L3 (R502) -/
  everReady : Bool
  /-- pulses of PPS_OUT so far -/
  ppsOut : Nat
  /-- another grandmaster of the Bridle segment is better (R512) -/
  ptpPassive : Bool
  /-- IEEE 1588 messages the Bridle port sent, oldest first (R512) -/
  ptpOut : List (List (BitVec 8))
deriving DecidableEq, Repr

def TimeState.reset : TimeState :=
  { clock := 0, acquired := false, candidates := [], root := none, parent := none, delays := [], delayReqs := [],
    delaySeq := 0, syncSeq := 0, annSeq := 0, inLock := 0, outOfRange := 0, holdover := false, slew := 0, offsetPs := 0,
    freqPpb := 0, ppsSeen := false, ppsLive := false, rootLocked := false, setPending := none, alignHold := false,
    everLoaded := false, everReady := false, ppsOut := 0, ptpPassive := false, ptpOut := [] }


/-! ### Tally (*Tally performance counters*) -/

/-- A dithered sampler (R596). -/
structure Sampler where
  lfsr : Nat
  left : Nat
deriving DecidableEq, Repr

/-- A sample that is not yet complete (R597, R598). -/
structure SampleOpen where
  panel : Nat
  issue : Nat
  /-- by slot, M first: the cycle from which the last effect so far is visible; none for an invalid slot or an s.wait -/
  last : List (Option Nat)
  /-- the record's first 48 bytes, up to SEQ, with LAT left 0 -/
  bytes : List (BitVec 8)
deriving DecidableEq, Repr

/-- A latched dump record that is being written (R593, R594). -/
structure DumpRec where
  seq : Nat
  beat : Nat
  time : Nat
  step : Nat
  digest8 : Nat
  stackDown : Bool
  counters : Sparse Nat
deriving DecidableEq, Repr

structure TallyState where
  /-- counters and bins by counter number (R581) -/
  counters : Sparse Nat
  /-- last island cycle in which a programmable counter's event occurred, plus 1: key 16 i + c (R583) -/
  last : Sparse Nat
  /-- island shadows of other blocks' counters: key island × 4096 + number (R591) -/
  shadows : Sparse Nat
  dumpSeq : Nat
  dump : Option DumpRec
  sampleWrite : Nat
  sampleRead : Nat
  samplers : Sparse Sampler
  opened : List SampleOpen
  /-- completed records in the island buffers, in completion order: island and bytes -/
  buffered : List (Nat × List (BitVec 8))
  /-- beat of the last dump latch, plus 1 (R592) -/
  latchedAt : Nat
deriving DecidableEq, Repr

def TallyState.reset : TallyState :=
  { counters := [], last := [], shadows := [], dumpSeq := 0, dump := none, sampleWrite := 0, sampleRead := 0,
    samplers := [], opened := [], buffered := [], latchedAt := 0 }

/-! ### Weave ports (*Weave fabric and the global memory space*) -/

/-- A flit less its sequence number: header value and payload bytes (R300). -/
structure Piece where
  hdr : Nat
  payload : List Byte
deriving DecidableEq, Repr

/-- A sequenced flit kept until it is acknowledged (R301). -/
structure Replay where
  seq : Nat
  piece : Piece
  resends : Nat
  /-- the receiver named it missing -/
  wanted : Bool
deriving DecidableEq, Repr

/-- A request in an output port's queue: class, virtual channel, its flits not yet sent, and the input
queue it still arrives from (R310). -/
structure OutReq where
  cls : Nat
  vc : Nat
  source : Option Nat
  pieces : List Piece
  closed : Bool
deriving DecidableEq, Repr

/-- One Weave port: link layer, queues and arbiter. -/
structure Link where
  txSeq : Nat
  rxSeq : Nat
  replay : List Replay
  /-- flits ahead of the expected SEQ: SEQ and the 256 bytes -/
  reorder : List (Nat × List Byte)
  naks : List Nat
  /-- flits freed of each receive queue, modulo 65,536 -/
  freed : Sparse Nat
  /-- flits sent to each queue of the neighbour, and the count it freed, modulo 65,536 -/
  sent : Sparse Nat
  peerFreed : Sparse Nat
  out : List OutReq
  wrrClass : Nat
  wrrLeft : Nat
  sinceLink : Nat
  /-- the port went DOWN or FAILED since it was last UP: it waits for a matched neighbour (R303) -/
  lost : Bool
  /-- its training is done, and it waits in TRAINING for R304 to hold -/
  trained : Bool
  /-- 0x0401 stands recorded for the neighbour that does not match (R304) -/
  told : Bool
  /-- requests for this device that still arrive: key queue -/
  partials : Sparse (List Byte)
  /-- flits that left the port, oldest first -/
  wire : List (List Byte)
deriving DecidableEq, Repr

def Link.reset : Link :=
  { txSeq := 0, rxSeq := 0, replay := [], reorder := [], naks := [], freed := [], sent := [],
    peerFreed := [], out := [], wrrClass := 0, wrrLeft := 0, sinceLink := 0, lost := false, trained := false, told := false, partials := [], wire := [] }

/-- What a request of this device is for. -/
inductive Purpose where
  /-- a write request of a descriptor, with the position it began at and its address in 64-bit form -/
  | shuttle (index pos addr : Nat)
  /-- a read of a descriptor: byte address in global form and position -/
  | fetch (index pos addr : Nat)
  /-- a mirror put of part b -/
  | mirror (part : Nat)
  /-- a put of a snapshot drain of part b -/
  | snapshot (part : Nat)
  /-- a put of a REMIRROR of part b -/
  | remirror (part : Nat)
  /-- an adoption or restore read: part and area -/
  | restore (part area : Nat)
deriving DecidableEq, Repr

/-- A request of this device not yet completed (R311, R316). -/
structure Pend where
  shuttle : Nat
  num : Nat
  cls : Nat
  purpose : Purpose
  /-- Weave clock when its first flit left, moved on by time spent HELD -/
  sentAt : Option Nat
  /-- the measuring clock at that moment (R588) -/
  leftAt : Nat
deriving DecidableEq, Repr

/-- A multicast request whose completions are being combined (R329). -/
structure Combine where
  group : Nat
  reqId : Nat
  root : Nat
  /-- ports from which no completion has come -/
  waiting : List Nat
  /-- statuses by port plus 1; the own delivery is key 0 -/
  statuses : Sparse Nat
deriving DecidableEq, Repr

/-- A reduce request sent and not yet completed, oldest first (R347, R348). -/
structure ReduceWait where
  target : Nat
  node : Nat
  round : Nat
  step : Nat
  data : Bool
deriving DecidableEq, Repr

/-- A round whose DATA this device has sent and whose CLOSE or VOID is still to go (R348). -/
structure RoundSend where
  node : Nat
  round : Nat
  step : Nat
  left : Nat
  failed : Bool
  on : Nat
  fold : Nat
  replay : Bool
  /-- SENT_BEAT of a replayed CLOSE -/
  beat : Option Nat
deriving DecidableEq, Repr

/-- A message of classes 0–2 for this device that waits while it is STOWED or in L1 (R475, R488). -/
inductive HeldMsg where
  /-- a flit in its receive queue: arrival port, header and payload -/
  | flit (port hdr : Nat) (payload : List Byte)
  /-- PUT, GET_REQ or ATOMIC, by its type code -/
  | req (type : Nat) (r : ReqF)
  | rsp (src reqId : Nat) (data : List Byte)
  | mcast (port : Option Nat) (group : Nat) (r : ReqF)
  /-- 0 DATA, 1 CLOSE, 2 VOID, with first and blocks, or ON and FOLD -/
  | reduce (kind : Nat) (f : ReduceF) (a b : Nat) (data : List Byte)
deriving DecidableEq, Repr

/-- An AT_DEST post of a descriptor that made no request to carry it (R237, R243): the device or the multicast group it is
for, and its TOKEN word. -/
structure FarPost where
  group : Bool
  dest : Nat
  token : Nat
deriving DecidableEq, Repr

/-- The Weave state beside its ports. -/
structure WeaveState where
  ports : Sparse Link
  /-- the Loom map: 128-bit entries (R317) -/
  loom : Sparse Nat
  pends : List Pend
  combines : List Combine
  /-- messages held while STOWED or in L1, oldest first (R313, R475) -/
  held : List HeldMsg
  sends : List RoundSend
  waits : List ReduceWait
  /-- reduce requests that wait for resume, oldest first: target and payload (R369) -/
  outHeld : List (Nat × List Byte)
  /-- AT_DEST posts that left with no request, oldest first -/
  farPosts : List FarPost
deriving DecidableEq, Repr

def WeaveState.reset : WeaveState := ⟨[], [], [], [], [], [], [], [], []⟩

/-! ### Shuttles (*Shuttle layout engine*) -/

/-- A run of destination bytes of one descriptor not yet issued: address in 64-bit form, bytes, and the
traversal position of the first. -/
structure WriteRun where
  addr : Nat
  bytes : List Byte
  pos : Nat
  /-- the descriptor's last request: an AT_DEST token rides on it (R237) -/
  last : Bool
deriving DecidableEq, Repr

/-- A descriptor in flight (R236). -/
structure DescRun where
  index : Nat
  step : Nat
  order : Nat
  raw : List Byte
  /-- next traversal position, and how many there are -/
  pos : Nat
  total : Nat
  /-- it has issued its last request -/
  issued : Bool
  /-- requests not yet completed -/
  open_ : Nat
  failed : Bool
  /-- stream credits still to take before the first request (R324) -/
  need : Nat
  run : Option WriteRun
  /-- runs that are whole and wait until the Shuttle may issue a request (R311) -/
  queued : List WriteRun
  /-- bytes of which only some bits have been written, by address in 64-bit form: value, and 256 times the mask -/
  parts : Sparse Nat
  /-- an AT_DEST token has left with a request -/
  rode : Bool
  /-- remote source bytes received: address in 64-bit form and bytes -/
  fetched : List (Nat × List Byte)
  asked : Bool
  /-- exact values and bit patterns of the open MX or gradient block, in order of arrival -/
  block : Sparse (List Nat)
  /-- control-window writes that take effect at completion (R162) -/
  staged : List (Nat × List Byte)
  /-- space, lowest and highest destination byte (R253); none where the descriptor can write nothing -/
  extent : Option (Nat × Int × Int)
  /-- a stash claim of this descriptor is held -/
  claiming : Bool
deriving DecidableEq, Repr

/-- One Shuttle (R233, R234). -/
structure Shuttle where
  base : Nat
  prologue : Nat
  body : Nat
  period : Nat
  /-- 0 idle, 1 waiting on a start condition, 2 running, 3 waiting for a step start -/
  phase : Nat
  step : Nat
  /-- next descriptor index, and how many of the present run of descriptors are not started -/
  next : Nat
  left : Nat
  /-- the prologue is what runs -/
  opening : Bool
  inFlight : List DescRun
  completed : Nat
  /-- Loom entries cached, most recent first (R256) -/
  cache : List Nat
deriving DecidableEq, Repr

def Shuttle.reset : Shuttle :=
  { base := 0, prologue := 0, body := 0, period := 1, phase := 0, step := 0, next := 0, left := 0,
    opening := false, inFlight := [], completed := 0, cache := [] }

/-! ### Collectives (*Collectives, deadlines and late contributions*) -/

/-- A child's contribution to a node's open round (R350). -/
structure ChildTerm where
  slot : Nat
  /-- 0 open, 1 closed, 2 void -/
  status : Nat
  /-- indices of the blocks received -/
  blocks : List Nat
  on : Nat
  fold : Nat
deriving DecidableEq, Repr

/-- A fold entry (R352): slot 32 is the node's own leaf. What was staged of a child that a close leaves out has the
same fields. -/
structure FoldEntry where
  node : Nat
  round : Nat
  slot : Nat
  step : Nat
  blocks : List (Nat × List Byte)
  closed : Bool
  on : Nat
  fold : Nat
  /-- the contribution was discarded: what comes of it later is discarded with it -/
  lost : Bool
deriving DecidableEq, Repr

/-- The ON and FOLD masks of a round of one step, for the vote and the step record (R351). -/
structure StepMask where
  step : Nat
  on : Nat
  fold : Nat
deriving DecidableEq, Repr

/-- A VOTE_UP this device sent: its step and bytes, the shard fingerprint in it, and when (R363, R370). -/
structure SentVote where
  step : Nat
  bytes : List Byte
  shard : Nat
  /-- the device withheld for the step -/
  withheld : Bool
  at_ : Nat
deriving DecidableEq, Repr

/-- One round of one node record. -/
structure RoundState where
  node : Nat
  round : Nat
  /-- expected step -/
  expected : Nat
  /-- own term: 0 open, 1 closed, 2 void -/
  own : Nat
  terms : List ChildTerm
  /-- measuring clock of the first term of the round, for histogram 4 (R588) -/
  firstAt : Option Nat
  /-- masks of the last closes, newest first -/
  masks : List StepMask
deriving DecidableEq, Repr

/-- A round this device closed or voided towards its parent, kept for replay (R370). -/
structure SentRound where
  node : Nat
  round : Nat
  step : Nat
  kind : Nat
  blocks : List (Nat × Nat)
  on : Nat
  fold : Nat
  beat : Nat
deriving DecidableEq, Repr

/-- A fingerprint set (R358). -/
structure FpSet where
  tag : Nat
  refs : List Nat
  copies : List Nat
  seen : Nat
  failed : Bool
  checked : Bool
  passed : Bool
  /-- step in which it was opened, and whether a seal was written to copy 0 -/
  opened : Option Nat
  sealed0 : Bool
deriving DecidableEq, Repr

def FpSet.reset : FpSet := ⟨0, [0, 0, 0, 0], [0, 0, 0, 0], 0, false, false, false, none, false⟩

/-- The collective unit. -/
structure CollState where
  rounds : List RoundState
  folds : List FoldEntry
  /-- blocks staged of children that the last close of their round left out -/
  leftovers : List FoldEntry
  sent : List SentRound
  fpSets : Sparse FpSet
  receiving : Option Nat
  /-- LEAF_CLOSE writes held for an unchecked set: node and round -/
  heldCloses : List (Nat × Nat)
  lastFpFail : Option Nat
  /-- VOTE_UPs of children for the step: device and message -/
  ups : List (Nat × List Byte)
  /-- step this device votes next, and the messages it sent whose VOTE_DOWN has not been applied -/
  voteStep : Nat
  upsSent : List SentVote
  deadlineSeen : Bool
  /-- steps whose VOTE_DOWN has been applied are below this -/
  downStep : Nat
  /-- a VOTE_DOWN that arrived during HOLD -/
  heldDown : Option (List Byte)
  /-- overflow outcomes of R344 that no VOTE_UP has carried -/
  overflow : Bool
  /-- loss scale of each step in flight: key step -/
  scales : Sparse Nat
  ownVoid : Bool
  /-- withhold again under R356, without step 1 of R355 -/
  quietVoid : Bool
deriving DecidableEq, Repr

def CollState.reset : CollState :=
  { rounds := [], folds := [], leftovers := [], sent := [], fpSets := [], receiving := none, heldCloses := [],
    lastFpFail := none, ups := [], voteStep := 0, upsSent := [],
    deadlineSeen := false, downStep := 0, heldDown := none, overflow := false, scales := [],
    ownVoid := false, quietVoid := false }

/-! ### Burnishers (*Burnisher optimiser update*) -/

/-- A run that a VOTE_DOWN called for, or that an adoption redoes (R383, R420). -/
structure BurnMark where
  step : Nat
  skip : Bool
  freeze : Bool
  /-- the part's START condition applies -/
  needStart : Bool
  /-- it waits for the rounds of its step to close (a rebuilt gradient) -/
  needRounds : Bool
  /-- the gradient area that an adoption read and that this run starts from, plus 1; 0 for none (R420) -/
  grad : Nat
deriving DecidableEq, Repr

/-- A put a Burnisher has still to issue: address in 64-bit form, bytes, its chunk's SEQ, and what it is for:
0 mirror, 1 snapshot, 2 remirror. -/
structure MirrorPut where
  addr : Nat
  bytes : List Byte
  seq : Nat
  kind : Nat
deriving DecidableEq, Repr

structure Burnisher where
  marked : List BurnMark
  run : Option BurnMark
  /-- 0x0727 was recorded for the run that waits -/
  waited : Bool
  toSend : List MirrorPut
  /-- puts of each chunk not yet completed: SEQ and count -/
  puts : List (Nat × Nat)
  heldDone : Bool
  /-- the state block as it stood when the FREEZE run started (R410) -/
  frozenBlock : List Byte
  /-- 0 none, 1 commanded, 2 its puts are queued (R423) -/
  remirroring : Nat
deriving DecidableEq, Repr

def Burnisher.reset : Burnisher := ⟨[], none, false, [], [], false, [], 0⟩

/-! ### Resilience (*Snapshots, mirrors and hot spares*) -/

/-- A drain in progress (R409): generation, snapshot step, parts whose frozen buffer is ready, parts issued. -/
structure Drain where
  gen : Nat
  step : Nat
  ready : Nat
  issued : Nat
  parts : Nat
  /-- LS_n, and LS_CLEAN_STEPS at the start of step n (R410) -/
  scale : Nat
  clean : Nat
  /-- the header with COMPLETE = 0 and the witness rows are written -/
  headed : Bool
  /-- the header with COMPLETE = 1 is on its way to the buddy -/
  closing : Bool
deriving DecidableEq, Repr

structure ResilState where
  adoptPending : Bool
  /-- Weave clock at which a MIRROR_HELLO went out unanswered -/
  helloAt : Option Nat
  helloOk : Bool
  due : Bool
  drain : Option Drain
  witnessRows : List Byte
  witnessValid : Bool
  /-- host memory writes of the PCIe endpoint: address and bytes, oldest first -/
  hostOut : List (Nat × List Byte)
  /-- bytes an adoption has read: part, offset in the mirror area, bytes -/
  reads : List (Nat × Nat × List Byte)
  readFailed : List Nat
  /-- reads of an adoption still to issue: part, offset in the mirror area, bytes -/
  toRead : List (Nat × Nat × Nat)
  /-- LS_CLEAN_STEPS at the start of recent steps (R410) -/
  cleanAt : Sparse Nat
  /-- VOTE_REPLY: u, u_prev, v -/
  voted : Option (Nat × Nat × Nat)
  restored : Option Nat
  /-- WITNESS was accepted; the run is in progress, from a logical beat -/
  armed : Bool
  witnessFrom : Option Nat
deriving DecidableEq, Repr

def ResilState.reset : ResilState :=
  { adoptPending := false, helloAt := none, helloOk := false, due := false, drain := none, witnessRows := [],
    witnessValid := false, hostOut := [], reads := [], readFailed := [], toRead := [], cleanAt := [], voted := none, restored := none,
    armed := false, witnessFrom := none }

/-! ### The bonded stack (*The bonded stack: coupling, clocks and regulation*) -/

/-- A LEAF_CLOSE that waits for coupling frames to pass (R440). -/
structure CloseHold where
  tree : Nat
  round : Nat
  step : Nat
deriving DecidableEq, Repr

/-- A request of an island Shuttle that the Felt holds until its frames pass (R440). -/
structure FeltHold where
  island : Nat
  type : Nat
  cls : Nat
  tag : Nat
  dest : Nat
  late : Bool
  payload : List Byte
deriving DecidableEq, Repr

structure StackState where
  /-- groups with a failed frame whose re-send is still to come (R438) -/
  failing : List Nat
  /-- failed frames of each group since the last beat pause, and groups that failed one in the step (R441) -/
  failedSince : Sparse Nat
  failedStep : List Nat
  heldCloses : List CloseHold
  feltHeld : List FeltHold
  /-- an island re-tunes in step recovery (R447) -/
  retune : List Nat
  skippedPauses : Nat
  /-- consecutive low-margin readings of each bank group (R452) -/
  lowMargin : Sparse Nat
  /-- spare chosen for each retiring bank group, plus 1, and whether its copy is complete (R453) -/
  retiring : Sparse Nat
  copied : List Nat
  /-- physical group, plus 1, that serves a place of the Felt other than its own: key place 32 r + g (R453) -/
  bgMap : Sparse Nat
  /-- delay steps applied since the last tuning of each island, hub 16 (R447) -/
  applied : Sparse Int
  /-- what the tests of the pause in progress find, until the pause ends (R214, R448) -/
  tuning : Option TuneF
  /-- steps of the 0x0230 faults (R457) -/
  lossSteps : List Nat
  /-- frames of each group since its last tuning; SEQ is the count modulo 128 (R435) -/
  frames : Sparse Nat
  /-- NAK_SEQ, plus 1, that the next check word of a group carries (R437, R438) -/
  nakSend : Sparse Nat
  /-- frame, plus 1, that a received NAK asks of the sender of a group -/
  nakGot : Sparse Nat
  /-- frames in which the lane pattern of a FREE spare showed errors, and groups to be tested for it (R441) -/
  patternFails : Sparse (List Nat)
  spareDue : List Nat
deriving DecidableEq, Repr

def StackState.reset : StackState :=
  { failing := [], failedSince := [], failedStep := [], heldCloses := [], feltHeld := [], retune := [],
    skippedPauses := 0, lowMargin := [], retiring := [], copied := [], bgMap := [], applied := [], tuning := none, lossSteps := [],
    frames := [], nakSend := [], nakGot := [], patternFails := [], spareDue := [] }

/-! ### Start-up, flash and configuration image (*From power to release*) -/

/-- What Keeper holds of the start: the flash and its two image slots, the image in use, the rails, and the
JTAG instruction register. -/
structure BootState where
  /-- VSTBY is good: while it is not, nothing of the device runs (R613) -/
  vstby : Bool
  /-- POWER_ZONE_ID[7:0] as last sampled (R617) -/
  strap : Nat
  /-- the configuration flash; an erased byte reads 0xFF -/
  flash : Sparse (BitVec 8)
  flashAnswers : Bool
  flashKib : Nat
  /-- 0x01 1S-1S-1S, 0x02 8D-8D-8D, and its clock in MHz ÷ 5 (R557, R579) -/
  flashMode : Nat
  flashClock : Nat
  /-- slot in use: 0 A, 1 B -/
  slot : Option Nat
  keySlot : Nat
  imageRollback : Nat
  /-- Keeper's copy of the applied records: entry, value, REAPPLY_ON_WARM (R563) -/
  records : List (Nat × Nat × Bool)
  /-- bit k: 0x0906 was recorded for outside domain 56 + k since the last start (R578) -/
  railLate : Nat
  /-- instruction in force at the JTAG port (R568) -/
  jtag : JtagI
  /-- the ROM check and the fuse blocks were good -/
  trimmed : Bool
  /-- Weave clock at the start of the present start-up, from which BOOT_TIMES counts -/
  startedAt : Nat
  /-- REFCLK carried its clock when VSTBY became good (R618) -/
  refclk : Bool
deriving DecidableEq, Repr

def BootState.reset : BootState :=
  { vstby := true, strap := 0, flash := [], flashAnswers := true, flashKib := 65536, flashMode := 2, flashClock := 40,
    slot := none, keySlot := 0xFF, imageRollback := 0, records := [], railLate := 0, jtag := .bypass, trimmed := false, startedAt := 0, refclk := true }

/-! ### Power, holds, resets (*Power events, resets and low-power states*) -/

/-- One entry of the hold table (R464): active while it stands here. -/
structure HoldEnt where
  origin : Nat
  seq : Nat
  freeze : Nat
  /-- RESUME_AT of its RELEASE -/
  resume : Option Nat
deriving DecidableEq, Repr

/-- The architectural state records of a stow image (R286): what is not a copy of SRAM bytes. -/
structure StowSave where
  panels : Sparse Panel
  islands : Sparse Island
  shuttles : Sparse Shuttle
  wide : WideState
  flags : FlagState
  poison : Sparse Bool
  /-- the structures of R270 and the address tables: address and bytes -/
  window : Sparse (BitVec 8)
deriving DecidableEq, Repr

/-- A COMPLETION flit as it arrived (R313). -/
structure CompIn where
  port : Nat
  src : Nat
  reqId : Nat
  status : Nat
  group : Nat
deriving DecidableEq, Repr

structure PowerState where
  /-- the stack (Felt and Tree) is powered and out of reset -/
  stackUp : Bool
  holds : List HoldEnt
  /-- HOLD_SEQ of this device's last hold -/
  ownSeq : Nat
  /-- hold causes in force, by the codes of R466 -/
  causes : List Nat
  /-- flooded messages already seen: SUBTYPE, ORIGIN, HOLD_SEQ (R467) -/
  seen : List (Nat × Nat × Nat)
  /-- Weave clock since which an entry has been active without a break -/
  since : Option Nat
  /-- how long beat counting was frozen before, and since when it is now (R588) -/
  frozenSum : Nat
  frozenAt : Option Nat
  limit : Bool
  /-- raw boundaries not to observe after the hold (R469) -/
  skip : Nat
  /-- latest RESUME_AT of the entries that ended while counting was frozen (R469) -/
  lastResume : Nat
  /-- state that BRACE or STOW returns to -/
  before : Nat
  /-- STOW has started and waits for the raw boundary (R473) -/
  stowing : Bool
  /-- the stow was commanded, and RESUME has been given (R532) -/
  commanded : Bool
  resumeGiven : Bool
  saved : Option StowSave
  /-- neighbours whose HOLD_REPLY is awaited (R478) -/
  awaiting : List Nat
  /-- the Selvage copy of PATTERN_DIGEST (R487) -/
  digest : Nat
  /-- completions logged while STOWED, oldest first (R475) -/
  completions : List CompIn
  /-- step 4 of warm resume is at work: what was held is applied (R477) -/
  serving : Bool
  /-- Weave clock of the entry to L1, while it lasts (R488) -/
  gatedAt : Option Nat
  /-- READY has been entered since the start, and holds the READY pin (R570) -/
  readyPin : Bool
  /-- RESET_N is asserted, and a cold reset waits for its release (R616) -/
  resetHeld : Bool
  perst : Bool
  /-- the PCIe endpoint serves BAR0 (R569) -/
  endpoint : Bool
  thermTrip : Bool
  pwrWarn : Bool
  /-- 0x0907 was recorded since the entry to CONFIGURED -/
  late : Bool
  firstReady : Bool
deriving DecidableEq, Repr

def PowerState.reset : PowerState :=
  { stackUp := false, holds := [], ownSeq := 0, causes := [], seen := [], since := none, frozenSum := 0, frozenAt := none, limit := false, skip := 0,
    lastResume := 0, before := 4, stowing := false, commanded := false, resumeGiven := false, saved := none,
    awaiting := [], digest := 0, completions := [], serving := false, gatedAt := none, readyPin := false, resetHeld := false, perst := true,
    endpoint := false, thermTrip := false, pwrWarn := false, late := false, firstReady := false }

/-! ### Fuses and the whole -/

/-- What fuses fix (R1, R441, R453, R552, R567). ROLLBACK_ADVANCE and KEY_REVOKE burn two of them; nothing
clears one. The values are not in the spec (DESIGN CHOICE, log 2). -/
structure Fuses where
  /-- 1 F24, 2 C24 (R1, R223) -/
  grade : Nat
  dieStepping : Nat
  serial : Nat
  eui64 : Nat
  rollback : Nat
  /-- bit k: key slot k revoked -/
  revoked : Nat
  debugLock : Bool
  /-- hashes of slots 0 and 1, 96 bytes -/
  keyHash : Nat
  deviceKey : List (BitVec 8)
  bgClass : Nat
  couplingRepair : Nat
  /-- spare accumulator rows and spare bank groups the repair fuses leave, as the entries show them (R86, R292) -/
  accSpares : Nat
  bgSpares : Nat
deriving DecidableEq, Repr

def Fuses.dflt : Fuses :=
  { grade := 1, dieStepping := 0, serial := 0, eui64 := 0, rollback := 0, revoked := 0, debugLock := true,
    keyHash := 0, deviceKey := [], bgClass := 0, couplingRepair := 0
    accSpares := leNat (List.replicate 128 32#8), bgSpares := leNat (List.replicate 16 2#8) }

/-- The device, less its fuses and its command queue. -/
structure Dev where
  /-- every byte of the local address map, key local address; an unlisted byte reads 0x00 (R265, R271, R280) -/
  mem : Sparse (BitVec 8)
  /-- poison, lost blocks and scrub state -/
  tier : MemTier
  /-- sticky flag sets -/
  flags : FlagState
  /-- the 128 panels; an unlisted panel is as after panel reset -/
  panels : Sparse Panel
  /-- the 16 compute islands; an unlisted island is as after reset -/
  islands : Sparse Island
  /-- wide-buffer windows and stash claims -/
  wide : WideState
  /-- the loaded Pattern -/
  pat : Pattern
  /-- late mode and step bookkeeping -/
  contract : ContractState
  /-- dictionary, fault log, mailbox, Bridle port -/
  tack : TackState
  /-- the time unit -/
  time : TimeState
  /-- counters, histograms, dumps and samples -/
  tally : TallyState
  /-- Weave ports, Loom map, requests -/
  weave : WeaveState
  /-- the 28 Shuttles -/
  shuttles : Sparse Shuttle
  /-- descriptors started so far, over all Shuttles -/
  descOrder : Nat
  /-- the collective unit -/
  coll : CollState
  /-- power events, HOLD, resets and low-power states -/
  power : PowerState
  /-- the 8 Burnishers -/
  burn : Sparse Burnisher
  /-- adoption, snapshots, witness runs -/
  resil : ResilState
  /-- coupling, bank groups, domains -/
  stack : StackState
  /-- start-up, flash, configuration image and JTAG -/
  boot : BootState
deriving DecidableEq, Repr

/-- The device after power-on reset, before its start-up has done anything. -/
def Dev.reset : Dev :=
  { mem := [],
    tier := MemTier.reset,
    flags := FlagState.reset,
    panels := [],
    islands := [],
    wide := WideState.reset,
    pat := Pattern.none,
    contract := ContractState.reset,
    tack := TackState.reset,
    time := TimeState.reset,
    tally := TallyState.reset,
    weave := WeaveState.reset,
    shuttles := [],
    descOrder := 0,
    coll := CollState.reset,
    power := PowerState.reset,
    burn := [],
    resil := ResilState.reset,
    stack := StackState.reset,
    boot := BootState.reset }

/-- The whole state: the device, its fuses, and the commands that wait, first in, first out. -/
structure State where
  dev : Dev
  fuses : Fuses
  pending : List Instr
deriving DecidableEq, Repr

/-- The machine right after reset: no command waits. -/
def State.reset : State := { dev := Dev.reset, fuses := Fuses.dflt, pending := [] }

/-- Why a step can stop with a fault. No meaning of this model answers one: the spec's own faults are
records in the fault log, and the device goes on (R546). -/
inductive Fault where
  /-- Raised by no meaning: the spec gives every command an effect. It keeps the type inhabited. Safe. -/
  | deviceStopped
deriving DecidableEq, Repr

/-- Why a step can be refused. -/
inductive Refusal where
  /-- Raised only by an arm of exec whose command has no meaning yet. Safe: nothing is claimed of it. -/
  | notModelled (mnemonic : String)
deriving DecidableEq, Repr

end Sys2Proof.Machine
end

