-- ==== Sys2Proof/Machine/Ops.lean ====
section
/-!
DEFINITION. The shared operations: dictionary entries, the fault log, device states, sticky flags, late
mode and contract faults, tokens, and plain memory. Every meaning acts through them.
-/
namespace Sys2Proof.Machine
open Sys2Proof

/-! ### Records of units -/

def Dev.panel (d : Dev) (p : Nat) : Panel := sget Panel.reset d.panels p
def Dev.setPanel (d : Dev) (p : Nat) (x : Panel) : Dev := { d with panels := sset Panel.reset d.panels p x }
def Dev.modPanel (d : Dev) (p : Nat) (f : Panel → Panel) : Dev := d.setPanel p (f (d.panel p))
def Dev.island (d : Dev) (i : Nat) : Island := sget Island.reset d.islands i
def Dev.setIsland (d : Dev) (i : Nat) (x : Island) : Dev := { d with islands := sset Island.reset d.islands i x }
def Dev.modIsland (d : Dev) (i : Nat) (f : Island → Island) : Dev := d.setIsland i (f (d.island i))

/-- Panel p belongs to island p div 8 (R48). -/
def islandOf (p : Nat) : Nat := p / 8

/-! ### Dictionary entries (R515–R519) -/

/-- The value of an entry. -/
def Dev.get (d : Dev) (k : Nat) : Nat := sget (entDefault k) d.tack.store k

/-- An entry's whole value replaced (R519); the value fits the entry's size. -/
def Dev.put (d : Dev) (k v : Nat) : Dev :=
  { d with tack := { d.tack with store := sset (entDefault k) d.tack.store k (v % 2 ^ (8 * entSize k)) } }

/-- Bytes of an entry. -/
def Dev.getB (d : Dev) (k off len : Nat) : Nat := getBytes (d.get k) off len

/-- Bytes of an entry replaced. -/
def Dev.putB (d : Dev) (k off len v : Nat) : Dev := d.put k (putBytes (d.get k) off len v)

/-- A counter within an entry, saturating at its largest value. -/
def Dev.bump (d : Dev) (k off len n : Nat) : Dev :=
  d.putB k off len (satAdd (2 ^ (8 * len) - 1) (d.getB k off len) n)

/-! ### Device states (R531) -/

namespace St
def sealed : Nat := 1
def trimmed : Nat := 2
def configured : Nat := 3
def ready : Nat := 4
def loaded : Nat := 5
def running : Nat := 6
def held : Nat := 7
def braced : Nat := 8
def stowed : Nat := 9
def spare : Nat := 10
def adopting : Nat := 11
def faulted : Nat := 12
def retired : Nat := 13
def standby : Nat := 14
end St

/-- 0x1010:00 DEVICE_STATE. -/
def Dev.devState (d : Dev) : Nat := d.get Ent.deviceState

/-- The device is in one of these states. -/
def Dev.inState (d : Dev) (ss : List Nat) : Bool := ss.contains d.devState

/-- The clocks of the stack run: it is powered and not gated by L1 (R446, R488). -/
def Dev.clocked (d : Dev) : Bool := d.power.stackUp && d.get Ent.lpState != 1

/-- Beat counting is frozen: an active hold has FREEZE_BEAT at or before the next beat (R465). -/
def Dev.frozen (d : Dev) : Bool := d.power.holds.any fun h => decide (h.freeze ≤ d.get Ent.logicalBeat + 1)

/-- STOW is past its copy of the image: nothing of the stack, the Billets or the Shuttles moves (R473). -/
def Dev.asleep (d : Dev) : Bool := d.devState == St.stowed && !d.power.stackUp

/-- Messages of classes 0–2 for this device wait (R475, R488). -/
def Dev.holdsMsgs (d : Dev) : Bool := (d.devState == St.stowed && !d.power.serving) || d.get Ent.lpState == 1

def Dev.holdMsg (d : Dev) (m : HeldMsg) : Dev := { d with weave := { d.weave with held := d.weave.held ++ [m] } }

/-! ### Weave time as stored (R494) -/

/-- Units of 2⁻¹⁶ ns in one second. -/
def clockSecond : Nat := 1000000000 * 65536

def Dev.seconds (d : Dev) : Nat := d.time.clock / clockSecond

/-- The 96-bit value of a total. -/
def timeWord (clock : Nat) : Nat :=
  (clock / clockSecond % 2 ^ 48) <<< 48 + (clock % clockSecond)

/-- The total of a stored 96-bit value. -/
def timeTotal (w : Nat) : Nat := (w >>> 48) % 2 ^ 48 * clockSecond + w % 2 ^ 46

def Dev.timeNow (d : Dev) : Nat := timeWord d.time.clock

/-! ### The measuring clock (R588) -/

/-- How long beat counting has been frozen. -/
def Dev.frozenTime (d : Dev) : Nat :=
  d.power.frozenSum + (match d.power.frozenAt with | some t => d.time.clock - t | none => 0)

/-- The clock that latencies are measured on: it stands while beat counting is frozen. -/
def Dev.measured (d : Dev) : Nat := d.time.clock - d.frozenTime

/-- A freeze begins or ends, with the command at which it shows (R588; DEDUCED, log 117). -/
def Dev.noteFreeze (d : Dev) : Dev :=
  match d.frozen, d.power.frozenAt with
  | true, none => { d with power := { d.power with frozenAt := some d.time.clock } }
  | false, some t => { d with power := { d.power with frozenAt := none, frozenSum := d.power.frozenSum + (d.time.clock - t) } }
  | _, _ => d

/-! ### Host events, MSI-X and Bridle event frames (R536, R538, R542) -/

/-- A byte of the MSI-X table; every vector is masked after reset, as PCIe has it (PRESUMED, log 3). -/
def Dev.msixByte (d : Dev) (i : Nat) : Byte := sget (if i % 16 = 12 then 1#8 else 0#8) d.tack.msixTable i

/-- Signal an MSI-X vector: a masked one becomes pending. -/
def Dev.msix (d : Dev) (v : Nat) : Dev :=
  if (d.msixByte (16 * v + 12)).toNat % 2 = 1 then
    { d with tack := { d.tack with msixPba := setBit d.tack.msixPba v true } }
  else { d with tack := { d.tack with msixSent := d.tack.msixSent ++ [v] } }

/-- Raise host event b: its cause bit and, when enabled, its vector. -/
def Dev.hostEvent (d : Dev) (b : Nat) : Dev :=
  let d := { d with tack := { d.tack with eventCause := setBit d.tack.eventCause b true } }
  if bitOf d.tack.eventEnable b then d.msix b else d

/-- The management key, and whether it is set (R540). -/
def Dev.mgmtKey (d : Dev) : List Byte := leBytes 32 (d.get Ent.mgmtKey)
def Dev.keySet (d : Dev) : Bool := decide (d.get Ent.mgmtKey ≠ 0)

/-- A Bridle frame: header, messages and, with AUTH, its tag (R539). -/
def Dev.bridleFrame (d : Dev) (kind count counter session : Nat) (auth : Bool) (msgs : List Byte) : List Byte :=
  let body := leBytes 2 0x4B54 ++ leBytes 1 1 ++ leBytes 1 kind ++ leBytes 1 (bitNat auth) ++ leBytes 1 count
    ++ leBytes 2 msgs.length ++ leBytes 8 session ++ leBytes 8 counter ++ leBytes 8 0 ++ msgs
  if auth then body ++ (hmacSha256 d.mgmtKey body).take 16 else body

/-- An event frame (R542): at most 100 leave per second, EVENT_SEQ advances for every event. -/
def Dev.bridleEvent (d : Dev) (kind code seq : Nat) : Dev :=
  if bitOf (d.get Ent.bridleEventDest) 144 then
    let es := d.tack.eventSeq + 1
    let inSec := if d.tack.eventSecond = d.seconds then d.tack.eventsInSecond else 0
    let d := { d with tack := { d.tack with eventSeq := es, eventSecond := d.seconds, eventsInSecond := inSec + 1 } }
    if 100 ≤ inSec then d
    else
      let msg := leBytes 1 4 ++ leBytes 1 kind ++ leBytes 1 d.devState ++ leBytes 1 (d.get Ent.owner)
        ++ leBytes 2 code ++ leBytes 2 0 ++ leBytes 4 seq ++ leBytes 4 es
      { d with tack := { d.tack with
          bridleOut := d.tack.bridleOut ++ [d.bridleFrame 3 1 es (d.get Ent.session) d.keySet msg] } }
  else d

/-- The end of the Felt's local addresses (R265). -/
def feltTop : Nat := 0x80000000

/-! ### Tally counters (R581–R588) -/

/-- A counter or bin advances, and wraps (R582). -/
def Dev.count (d : Dev) (num n : Nat) : Dev :=
  { d with tally := { d.tally with counters := sset 0 d.tally.counters num ((sget 0 d.tally.counters num + n) % 2 ^ 64) } }

/-- One programmable counter sees n of its event in each of len cycles from a cycle on (R583). -/
def Dev.countSel (d : Dev) (i c mode n from_ len : Nat) : Dev :=
  let k := 16 * i + c
  let last := sget 0 d.tally.last k
  let add := if mode = 0 then n * len
    else if mode = 1 then (if last = from_ + 1 then len - 1 else len)
    else if last = from_ || last = from_ + 1 then 0 else 1
  let d := { d with tally := { d.tally with last := sset 0 d.tally.last k (from_ + len) } }
  d.count (64 * i + c) add

/-- An event of island i, and of one of its panels where it is a panel event, n per cycle for len cycles. -/
def Dev.eventSpan (d : Dev) (i : Nat) (panel : Option Nat) (code n from_ len : Nat) : Dev :=
  if d.get Ent.tallySelect = 0 || n = 0 || len = 0 then d
  else (upTo 16).foldl (fun d c =>
    let w := d.getB Ent.tallySelect (4 * (16 * i + c)) 4
    let hit := bitOf w 31 && fieldOf w 9 0 == code &&
      (match panel with | some p => bitOf w (21 + p % 8) | none => true)
    if hit then d.countSel i c (fieldOf w 30 29) n from_ len else d) d

/-- A panel event in the island's present cycle (R584). -/
def Dev.ev (d : Dev) (p code n : Nat) : Dev :=
  d.eventSpan (islandOf p) (some p) code n (d.island (islandOf p)).cycle 1

/-- An island event in its present cycle. -/
def Dev.evI (d : Dev) (i code n : Nat) : Dev := d.eventSpan i none code n (d.island i).cycle 1

/-- A histogram bin for a latency in whole nanoseconds (R587, R588). -/
def Dev.hist (d : Dev) (h t : Nat) : Dev := d.count (0x800 + 32 * h + (if t < 2 then 0 else min (Nat.log2 t) 31)) 1

/-- Felt line accesses of an island's panels and row engine (R197, R585). -/
def Dev.feltLines (d : Dev) (i a n : Nat) : Dev :=
  if a < feltTop && n ≠ 0 then d.count (64 * i + 23) ((a + n - 1) / 256 + 1 - a / 256) else d

/-! ### Source units (R546) -/

namespace Unit
def island (i : Nat) : Nat := 0x80 + i
def hub : Nat := 0x90
def shuttle (n : Nat) : Nat := 0x91 + n
def billet (b : Nat) : Nat := 0xB0 + b
def selvage (s : Nat) : Nat := 0xC0 + s
def port (i : Nat) : Nat := 0xC8 + i
def girth : Nat := 0xD0
def felt : Nat := 0xD1
def keeper : Nat := 0xE0
def pcie : Nat := 0xE1
def bridle : Nat := 0xE2
def loader : Nat := 0xE3
def device : Nat := 0xFF
end Unit

/-! ### The fault log (R545–R548, R637) -/

/-- The current fault step (R637). -/
def Dev.faultStep (d : Dev) : Nat := d.get Ent.faultStep

/-- A fault enters the log: folded into the newest record, or as a new record (R546). -/
def Dev.fault (d : Dev) (code unit detail : Nat) : Dev :=
  let cls := code / 256
  let d := d.bump Ent.faultClassCounts (4 * (cls - 1)) 4 1
  let d := if bitOf (d.get Ent.faultNMask) cls then
      { d with tack := { d.tack with faultNLatched := true } } else d
  let fresh : FaultRec :=
    { seq := d.tack.newest + 1, code := code, unit := unit, rep := 0,
      step := if d.pat.loaded then d.get Ent.stepCounter else 0,
      beat := d.get Ent.logicalBeat, time := d.timeNow, detail := detail, faultStep := d.faultStep }
  let enter (d : Dev) : Dev :=
    let d := { d with tack := { d.tack with
      faults := (fresh :: d.tack.faults).take 1024, newest := fresh.seq, newestRec := some fresh } }
    ((d.hostEvent 1).bridleEvent 1 code fresh.seq).count 0x409 1
  match d.tack.faults with
  | r :: rs =>
    if r.code = code ∧ r.unit = unit ∧ r.faultStep = d.faultStep then
      let r' := { r with rep := satAdd 255 r.rep 1 }
      { d with tack := { d.tack with faults := r' :: rs, newestRec := some r' } }
    else enter d
  | [] => enter d

/-- A fault that its rule logs once per step (R546, R637). -/
def Dev.faultOnce (d : Dev) (code unit detail : Nat) : Dev :=
  let k := code * 256 + unit
  if sget 0 d.tack.oncePerStep k = d.faultStep + 1 then d
  else
    ({ d with tack := { d.tack with oncePerStep := sset 0 d.tack.oncePerStep k (d.faultStep + 1) } }).fault
      code unit detail

/-- Every transition is written to STATE_HISTORY and raises STATE (R531); FAULTED and RETIRED idle the
ports (R415). -/
def Dev.enterState (d : Dev) (to_ code : Nat) : Dev :=
  let from_ := d.devState
  if from_ = to_ then d
  else
  let rec_ := d.timeNow + from_ <<< 96 + to_ <<< 104 + code <<< 112
  let d := d.put Ent.stateHistory (rec_ + d.get Ent.stateHistory <<< 128)
  let d := d.put Ent.deviceState to_
  let d := if to_ = St.faulted || to_ = St.retired then d.put Ent.portEnable 0 else d
  (d.hostEvent 2).bridleEvent 2 0 0

/-- A fault whose outcome is FAULTED. -/
def Dev.faultEnter (d : Dev) (code unit detail : Nat) : Dev :=
  (d.fault code unit detail).enterState St.faulted code

/-- FAULT_N (R548). -/
def Dev.faultN (d : Dev) : Bool := d.devState == St.faulted || d.tack.faultNLatched

/-- The READY pin: asserted at the first entry to READY of a start, and not in FAULTED, RETIRED or STANDBY (R570). -/
def Dev.readyOut (d : Dev) : Bool := d.power.readyPin && !d.inState [St.faulted, St.retired, St.standby]

/-! ### Steps and step tags (R210, R163) -/

def Dev.step (d : Dev) : Nat := d.get Ent.stepCounter

/-- The step of a slot: the step counter less the slot's lag (R210). -/
def Dev.slotStep (d : Dev) (slot : Nat) : Nat := d.step - sget 0 d.pat.lags slot

/-- The step tag of a slot (R163, R210). -/
def Dev.stepTag (d : Dev) (slot : Nat) : Nat :=
  (d.step + 256 - sget 0 d.pat.lags slot) % 256

/-- The loss scale of a step, as kept for the steps in flight (R366). -/
def Dev.scaleOf (d : Dev) (step : Nat) : Nat := sget (d.get Ent.lossScale) d.coll.scales step

/-! ### Sticky flags (R41–R44) -/

namespace FlagUnit
def panel (p : Nat) : Nat := p
def rowEngine (i : Nat) : Nat := 128 + i
def region (r : Nat) : Nat := 144 + r
def shuttle (n : Nat) : Nat := 160 + n
end FlagUnit

/-- The vote of the step of a tag has captured its flag sets: the tag is that of the last captured step or of one
before it (R42, tags modulo 256). -/
def Dev.votedTag (d : Dev) (tag : Nat) : Bool :=
  match d.contract.captured with
  | some n => decide ((n + 256 - tag % 256) % 256 < 128)
  | none => false

/-- Events of a unit in the set of a step tag; after the vote has captured the set they go to
STICKY_LAST with 0x0544 (R42). -/
def Dev.raise (d : Dev) (unit tag : Nat) (f : Flags) : Dev :=
  if f.toByte = 0 then d
  else if d.votedTag tag then
    let d := d.putB Ent.stickyLast unit 1 (d.getB Ent.stickyLast unit 1 ||| f.toByte)
    d.fault 0x0544 Unit.device unit
  else
    let k := tag % 4 * 188 + unit
    { d with flags := { d.flags with sets := sset 0 d.flags.sets k (sget 0 d.flags.sets k ||| f.toByte) } }

/-- One unit's flags in one set. -/
def Dev.flagByte (d : Dev) (set unit : Nat) : Nat := sget 0 d.flags.sets (set * 188 + unit)

/-- A whole set as the STICKY blob of R43. -/
def Dev.flagBlob (d : Dev) (set : Nat) : Nat :=
  leNat ((upTo 188).map fun u => BitVec.ofNat 8 (d.flagByte set u))

/-! ### Late mode and withholding (R80, R216–R222) -/

def Dev.lateMode (d : Dev) : Bool := bitOf (d.get Ent.lateStatus) 0
def Dev.withheld (d : Dev) : Bool := bitOf (d.get Ent.lateStatus) 1

/-- The step in which late mode is entered is kept (R220). -/
def Dev.markLate (d : Dev) : Dev :=
  if d.lateMode then d else { d with contract := { d.contract with lateStep := d.step } }

def Dev.enterLate (d : Dev) : Dev := d.markLate.put Ent.lateStatus (setBit (d.get Ent.lateStatus) 0 true)

/-- The contribution is withheld for the step, and the device enters late mode (R80 step 2, R219). -/
def Dev.withhold (d : Dev) : Dev :=
  d.markLate.put Ent.lateStatus (setBit (setBit (d.get Ent.lateStatus) 0 true) 1 true)

/-- The class of a run-time contract fault (R216). -/
def contractClass (code : Nat) : Nat :=
  if code = 0x0510 || code = 0x0583 then 0
  else if code = 0x0520 then 1
  else if code = 0x0572 then 2
  else 3

/-- Faults that halt their panel whatever response is configured (R216). -/
def alwaysHalts (code : Nat) : Bool := code = 0x0557 || code = 0x0580 || code = 0x0581

/-- Who a contract fault belongs to (R217). -/
inductive Culprit where
  | panel (p : Nat)
  | island (i : Nat)
  | offTree
deriving DecidableEq, Repr

/-- Panels that the halt-panel response stops at their next bundle boundary. -/
def Culprit.panels : Culprit → List Nat
  | .panel p => [p]
  | .island i => (upTo 8).map fun k => 8 * i + k
  | .offTree => []

/-- A run-time contract fault raised in an island is one of its events (R584). -/
def Culprit.counted (w : Culprit) (d : Dev) : Dev :=
  match w with
  | .panel p => d.evI (islandOf p) 0x039 1
  | .island i => d.evI i 0x039 1
  | .offTree => d

def Dev.haltPanels (d : Dev) (ps : List Nat) : Dev :=
  ps.foldl (fun d p => d.modPanel p fun x => { x with haltAtBoundary := true, haltedByFault := true }) d

/-- A contract fault: counted, logged and answered by its class (R216–R219). -/
def Dev.contractFault (d : Dev) (code unit detail : Nat) (who : Culprit) (beatWait : Bool := false) : Dev :=
  let cls := contractClass code
  let d := d.bump Ent.contractFaultCount (4 * cls) 4 1
  let d := who.counted (d.count 0x407 1)
  if d.lateMode && ((code = 0x0510 && beatWait) || code = 0x0583) then d
  else
    let d := d.fault code unit detail
    let resp := if alwaysHalts code then 1 else fieldOf (d.get Ent.contractResponse) (2 * cls + 1) (2 * cls)
    if resp = 1 then
      match who with
      | .offTree => d.enterLate
      | _ => (d.haltPanels who.panels).withhold
    else if resp = 2 then d.enterLate
    else d

/-- A tile-table misuse of a panel's own operation. -/
def Dev.misuse (d : Dev) (code p : Nat) : Dev := d.contractFault code p 0 (.panel p)

/-! ### Token counters (R180, R181, R633) -/

/-- The value of a token counter. -/
def Dev.tokens (d : Dev) (i ctr : Nat) : Nat := sget 0 (d.island i).tokens ctr

/-- Tokens added; a counter stops at 0xFFFF with 0x0584. poster is the panel that posted, or none for a
post no panel made (R217). -/
def Dev.addTokens (d : Dev) (i ctr amount : Nat) (poster : Option Nat) : Dev :=
  let v := d.tokens i ctr + amount
  let d := (d.modIsland i fun x => { x with tokens := sset 0 x.tokens ctr (min v 0xFFFF) }).evI i 0x038 1
  if 0xFFFF < v then
    match poster with
    | some p => d.contractFault 0x0584 p ctr (.panel p)
    | none => d.contractFault 0x0584 (Unit.island i) ctr (.island i)
  else d

/-- A post to another island, or by an off-Tree unit, on its way (R203, R204). -/
def Dev.sendToken (d : Dev) (offTree : Bool) (i ctr amount : Nat) (poster : Option Nat) : Dev :=
  let t : Transit := ⟨offTree, i, ctr, amount, match poster with | some p => p + 1 | none => 0⟩
  { d with contract := { d.contract with transit := d.contract.transit ++ [t] } }

/-! ### The local address map (R76, R265) -/

/-- What a local address names. -/
inductive Region where
  | felt | scratch (p : Nat) | acc (p : Nat) | side (i : Nat) | bundle (p : Nat)
  | control | near (n : Nat) | deep (m : Nat) | hole
deriving DecidableEq, Repr

def scratchBase (p : Nat) : Nat := 0x100000000 + p * 0x100000
def accBase (p : Nat) : Nat := 0x108000000 + p * 0x80000
def sideBase (i : Nat) : Nat := 0x10C000000 + i * 0x200000
def bundleBase (p : Nat) : Nat := 0x10E000000 + p * 0x40000
def addrTableBase (p : Nat) : Nat := 0x200900000 + p * 0x800
def wideTableBase (r : Nat) : Nat := 0x200800000 + r * 0x4000
def stashBase : Nat := 0x200840000
def nearBase (n : Nat) : Nat := 0x4000000000 + n * 0x1000000000
def deepBase (m : Nat) : Nat := 0x14000000000 + m * 0x1000000000
def feltSize : Nat := 0x80000000
def nearSize : Nat := 0x900000000
def stowOffset : Nat := 0x8F6000000

/-- The status of stack i, near stacks first (R292). -/
def Dev.stackStatus (d : Dev) (i : Nat) : Nat := d.getB Ent.stackStatus i 1

/-- The region of a local address; a stack that is not ready is a hole (R265), and so is a fenced bank group
of 4 MiB (R196, R454). -/
def Dev.region (d : Dev) (a : Nat) : Region :=
  if a < feltSize then (if bitOf (d.get Ent.feltBgFenced) (a / 0x400000) then .hole else .felt)
  else if a < 0x100000000 then .hole
  else if a < 0x108000000 then .scratch ((a - 0x100000000) / 0x100000)
  else if a < 0x10C000000 then .acc ((a - 0x108000000) / 0x80000)
  else if a < 0x10E000000 then .side ((a - 0x10C000000) / 0x200000)
  else if a < 0x110000000 then .bundle ((a - 0x10E000000) / 0x40000)
  else if a < 0x200000000 then .hole
  else if a < 0x201000000 then .control
  else if a < 0x4000000000 then .hole
  else if a < 0x14000000000 then
    let n := (a - 0x4000000000) / 0x1000000000
    if (a - 0x4000000000) % 0x1000000000 < nearSize && d.stackStatus n == 1 then .near n else .hole
  else if a < 0x1C000000000 then
    let m := (a - 0x14000000000) / 0x1000000000
    if d.stackStatus (16 + m) == 1 then .deep m else .hole
  else .hole

/-- An address in the stow area (R285). -/
def inStow (a : Nat) : Bool :=
  decide (0x4000000000 ≤ a) && decide (a < 0x14000000000) &&
    decide (stowOffset ≤ (a - 0x4000000000) % 0x1000000000) &&
    decide ((a - 0x4000000000) % 0x1000000000 < nearSize)

/-! ### Plain memory -/

def Dev.byte (d : Dev) (a : Nat) : Byte := sget 0#8 d.mem a

/-- n bytes from an address. -/
def Dev.read (d : Dev) (a : Nat) : Nat → List Byte
  | 0 => []
  | n + 1 => d.byte a :: d.read (a + 1) n

/-- A number of n little-endian bytes. -/
def Dev.readNat (d : Dev) (a n : Nat) : Nat := leNat (d.read a n)

/-- The canonical form of a memory: addresses strictly rising, no byte listed that an unlisted address reads. -/
def Memory.wf (m : Sparse Byte) : Bool := swf 0#8 m

/-- Bytes written into a memory, keeping its canonical form. -/
def memWrite (m : Sparse Byte) (a : Nat) : List Byte → Sparse Byte
  | [] => m
  | b :: bs => memWrite (sset 0#8 m a b) (a + 1) bs

/-- Poison left after a write of [a, a + n): a word wholly covered is clean again (R272). -/
def clearPoison (t : MemTier) (a n : Nat) : MemTier :=
  { t with
    poisonWords := sclear t.poisonWords (ceilDiv a 8) ((a + n) / 8)
    lostBlocks := sclear t.lostBlocks (ceilDiv a 256) ((a + n) / 256) }

/-- Bytes stored at an address. -/
def Dev.write (d : Dev) (a : Nat) (bs : List Byte) : Dev :=
  { d with mem := memWrite d.mem a bs, tier := clearPoison d.tier a bs.length }

def Dev.writeNat (d : Dev) (a n v : Nat) : Dev := d.write a (leBytes n v)

/-- A range set to zero. -/
def Dev.zeroRange (d : Dev) (a n : Nat) : Dev :=
  { d with mem := sclear d.mem a (a + n), tier := clearPoison d.tier a n }

/-! ### Poison (R272, R273) -/

/-- The poisoned words in [a, a + n). -/
def Dev.poisonIn (d : Dev) (a n : Nat) : List Nat :=
  ((srange d.tier.poisonWords (a / 8) (ceilDiv (a + n) 8)).filter fun p => p.2).map Prod.fst

/-- An address enters POISON_LOG (R292). -/
def Dev.poisonLog (d : Dev) (addr : Nat) : Dev :=
  let old := d.get Ent.poisonLog
  let total := satAdd (2 ^ 64 - 1) (getBytes old 0 8) 1
  d.put Ent.poisonLog (total + addr <<< 64 + (getBytes old 8 504) <<< 128)

/-- Spare groups of a region that no retirement has taken yet. -/
def Dev.sparesFree (d : Dev) (r : Nat) : Nat :=
  d.getB Ent.feltBgSpares r 1 - (d.stack.retiring.filter fun e => e.1 / 32 == r).length

/-- The bank group at a place of the Felt, 32 r + g, starts to retire: a spare of its region is chosen (R453),
or the region is exhausted (R454). -/
def Dev.beginRetire (d : Dev) (place : Nat) : Dev :=
  let r := place / 32
  if sget 0 d.stack.retiring place != 0 then d
  else if d.sparesFree r = 0 then
    let d := d.fault 0x0209 Unit.felt place
    (d.put Ent.feltBgFenced (setBit (d.get Ent.feltBgFenced) place true)).enterState St.faulted 0x0209
  else { d with stack := { d.stack with retiring := sset 0 d.stack.retiring place (34 - d.sparesFree r + 1) } }

/-- An uncorrectable error in a bank group; the second within 1,000 steps retires the group (R274). -/
def Dev.groupError (d : Dev) (place : Nat) : Dev :=
  let last := sget 0 d.tier.groupError place
  let d := { d with tier := { d.tier with groupError := sset 0 d.tier.groupError place (d.faultStep + 1) } }
  if last != 0 && decide (d.faultStep + 1 ≤ last + 1000) then (d.fault 0x0303 Unit.felt place).beginRetire place else d

/-- A read corrects a single-bit error of the word at an address of the Felt (R272). -/
def Dev.feltCorrected (d : Dev) (a : Nat) : Dev := d.bump Ent.feltErrCount (8 * (a / 0x8000000)) 4 1

/-- A word is newly poisoned (R273 step 1, R274). -/
def Dev.poisonWord (d : Dev) (w : Nat) : Dev :=
  if sget false d.tier.poisonWords w then d
  else
    let d := { d with tier := { d.tier with poisonWords := sset false d.tier.poisonWords w true } }
    ((d.poisonLog (8 * w)).bump Ent.feltErrCount (8 * (8 * w / 0x8000000) + 4) 4 1).groupError (8 * w / 0x400000)

/-- 0x0301, once per word per fault step (R273). -/
def Dev.poisonFault (d : Dev) (w unit : Nat) : Dev :=
  if sget 0 d.tier.poisonLogged w = d.faultStep + 1 then d
  else
    ({ d with tier := { d.tier with poisonLogged := sset 0 d.tier.poisonLogged w (d.faultStep + 1) } }).fault
      0x0301 unit (8 * w)

/-- A panel, row engine or island Shuttle meets poisoned words: it receives the stored bits and the
device withholds (R273 step 2). -/
def Dev.meetPoison (d : Dev) (a n unit : Nat) : Dev :=
  match d.poisonIn a n with
  | [] => d
  | ws =>
    let d := ws.foldl (fun d w => d.poisonFault w unit) d
    ({ d with contract := { d.contract with poisonThisStep := true } }).withhold

/-- A free byte run for contents the spec leaves unspecified (log 7). -/
def Dev.freeBytes (d : Dev) (n : Nat) : Dev × List Byte :=
  ({ d with tack := { d.tack with freeCount := d.tack.freeCount + 1 } },
    (upTo n).map (Config.freeByte d.tack.freeCount))

/-- A free number (log 7). -/
def Dev.freeNat (d : Dev) (which : Nat) : Dev × Nat :=
  ({ d with tack := { d.tack with freeCount := d.tack.freeCount + 1 } },
    Config.freeNat which d.tack.freeCount)

/-! ### Masks -/

def Dev.fenced (d : Dev) (p : Nat) : Bool := bitOf (d.get Ent.panelFenced) p
def Dev.inMask (d : Dev) (p : Nat) : Bool := bitOf d.pat.panelMask p

/-- The panel's sequencer can issue: it is of the Pattern's mask and started, clocked, and not halted, frozen or
fenced (R49, R83, R189). -/
def Dev.canIssue (d : Dev) (p : Nat) : Bool :=
  decide (p < 128) && d.inMask p && (d.panel p).started && d.clocked && !(d.panel p).halted && !(d.panel p).frozen && !d.fenced p

/-- Tree–Felt crossings seen in the beat pause record 0x0522 (R214). -/
def Dev.crossing (d : Dev) (unit : Nat) : Dev :=
  if d.contract.inPause && !d.contract.pauseTraffic then
    ({ d with contract := { d.contract with pauseTraffic := true } }).fault 0x0522 unit 0
  else d

/-! ### Host memory (R569, R572) -/

/-- The PCIe endpoint writes host memory. -/
def Dev.hostWrite (d : Dev) (a : Nat) (bs : List Byte) : Dev :=
  ({ d with resil := { d.resil with hostOut := d.resil.hostOut ++ [(a, bs)] } }).count 0x548 bs.length

/-! ### Lifting to the whole state -/

/-- A change of the device that leaves the fuses and the queue alone. -/
def State.upd (s : State) (f : Dev → Dev) : State := { s with dev := f s.dev }

/-- A command whose effect is a change of the device: it always completes. -/
def lift (f : Dev → Dev) (s : State) : Host.Outcome State Fault Refusal := .next (s.upd f)

/-! ### Tally counters by number -/

/-- The TALLY_OPEN group of a counter number; reserved numbers have none (R581). -/
def tallyGroup (n : Nat) : Option Nat :=
  if n < 0x400 then (if n % 64 < 32 then some (n / 64) else none)
  else if n < 0x40A then some 16
  else if 0x440 ≤ n ∧ n < 0x540 then
    let j := (n - 0x440) % 32
    if j < 7 ∨ (16 ≤ j ∧ j < 22) then some (17 + (n - 0x440) / 32) else none
  else if 0x540 ≤ n ∧ n < 0x580 then (if (n - 0x540) % 32 < 10 then some (25 + (n - 0x540) / 32) else none)
  else if 0x580 ≤ n ∧ n < 0x600 then (if (n - 0x580) % 16 < 11 then some 27 else none)
  else if 0x800 ≤ n ∧ n < 0xAC0 then some 28
  else none

/-- A counter's value; a reserved number reads 0. -/
def Dev.counter (d : Dev) (n : Nat) : Nat := if (tallyGroup n).isSome then sget 0 d.tally.counters n else 0

end Sys2Proof.Machine
end

