-- ==== Sys2Proof/Machine/Operands.lean ====
section
/-!
DEFINITION. Operand forms of the panel operations: tile-table entries (R60–R63), weight and activation
rows (R53, R54), drained rows (R19, R39, R68), address-table entries (R160, R161).
-/
namespace Sys2Proof.Machine
open Sys2Proof

/-! ### Tile-table entries (R60) -/

/-- The fields of a tile-table entry. -/
structure Tile where
  valid : Bool
  mode : Nat
  base : Nat
  count : Nat
  sense : Nat
deriving DecidableEq, Repr

def Tile.ofWord (w : Nat) : Tile :=
  { valid := bitOf w 31, mode := fieldOf w 30 29, base := 16 * fieldOf w 28 21,
    count := 16 * (fieldOf w 20 13 + 1), sense := fieldOf w 12 12 }

/-- Logical rows (R60). -/
def Tile.logical (t : Tile) : Nat := if t.mode = 1 || t.mode = 2 then t.count / 2 else t.count

/-- Physical rows per logical row. -/
def Tile.per (t : Tile) : Nat := if t.mode = 1 || t.mode = 2 then 2 else 1

/-- The word is one that mm.tile refuses (R61). -/
def tileRefused (w : Nat) : Bool :=
  let t := Tile.ofWord w
  fieldOf w 11 0 != 0 || (t.sense == 1 && t.mode != 2) ||
    decide ((if t.mode = 3 then 256 * 16 else 128 * 16) < t.base + t.count)

def Dev.tile (d : Dev) (p e : Nat) : Tile := Tile.ofWord (sget 0 (d.panel p).tiles e)

/-- The first physical row of a tile as a panel sees it: in pair mode the halves take the place of the
tile's own rows (R73). drain selects the former fill half's content after the exchange. -/
def Dev.tileBase (d : Dev) (p : Nat) (t : Tile) : Nat :=
  if (d.panel p).pairMode && t.mode != 3 then (if (d.panel p).fillB then 1024 else 0) else t.base

/-- Where a physical row lies in memory (R60, R76). -/
def rowAddr (p mode row : Nat) : Nat :=
  if mode = 3 then scratchBase p + row * 256 else accBase p + row * 256

/-- The key of a row in the touch list. -/
def rowKey (mode row : Nat) : Nat := if mode = 3 then 8192 + row else row

/-- The 64 words of a row. -/
def rowWords (bs : List Byte) : List F32 := (upTo 64).map fun n => BitVec.ofNat 32 (leAt bs (4 * n) 4)

/-- The bytes of 64 words. -/
def wordBytes (ws : List F32) : List Byte := ws.flatMap fun w => leBytes 4 w.toNat

/-- What mm.zero writes to a physical row (R66). -/
def zeroRow (mode sense : Nat) (odd : Bool) : List Byte :=
  if mode = 2 then
    if odd then wordBytes (List.replicate 64 0x0000FFFF#32)
    else wordBytes (List.replicate 64 (if sense = 1 then f32Inf else f32NegInf))
  else List.replicate 256 0#8

/-! ### Operand combinations (R26, R27, R36, R37) -/

/-- K-positions of a row for a pair of operand types, none where R26 refuses the pair. -/
def kRow (w x : ElemType) : Option Nat :=
  if w == .fp32 || x == .fp32 then
    if (w == .fp32 || w.is16) && (x == .fp32 || x.is16) then some 96 else none
  else if w.is16 && x.is16 then some 96
  else if w.isMx && x.isMx then
    if w == .e2m1 && x == .e2m1 then some 384 else some 192
  else none

/-- K-positions of a packed tile or of a whole activation row of one type (R53, R54). -/
def kOfType (t : ElemType) : Nat := if t == .e2m1 then 384 else if t.isMx then 192 else 96

/-- Bytes of an activation row on its path (R54). -/
def actBytes (t : ElemType) : Nat :=
  kOfType t * t.bits / 8 + (if t.isMx then kOfType t / 32 else 0)

/-- Bytes of a packed weight tile (R53). -/
def tileBytes (t : ElemType) : Nat :=
  kOfType t * 64 * t.bits / 8 + (if t.isMx then kOfType t / 32 * 64 else 0)

/-- The code of a row whose operands the loader refuses, if any (R14, R26, R37, R88). FP32 outside strict mode needs a
split term on either side; R13 gives no code for one without, and the model takes that of R37 (DESIGN CHOICE, log 92). -/
def streamRefusal (strict : Bool) (wt wTerm xt xTerm : Nat) : Option Nat :=
  match ElemType.ofCode wt, ElemType.ofCode xt with
  | some w, some x =>
    if !w.operandOk || !x.operandOk then some 0x0540
    else if strict && (w.isMx || x.isMx) then some 0x0543
    else if (kRow w x).isNone then some 0x0541
    else if strict && xTerm != 0 then some 0x0543
    else if xTerm != 0 && x != .fp32 then some 0x0543
    else if !strict && ((x == .fp32 && xTerm == 0) || (w == .fp32 && wTerm == 0)) then some 0x0543
    else none
  | _, _ => some 0x0540

/-- The code that a stream's own fields meet, whatever weight tile it runs through (R14, R27, R37, R88). Under ARITH_MODE
a term is refused as with the STRICT bit (DESIGN CHOICE, log 92). -/
def streamFieldFault (add strict : Bool) (group typ term : Nat) : Option Nat :=
  match ElemType.ofCode typ with
  | none => some 0x0540
  | some x =>
    if !x.operandOk then some 0x0540
    else if add && (groupSize group).isNone then some 0x0542
    else if (strict && (x.isMx || term != 0)) || (term != 0 && x != .fp32) then some 0x0543
    else if !strict && x == .fp32 && term == 0 then some 0x0543
    else none

/-- The weight at K-position k of column n (R18, R34, R53). -/
def Latch.weight (l : Latch) (t : ElemType) (k n : Nat) : Num :=
  let bits := unpackBit t.bits (k * 64 + n) l.raw
  if t.isMx then
    let body := kOfType t * 64 * t.bits
    mxValue t ((l.raw >>> (body + 8 * (k / 32 * 64 + n))) % 256) bits
  else if t == .fp32 && l.term != 0 then Fmt.bf16.decode (splitTerm l.term (BitVec.ofNat 32 bits))
  else t.fmt.decode bits

/-- The first k values of an activation row (R34, R54). -/
def actValues (t : ElemType) (term k : Nat) (bs : List Byte) : List Num :=
  let raw := leNat bs
  if t.isMx then
    let body := kOfType t * t.bits
    (upTo k).map fun j => mxValue t ((raw >>> (body + 8 * (j / 32))) % 256) (unpackBit t.bits j raw)
  else
    (upTo k).map fun j =>
      let b := unpackBit t.bits j raw
      if t == .fp32 && term != 0 then Fmt.bf16.decode (splitTerm term (BitVec.ofNat 32 b)) else t.fmt.decode b

/-- beats(p, v) of R70. -/
def beats (sense : Nat) (p v : Num) : Bool := if sense = 1 then p.lt v else v.lt p

/-- One column of a MAX or MIN row (R70): value, index and events. -/
def winnerColumn (sense kBase : Nat) (st : F32 × Nat) (w x : List Num) : Fl (F32 × Nat) :=
  Fl.foldList (fun s kp =>
    Fl.bind (Fl.bind (kp.2.1.mul kp.2.2) f32Of) fun p =>
      if f32IsNan s.1 then Fl.pure s
      else if f32IsNan p || beats sense (f32Num p) (f32Num s.1) then
        Fl.pure (if f32IsNan p then f32Nan else p, kBase + kp.1)
      else Fl.pure s)
    st ((upTo w.length).zip (w.zip x))

/-! ### Drained rows (R19, R39, R67, R68) -/

/-- The value and type an accumulator element has before conversion. -/
def accNum (mode : Nat) (hi lo : F32) : Num := if mode = 1 then pairNum hi lo else f32Num hi

/-- One element converted to a non-MX drain type: its bits (R39, R68). -/
def drainElem (mode : Nat) (t : ElemType) (hi lo : F32) : Fl Nat :=
  match t with
  | .fp32 => if mode = 1 then convScalar .pair .fp32 (hi.toNat + lo.toNat <<< 32) else Fl.pure hi.toNat
  | .pair =>
    if mode = 1 then Fl.pure (hi.toNat + lo.toNat <<< 32)
    else convScalar .fp32 .pair hi.toNat
  | t => convTo t (accNum mode hi lo)

/-- The two blocks of a row converted to an MX type, formed from all 64 columns (R19). -/
def drainBlocks (mode : Nat) (t : ElemType) (hi lo : List F32) : Fl (List (Nat × List Nat)) :=
  Fl.mapList (fun b => toMxBlock t ((upTo 32).map fun j =>
    accNum mode (nth f32Zero hi (32 * b + j)) (nth f32Zero lo (32 * b + j)))) [0, 1]

/-- An output row in memory: length, value and mask of the bits written (R19, R67). -/
def drainPacked (mode : Nat) (t : ElemType) (cols : Nat) (hi lo : List F32) : Fl (Nat × Nat × Nat) :=
  if t.isMx then
    Fl.bind (drainBlocks mode t hi lo) fun blks =>
      let es := blks.flatMap Prod.snd
      let w := t.bits
      let body := packBits w es
      let nb := if 32 < cols then 2 else 1
      let scales := packBits 8 (blks.map Prod.fst)
      let v := body + scales <<< (64 * w)
      let m := (2 ^ (cols * w) - 1) + (2 ^ (8 * nb) - 1) <<< (64 * w)
      Fl.pure (8 * w + 2, v, m)
  else
    Fl.bind (Fl.mapList (fun n => drainElem mode t (nth f32Zero hi n) (nth f32Zero lo n)) (upTo cols)) fun es =>
      Fl.pure (cols * t.bits / 8, packBits t.bits es, 2 ^ (cols * t.bits) - 1)

/-- An output row as the FP32 lanes a vector register or the row engine receives (R19, R67, R115). -/
def drainLanes (mode : Nat) (t : ElemType) (hi lo : List F32) : Fl (List F32) :=
  if t.isMx then
    Fl.bind (drainBlocks mode t hi lo) fun blks =>
      Fl.mapList (fun x => f32Of x) (blks.flatMap fun b => b.2.map (mxValue t b.1))
  else
    Fl.mapList (fun n =>
      Fl.bind (drainElem mode t (nth f32Zero hi n) (nth f32Zero lo n)) fun b =>
        if t == .fp32 then Fl.pure (BitVec.ofNat 32 b)
        else Fl.bind (convScalar t .fp32 b) fun v => Fl.pure (BitVec.ofNat 32 v)) (upTo 64)

/-! ### Address-table entries (R160, R161) -/

/-- The fields of an address-table entry. -/
structure AddrEntry where
  valid : Bool
  scratch : Bool
  base : Nat
  pitch : Nat
  strides : List Int
deriving DecidableEq, Repr

def AddrEntry.ofWord (w : Nat) : AddrEntry :=
  { valid := bitOf w 255, scratch := bitOf w 254, base := fieldOf w 253 223, pitch := fieldOf w 222 199,
    strides := [signExt 32 (fieldOf w 102 71), signExt 32 (fieldOf w 134 103),
                signExt 32 (fieldOf w 166 135), signExt 32 (fieldOf w 198 167)] }

/-- The load-time refusal of an entry (R160). -/
def AddrEntry.refused (w : Nat) : Bool :=
  let e := AddrEntry.ofWord w
  fieldOf w 70 0 != 0 || e.base % 2 == 1 || e.pitch % 2 == 1 || e.strides.any (fun s => s % 2 != 0) ||
    (e.scratch && decide (0x100000 ≤ e.base))

def Dev.addrEntry (d : Dev) (p e : Nat) : AddrEntry :=
  AddrEntry.ofWord (d.readNat (addrTableBase p + e * 0x20) 32)

/-- The signed effective address of row 0 (R161). -/
def Dev.effAddr (d : Dev) (p : Nat) (e : AddrEntry) : Int :=
  (e.base : Int) + ((upTo 4).map fun l => nth 0 e.strides l * ((sget 0 (d.panel p).its l : Nat) : Int)).foldl (· + ·) 0

/-- A checked operand address: space, byte offset of row 0 within it, pitch. -/
structure Addr where
  scratch : Bool
  off : Nat
  pitch : Nat
deriving DecidableEq, Repr

/-- A row of an operand lies in a fenced bank group, which is a hole (R266, R454). -/
def Dev.feltHole (d : Dev) (o more pitch n : Nat) : Bool :=
  d.get Ent.feltBgFenced != 0 && (upTo (more + 1)).any fun r =>
    d.region (o + r * pitch) == .hole || d.region (o + r * pitch + n - 1) == .hole

/-- The address of entry e for rows rows of n bytes, its effective address aligned to align: none is fault 0x0585
(R161, R167). -/
def Dev.operandAddr (d : Dev) (p e rows n align : Nat) : Option Addr :=
  let t := d.addrEntry p e
  let a := d.effAddr p t
  let lim : Nat := if t.scratch then 0x100000 else feltSize
  if !t.valid || decide (a < 0) then none
  else
    let o := a.toNat
    if (!t.scratch && d.feltHole o (rows - 1) t.pitch n) || lim < o + (rows - 1) * t.pitch + n ||
        (align != 0 && o % align != 0) then none
    else some ⟨t.scratch, o, t.pitch⟩

/-- The local address of row r. -/
def Addr.row (a : Addr) (p r : Nat) : Nat :=
  (if a.scratch then scratchBase p else 0) + a.off + r * a.pitch

/-- The local address of the entry itself at a row, for one access at A + row × PITCH (R175, R188). -/
def Dev.rowOperand (d : Dev) (p e row n align : Nat) : Option (Bool × Nat) :=
  let t := d.addrEntry p e
  let a := d.effAddr p t + (row * t.pitch : Nat)
  let lim : Nat := if t.scratch then 0x100000 else feltSize
  if !t.valid || decide (a < 0) || decide (lim < a.toNat + n) || a.toNat % align != 0 ||
      (!t.scratch && d.feltHole a.toNat 0 0 n) then none
  else some (t.scratch, (if t.scratch then scratchBase p else 0) + a.toNat)

end Sys2Proof.Machine
end

