-- ==== Sys2Proof/Machine/Agenda.lean ====
section
/-!
DEFINITION. An island's time: what its cycles carry (*The schedule contract* › Level 1, R194–R202).
Each operation leaves items in the island's agenda, and advancing the island performs every item whose
cycle has come. A Felt read stands at its bank cycle u − 8 and a Felt write at v + 5 (R197); within a bank
cycle reads come first and writes follow in the order of R269.
-/
namespace Sys2Proof.Machine
open Sys2Proof

/-! ### Scheduling -/

/-- The item stands after every item of its cycle and rank. -/
def insertItem : List Item → Item → List Item
  | [], x => [x]
  | y :: ys, x =>
    if x.cycle < y.cycle || (x.cycle == y.cycle && x.rank < y.rank) then x :: y :: ys
    else y :: insertItem ys x

def Dev.schedule (d : Dev) (x : Item) (i : Nat) : Dev :=
  d.modIsland i fun isl => { isl with agenda := insertItem isl.agenda x }

/-- A panel's item. -/
def Dev.later (d : Dev) (p issue slot cycle rank : Nat) (w : Deferred) : Dev :=
  d.schedule ⟨cycle, rank, p, issue, slot, w⟩ (islandOf p)

/-- An effect of the operation that a panel issued in a slot is visible from cycle v: the open sample of that issue keeps
the last one (R597). -/
def Dev.noteEffect (d : Dev) (p issue slot v : Nat) : Dev :=
  if d.tally.opened.isEmpty then d
  else { d with tally := { d.tally with opened := d.tally.opened.map fun o =>
    if o.panel = p ∧ o.issue = issue then { o with last := o.last.modify slot fun t => t.map (max v) } else o } }

/-- The cycle from which what an item performed in cycle c leaves is visible: a Felt write has its bank cycle five later
than that (R197), and a cleared accumulator row takes updates from the next cycle (R66). None where the item only
leads to others. -/
def Deferred.visibleFrom (c : Nat) : Deferred → Option Nat
  | .vreg .. | .token .. | .reAccept _ | .stash .. | .reArrive .. => some c
  | .bits a .. => some (if a < feltSize then c - 5 else c)
  | .landRow _ r => some r.land
  | .zeroRows _ mode .. => some (if mode = 3 then c else c + 1)
  | _ => none

def Dev.noteItem (d : Dev) (t : Item) : Dev :=
  match t.work.visibleFrom t.cycle with
  | some v => d.noteEffect t.panel t.issue t.slot v
  | none => d

/-- Bytes with a mask: the bytes the mask touches, as runs written in order. -/
def maskedRuns (d : Dev) (a : Nat) (value mask : Nat) : Nat → List (Nat × Byte)
  | 0 => []
  | k + 1 =>
    let m := mask % 256
    let rest := maskedRuns d (a + 1) (value / 256) (mask / 256) k
    if m = 0 then rest
    else
      let old := (d.byte a).toNat
      (a, BitVec.ofNat 8 ((old &&& (255 - m)) + (value % 256 &&& m))) :: rest

/-- Consecutive bytes joined into runs. -/
def joinRuns : List (Nat × Byte) → List (Nat × List Byte)
  | [] => []
  | (a, b) :: rest =>
    match joinRuns rest with
    | (a', bs) :: rs => if a' = a + 1 then (a, b :: bs) :: rs else (a, [b]) :: (a', bs) :: rs
    | [] => [(a, [b])]

/-- The masked bits of len bytes replaced. -/
def Dev.writeBits (d : Dev) (a len value mask : Nat) : Dev :=
  (joinRuns (maskedRuns d a value mask len)).foldl (fun d r => d.write r.1 r.2) d

/-- A panel's write that is visible to reads issued from cycle v (R67, R75, R197). -/
def Dev.writeLater (d : Dev) (p issue slot a len value mask v : Nat) : Dev :=
  if a < feltSize then
    (((d.crossing p).feltLines (islandOf p) a len).ev p 0x00A len).later p issue slot (v + 5) (2 + p % 8)
      (.bits a len value mask)
  else d.later p issue slot v 0 (.bits a len value mask)

def allOnes (n : Nat) : Nat := 2 ^ (8 * n) - 1

/-! ### Ports (R65, R157) -/

/-- The port is claimed in some cycle of [first, last]. -/
def Panel.portBusy (x : Panel) (port : Port) (first last : Nat) : Bool :=
  x.claims.any fun c => c.port == port && decide (c.first ≤ last) && decide (first ≤ c.last)

def Panel.claim (x : Panel) (port : Port) (first last issue slot : Nat) : Panel :=
  { x with claims := ⟨port, first, last, issue, slot⟩ :: x.claims }

def Panel.addTouch (x : Panel) (t : Touch) : Panel := { x with touches := t :: x.touches }

/-- The cycle in which a touch reaches a row it covers. -/
def Touch.at (t : Touch) (row : Nat) : Nat := t.cycle + (row - t.row) / t.rate

def Touch.covers (t : Touch) (row : Nat) : Bool := decide (t.row ≤ row) && decide (row < t.row + t.count)

/-- Nothing older than the horizon can still meet an operation. -/
def Panel.prune (x : Panel) (now : Nat) : Panel :=
  { x with
    claims := x.claims.filter fun c => decide (now ≤ c.last + 64)
    touches := x.touches.filter fun t => decide (now ≤ t.cycle + t.count + 64) ||
      (t.kind == .read && x.streams.any fun s => decide (s.issue < t.issue))
    tileBusy := x.tileBusy.filter fun t => decide (now ≤ t.2)
    pendingOps := x.pendingOps.filter fun t => decide (now < t.2.1) }

/-- The last cycle of a claim whose end is not known yet. -/
def openEnd : Nat := 2 ^ 64

/-- The claim of the operation issued in slot M in a cycle ends. -/
def Panel.endClaim (x : Panel) (port : Port) (issue last : Nat) : Panel :=
  { x with claims := x.claims.map fun c =>
      if c.port = port ∧ c.issue = issue ∧ c.slot = 0 then { c with last := last } else c }

/-! ### The vertical input path (R54) -/

/-- Bytes an activation row takes in the cycle j after its entry cycle. -/
def rowPathBytes (t : Nat) (j : Nat) : Nat :=
  match ElemType.ofCode t with
  | some ty =>
    let n := actBytes ty
    if j = 0 then min 256 n else if j = 1 then n - min 256 n else 0
  | none => 0

/-- Path bytes of a run of rows at delivery cycle u. -/
def runPathBytes (first spacing rows typ u : Nat) : Nat :=
  if u < first then 0
  else
    let k := (u - first) / spacing
    if k < rows then rowPathBytes typ ((u - first) % spacing)
    else if k = rows && spacing = 1 then 0 else 0

/-- Path bytes taken by a panel's own Felt streams and the rows it leads, at delivery cycle u. -/
def Dev.streamBytes (d : Dev) (p u : Nat) : Nat :=
  let own := (d.panel p).streams.map fun s =>
    if s.src = 0 then runPathBytes (s.issue + 14) s.spacing s.rows s.typ u else 0
  let led := (d.island (islandOf p)).bcasts.map fun b =>
    if b.lead = p then runPathBytes (b.issue + 14) b.spacing b.rows b.typ u else 0
  own.foldl (· + ·) 0 + led.foldl (· + ·) 0

/-- The place of byte pos in a list of runs, and how many bytes follow it in its run and line. -/
def runAt : List (Nat × Nat) → Nat → Nat × Nat
  | [], _ => (0, 0)
  | (a, n) :: rs, pos =>
    if pos < n then (a + pos, min (n - pos) (256 - (a + pos) % 256)) else runAt rs (pos - n)

/-- Lines read by a unit of island i until need bytes are held; each line is read whole in the cycle of its first
byte. -/
def Dev.fetchLines (d : Dev) (i unit : Nat) (src : List (Nat × Nat)) (need : Nat) : Nat → List Byte → Dev × List Byte
  | 0, got => (d, got)
  | k + 1, got =>
    if need ≤ got.length then (d, got)
    else
      let r := runAt src got.length
      if r.2 = 0 then (d, got)
      else
        let d' := if r.1 < feltSize then ((d.meetPoison r.1 r.2 unit).crossing unit).feltLines i r.1 r.2 else d
        d'.fetchLines i unit src need k (got ++ d.read r.1 r.2)

/-- Lines read for a panel. -/
def Dev.fetchTo (d : Dev) (p : Nat) (src : List (Nat × Nat)) (need fuel : Nat) (got : List Byte) : Dev × List Byte :=
  d.fetchLines (islandOf p) p src need fuel got

/-- Source runs of a move or turn. -/
def MoveJob.runs (j : MoveJob) : List (Nat × Nat) :=
  (upTo j.rows).map fun r => (j.src + r * j.srcPitch, j.rowBytes)

/-- Output row t of a transposed 96 × 64 block: element t of stored row k is element k of output row t. -/
def turnRowBytes (es : Nat) (got : List Byte) (row : Nat) : List Byte :=
  (upTo 96).flatMap fun k => (got.drop ((k * 64 + row) * es)).take es

/-- A turn-buffer half becomes free from a cycle on (R128). -/
def Panel.freeHalf (x : Panel) (h : Option Nat) (from_ : Nat) : Panel :=
  match h with
  | some 0 => { x with half0 := from_ }
  | some _ => { x with half1 := from_ }
  | none => x

/-- What a finished delivery of a move does (R127, R178). -/
def Dev.moveDelivered (d : Dev) (p : Nat) (j : MoveJob) (u : Nat) (oldRows : Nat) : Dev :=
  if j.turn then
    if j.left = 0 then
      (d.modPanel p fun x => x.freeHalf j.half (u + 69)).later p j.issue 2 (u + 5) 0 (.turnRow p j.issue 0)
    else d
  else
    let done := (j.rows * j.rowBytes - j.left) / j.rowBytes
    ((upTo (done - oldRows)).map (· + oldRows)).foldl
      (fun d r => d.later p j.issue 2 (u + 1) 0 (.moveRow p j.issue r)) d

/-- Bytes given to the moves of a panel, oldest first; an x.move takes at most one of its rows in a cycle (R178). -/
def Dev.feedMoves (d : Dev) (p u : Nat) : List MoveJob → Nat → Dev
  | [], _ => d
  | j :: js, avail =>
    if j.left = 0 || j.srcScratch || u < j.issue + 14 || avail = 0 then d.feedMoves p u js avail
    else
      let total := j.rows * j.rowBytes
      let inRow := if j.turn then j.left else j.rowBytes - (total - j.left) % j.rowBytes
      let n := min avail (min j.left inRow)
      let r := d.fetchTo p j.runs (total - j.left + n) 300 j.got
      let r := if j.late && j.got.isEmpty then r.1.freeBytes r.2.length else r
      let j' := { j with left := j.left - n, got := r.2 }
      let d := r.1.modPanel p fun x =>
        { x with moves := x.moves.map fun m => if m.issue = j.issue then j' else m }
      let d := (d.moveDelivered p j' u ((total - j.left) / j.rowBytes)).ev p 0x009 n
      d.feedMoves p u js (avail - n)

/-- The restored rows whose last byte has come are written in the next cycle; after the last one the clear port is
free (R65, R69). -/
def Dev.restoreRows (d : Dev) (p : Nat) (j : LoadJob) (old now u : Nat) : Dev :=
  let d := ((upTo (now / 256 - old / 256)).map (· + old / 256)).foldl (fun d k =>
    let v := leNat ((j.got.drop (256 * k)).take 256)
    let row := nth 0 j.rows k
    (d.modPanel p fun x => x.addTouch ⟨.restore, row, 1, 1, u + 1, j.issue⟩).later p j.issue 0 (u + 1) 0
      (.bits (accBase p + 256 * row) 256 v (allOnes 256))) d
  if now < j.total then d else d.modPanel p fun x => x.endClaim .clear j.issue (u + 1)

/-- One delivery cycle u of a panel's input path (R54): the load first, then the moves. A scratch load does not use
the path: its own start may fall in a cycle whose moves are fed, and then only the load is served. -/
def Dev.pathCycle (d : Dev) (p b : Nat) : Dev :=
  let x := d.panel p
  let u := b + 8
  let free := 256 - min 256 (d.streamBytes p u)
  let r : Dev × Nat :=
    match x.load with
    | none => (d, free)
    | some j =>
      let isScr := j.kind == .scratch
      if j.left = 0 || (isScr && b < j.issue) || (!isScr && u < j.issue + 14) then (d, free)
      else
        let n := min (if isScr then 256 else free) j.left
        let f := d.fetchTo p j.src (j.total - j.left + n) 300 j.got
        let f := if j.late && j.got.isEmpty then f.1.freeBytes f.2.length else f
        let j' := { j with left := j.left - n, got := f.2,
                           lastByte := if j.left = n then some (if isScr then b + 4 else u) else none }
        let d := f.1.modPanel p fun x =>
          let x := { x with load := some j' }
          if j.left = n && j.kind == .turn then x.freeHalf j.half (u + 6) else x
        let d := if j.kind == .acc then d.restoreRows p j' (j.total - j.left) (j.total - j'.left) u else d
        (if isScr then d else d.ev p 0x009 n, if isScr then free else free - n)
  let ran := (r.1.island (islandOf p)).agenda.any fun t => t.work == .pathCycle p && t.cycle == b + 1
  let d := if ran then r.1 else r.1.feedMoves p u (r.1.panel p).moves r.2
  let x := d.panel p
  let more := (match x.load with | some j => decide (j.left ≠ 0) | none => false) ||
    x.moves.any fun j => decide (j.left ≠ 0) && !j.srcScratch
  if more && !ran then d.later p 0 0 (b + 1) 0 (.pathCycle p) else d

/-- The path of a panel is running from some cycle on. -/
def Dev.startPath (d : Dev) (p b : Nat) : Dev :=
  if (d.island (islandOf p)).agenda.any (fun x => x.work == .pathCycle p && decide (x.cycle ≤ b)) then d
  else d.later p 0 0 b 0 (.pathCycle p)

/-! ### Weight loads complete (R52–R55, R126) -/

/-- The cycle in which a load is complete, once its last byte is known. -/
def LoadJob.doneAt (j : LoadJob) : Option Nat :=
  match j.lastByte with
  | none => none
  | some u => some (match j.kind with
    | .turn => u + 5
    | .plain => u + 1
    | .scratch => u + 1
    | .acc => u + 1)

/-- The tile a transposed load writes: element (k′, n′) from stored row n′, element k′ (R126). -/
def turnTile (es : Nat) (got : List Byte) : List Byte :=
  (upTo 96).flatMap fun k => (upTo 64).flatMap fun n => (got.drop ((n * 96 + k) * es)).take es

/-- A load whose completion cycle has come leaves its slot and fills the shadow latches. -/
def Dev.finishLoad (d : Dev) (p c : Nat) : Dev :=
  let x := d.panel p
  match x.load with
  | none => d
  | some j =>
    match j.doneAt with
    | none => d
    | some t =>
      if c < t then d
      else
        let es := match ElemType.ofCode j.typ with | some ty => ty.bits / 8 | none => 1
        let latch : Latch := match j.kind with
          | .acc => x.shadow
          | .turn => ⟨j.typ, j.term, leNat (turnTile es j.got)⟩
          | .plain => ⟨j.typ, j.term, leNat j.got⟩
          | .scratch => ⟨j.typ, j.term, leNat j.got⟩
        (((d.setPanel p { x with load := none, shadow := latch }).ev p 0x007 1).count
          (64 * islandOf p + 22) 1).noteEffect p j.issue 0 t

/-! ### Rows read for streams and broadcasts -/

/-- How many bytes of a row come with its first path cycle: whole lines from the row's address. -/
def firstPart (addr n : Nat) : Nat :=
  if n ≤ 256 then n else min n (256 - addr % 256 + 256 * ((255 + addr % 256) / 256))

/-- The activation row's bytes of one part joined to what was fetched. -/
def addFetched (fs : List (Nat × List Byte)) (row : Nat) (bs : List Byte) : List (Nat × List Byte) :=
  match fs with
  | [] => [(row, bs)]
  | (r, old) :: rest => if r = row then (r, old ++ bs) :: rest else (r, old) :: addFetched rest row bs

def actLen (typ : Nat) : Nat := match ElemType.ofCode typ with | some t => actBytes t | none => 0

/-- Part of a stream row read in its bank cycle (R197) or from scratch. -/
def Dev.streamRead (d : Dev) (p issue row part b : Nat) : Dev :=
  match (d.panel p).streams.find? fun s => s.issue == issue with
  | none => d
  | some s =>
    let n := actLen s.typ
    let a := s.addr + row * s.pitch
    let k := if s.src = 0 then firstPart a n else n
    let off := if part = 0 then 0 else k
    let len := if part = 0 then k else n - k
    let d := if s.src = 0 then
        (((d.meetPoison (a + off) len p).crossing p).feltLines (islandOf p) (a + off) len).ev p 0x009 len else d
    let bs := d.read (a + off) len
    let d := d.modPanel p fun x => { x with streams := x.streams.map fun t =>
      if t.issue = issue then { t with fetched := addFetched t.fetched row bs } else t }
    let d := if part = 0 && k < n then d.later p issue 0 (b + 1) 0 (.streamRead p issue row 1) else d
    if part = 0 && row + 1 < s.rows then d.later p issue 0 (b + s.spacing) 0 (.streamRead p issue (row + 1) 0)
    else d

/-- The lead that drives a channel at a row's cycle loses to a lower-numbered lead (R58). -/
def Dev.bcastLoses (d : Dev) (i : Nat) (b : BcastJob) (row : Nat) : Bool :=
  (d.island i).bcasts.any fun o => o.ch == b.ch && decide (o.lead < b.lead) &&
    (let u := b.issue + 14 + row * b.spacing
     decide (o.issue + 14 ≤ u) && decide ((u - o.issue - 14) % o.spacing = 0) &&
       decide ((u - o.issue - 14) / o.spacing < o.rows))

/-- Part of a broadcast row read by its lead (R57, R58). -/
def Dev.bcastRead (d : Dev) (lead ch issue row part b : Nat) : Dev :=
  let i := islandOf lead
  match (d.island i).bcasts.find? fun j => j.lead == lead && j.ch == ch && j.issue == issue with
  | none => d
  | some j =>
    let n := actLen j.typ
    let a := j.addr + row * j.pitch
    let k := firstPart a n
    let off := if part = 0 then 0 else k
    let len := if part = 0 then k else n - k
    let d := (((d.meetPoison (a + off) len lead).crossing lead).feltLines i (a + off) len).ev lead 0x009 len
    let d := if part = 0 then d.ev lead 0x019 1 else d
    let got := if j.late && row == 0 && part == 0 then d.freeBytes len else (d, d.read (a + off) len)
    let d := got.1
    let bs := got.2
    let loses := d.bcastLoses i j row
    let d := if loses then (if part = 0 then d.misuse 0x0556 lead else d)
      else d.modIsland i fun x => { x with bcasts := x.bcasts.map fun t =>
        if t.lead = lead ∧ t.ch = ch ∧ t.issue = issue then { t with fetched := addFetched t.fetched row bs } else t }
    let d := if part = 0 && k < n then d.later lead issue 2 (b + 1) 0 (.bcastRead lead ch issue row 1) else d
    if part = 0 && row + 1 < j.rows then
      d.later lead issue 2 (b + j.spacing) 0 (.bcastRead lead ch issue (row + 1) 0)
    else d

/-! ### Moves and turns (R127, R178) -/

/-- The panel operation that claims a port in a cycle. -/
def Panel.claimant (x : Panel) (port : Port) (c : Nat) : Option Claim :=
  x.claims.find? fun k => k.port == port && decide (k.first ≤ c) && decide (c ≤ k.last)

/-- Everything an operation has still to do is dropped (R157, R178). -/
def Dev.cancel (d : Dev) (p issue slot : Nat) : Dev :=
  let d := d.modPanel p fun x =>
    if slot = 0 then { x with
      drains := x.drains.filter fun j => j.issue != issue
      streams := x.streams.filter fun j => j.issue != issue }
    else if slot = 2 then { x with moves := x.moves.filter fun j => j.issue != issue }
    else x
  d.modIsland (islandOf p) fun i => { i with agenda := i.agenda.filter fun x =>
    !(x.panel == p && x.issue == issue && x.slot == slot && x.work != .pathCycle p) }

def Dev.postOwn (d : Dev) (p ctr cycle : Nat) : Dev :=
  d.later p cycle 9 (cycle + 2) 0 (.token ctr 1 (p + 1))

/-- A move's job leaves the panel after its last row, posting its token in cycle v. -/
def Dev.moveDone (d : Dev) (p : Nat) (j : MoveJob) (v : Nat) : Dev :=
  let d := d.modPanel p fun x => { x with moves := x.moves.filter fun m => !(m.issue == j.issue && !m.turn) }
  match j.token with
  | some t => (d.noteEffect p j.issue 2 (v + 2)).postOwn p t v
  | none => d

/-- Row r of a move from scratch is read in this cycle and becomes visible at its stated time (R178). -/
def Dev.moveFromScratch (d : Dev) (p : Nat) (j : MoveJob) (row c : Nat) : Dev :=
  let got := if j.late && row == 0 then d.freeBytes j.rowBytes else (d, d.read (j.src + row * j.srcPitch) j.rowBytes)
  let d := got.1
  let bs := got.2
  let v := j.issue + (if j.dstScratch then 6 else 15) + row
  let d := d.writeLater p j.issue 2 (j.dst + row * j.dstPitch) bs.length (leNat bs) (allOnes bs.length) v
  if row + 1 < j.rows then d.later p j.issue 2 (c + 1) 0 (.moveRow p j.issue (row + 1))
  else d.moveDone p j v

/-- A write whose cycle only its delivery fixes claims its port in that cycle, as an operation of its own
issue cycle in slot X; the operation issued earlier keeps the port, and the loser records 0x0554 (R157, R178). -/
def Dev.lateClaim (d : Dev) (p : Nat) (port : Port) (cyc issue : Nat) (put : Dev → Dev) : Dev :=
  let won (d : Dev) : Dev := put (d.modPanel p fun x => x.claim port cyc cyc issue 2)
  match (d.panel p).claimant port cyc with
  | none => won d
  | some k =>
    if k.slot = 9 || k.issue < issue || (k.issue = issue && k.slot < 2) then d.misuse 0x0554 p
    else won ((d.cancel p k.issue k.slot).misuse 0x0554 p)

/-- Row r of a move from the Felt is written (R178). -/
def Dev.moveFromFelt (d : Dev) (p : Nat) (j : MoveJob) (row c : Nat) : Dev :=
  let bs := (j.got.drop (row * j.rowBytes)).take j.rowBytes
  let d := d.lateClaim p .scratchWr c j.issue fun d =>
    (d.writeBits (j.dst + row * j.dstPitch) bs.length (leNat bs) (allOnes bs.length)).noteEffect p j.issue 2 c
  if row + 1 = j.rows then d.moveDone p j c else d

def Dev.moveRow (d : Dev) (p issue row c : Nat) : Dev :=
  match (d.panel p).moves.find? fun j => j.issue == issue && !j.turn with
  | none => d
  | some j => if j.srcScratch then d.moveFromScratch p j row c else d.moveFromFelt p j row c

/-- Output row j of a turn leaves the half (R127): written in this cycle, visible later. -/
def Dev.turnRow (d : Dev) (p issue row c : Nat) : Dev :=
  match (d.panel p).moves.find? fun j => j.issue == issue && j.turn with
  | none => d
  | some j =>
    let bs := turnRowBytes j.elemBytes j.got row
    let dst := j.dst + row * j.dstPitch
    let v := if j.dstScratch then c + 1 else c + 14
    let d := d.lateClaim p (if j.dstScratch then .scratchWr else .vertOut) (if j.dstScratch then c else c + 14) issue
      fun d => d.writeLater p issue 2 dst bs.length (leNat bs) (allOnes bs.length) v
    if row + 1 < 64 then d.later p issue 2 (c + 1) 0 (.turnRow p issue (row + 1))
    else
      let d := d.modPanel p fun x => { x with moves := x.moves.filter fun m => !(m.issue == issue && m.turn) }
      match j.token with
      | some t => (d.noteEffect p issue 2 (v + 2)).postOwn p t v
      | none => d

/-- A turned operation takes the lower-numbered half that is free when its first bytes come, or records
0x0570 and is not performed (R128). -/
def Dev.turnHalf (d : Dev) (p issue : Nat) (load : Bool) : Dev :=
  let x := d.panel p
  let h : Option Nat := if x.half0 ≤ issue + 14 then some 0 else if x.half1 ≤ issue + 14 then some 1 else none
  let held := 2 ^ 64
  match h with
  | none =>
    (d.modPanel p fun x =>
      if load then { x with load := none }
      else { x with moves := x.moves.filter fun m => !(m.issue == issue && m.turn) }).misuse 0x0570 p
  | some k =>
    d.modPanel p fun x =>
      let x := x.freeHalf (some k) held
      if load then { x with load := x.load.map fun j => { j with half := some k } }
      else { x with moves := x.moves.map fun m => if m.issue = issue ∧ m.turn then { m with half := some k } else m }

end Sys2Proof.Machine
end

