-- ==== Sys2Proof/Machine/Array.lean ====
section
/-!
DEFINITION. The matrix array and its accumulator rows: how a stream row updates a tile, how drained and
cleared rows leave and enter it (*Panels and the matrix array*, R56–R73; *Number formats*, R28–R36).
-/
namespace Sys2Proof.Machine
open Sys2Proof

/-! ### Hazards on rows (R65) -/

/-- The least spacing of two updates of one logical row (R65). -/
def updateSpacing (mode : Nat) : Nat := if mode = 1 then 6 else if mode = 3 then 8 else 4

/-- Cycles from a row's entry to its update (R78). -/
def updateLatency (mode : Nat) (strict mx : Bool) : Nat :=
  if mode = 2 then 9
  else if mode = 3 then 14
  else if strict then 20
  else if mode = 1 then (if mx then 13 else 12)
  else if mx then 11 else 10

/-- Another row entered the array too shortly before this one and updates the same logical row (R65). -/
def Panel.entersTooSoon (x : Panel) (key mode entry : Nat) : Bool :=
  x.touches.any fun t => t.kind == .enter && t.covers key && decide (entry < t.cycle + updateSpacing mode)

/-- A row of a restore in progress whose write is still to come (R69). -/
def Panel.restorePending (x : Panel) (row : Nat) : Bool :=
  match x.load with
  | some j => j.kind == .acc && (j.rows.drop ((j.total - j.left) / 256)).contains row
  | none => false

/-- An update that lands in a cycle on a physical row would break R65: a zero or restore that was issued has still to
write the row, or a drain issued after the stream has read it. -/
def Panel.landHazard (x : Panel) (row issue land : Nat) : Bool :=
  x.restorePending row ||
  x.touches.any fun t => t.covers row && (match t.kind with
    | .enter => false
    | .zero => decide (t.issue ≤ land) && decide (land ≤ t.at row)
    | .restore => decide (land < t.at row)
    | .read => decide (issue < t.issue) && decide (t.at row ≤ land))

/-! ### One activation row (R28, R33, R36, R70, R72) -/

/-- The words of a row in memory. -/
def Dev.rowAt (d : Dev) (p mode row : Nat) : List F32 := rowWords (d.read (rowAddr p mode row) 256)

/-- A logical row after one activation row: its physical rows' words and the events. -/
def applyRow (mode sense kBase group : Nat) (strict : Bool) (l : Latch) (wt xt : ElemType) (term : Nat)
    (k : Nat) (bs : List Byte) (r0 r1 : List F32) : Fl (List F32 × List F32) :=
  let x := actValues xt term k bs
  Fl.bind (Fl.mapList (fun n =>
    let w := (upTo k).map fun j => l.weight wt j n
    let a := nth f32Zero r0 n
    let b := nth f32Zero r1 n
    if mode = 1 then rowPairInto group (a, b) w x
    else if mode = 2 then
      Fl.bind (winnerColumn sense kBase (a, b.toNat % 65536) w x) fun v => Fl.pure (v.1, BitVec.ofNat 32 v.2)
    else if strict then Fl.bind (rowStrictInto a w x) fun v => Fl.pure (v, b)
    else Fl.bind (rowSumInto group a w x) fun v => Fl.pure (v, b)) (upTo 64)) fun ps =>
  Fl.pure (ps.map Prod.fst, ps.map Prod.snd)

/-- The tile a row meets: rows entering up to the cycle of the last mm.swap still use the old one (R52). -/
def Panel.latchFor (x : Panel) (entry : Nat) : Latch := if entry ≤ x.swapAt && 0 < x.swapAt then x.shadow else x.active

/-- Physical rows of a logical row of a mode (R60). -/
def rowsPer (mode : Nat) : Nat := if mode = 1 || mode = 2 then 2 else 1

/-- One stream row enters the array with the bytes it carries and the weight tile that is active then; its update
lands later (R28, R52, R65, R71, R78, R88). -/
def Dev.enterRow (d : Dev) (p : Nat) (s : StreamJob) (row entry : Nat) (bs : List Byte) : Dev :=
  let t := d.tile p s.tile
  let x := d.panel p
  let l := x.latchFor entry
  match streamRefusal s.strict l.typ l.term s.typ s.term with
  | some code => d.misuse code p
  | none =>
    match ElemType.ofCode l.typ, ElemType.ofCode s.typ with
    | some wt, some xt =>
      let phys := d.tileBase p t + (s.first + row) * t.per
      let key := rowKey t.mode phys
      let k := (kRow wt xt).getD 96
      let land := entry + updateLatency t.mode s.strict (wt.isMx || xt.isMx)
      if s.op != .add && decide (65535 < s.kBase + k - 1) then d.misuse 0x0559 p
      else if x.entersTooSoon key t.mode entry then d.misuse 0x0554 p
      else
        let r : ArrayRow := ⟨s, t.mode, t.sense, phys, l, bs, land⟩
        let d := d.modPanel p fun x =>
          { x.addTouch ⟨.enter, key, t.per, 64, entry, s.issue⟩ with tileBusy := (s.tile, land) :: x.tileBusy }
        let d := (d.ev p 0x004 1).count (64 * islandOf p + 20) 1
        let d := if xt.isMx then d.ev p 0x005 1 else d
        let d := if s.strict then d.ev p 0x006 1 else d
        (d.count (64 * islandOf p + 21) (64 * k)).later p s.issue 0 (land + bitNat (t.mode == 3)) 1 (.landRow p r)
    | _, _ => d.misuse 0x0540 p

/-- The update of a stream row (R28, R65): one read-modify-write of its logical row, or 0x0554 and none. A row of
panel scratch is written in the cycle of the update and visible in the next (R72, R75). -/
def Dev.landRow (d : Dev) (p : Nat) (r : ArrayRow) : Dev :=
  let s := r.job
  let key := rowKey r.mode r.phys
  let per := rowsPer r.mode
  let x := d.panel p
  if x.landHazard key s.issue r.land || (per == 2 && x.landHazard (key + 1) s.issue r.land) then d.misuse 0x0554 p
  else
    match ElemType.ofCode r.latch.typ, ElemType.ofCode s.typ with
    | some wt, some xt =>
      let r0 := d.rowAt p r.mode r.phys
      let r1 := if per = 2 then d.rowAt p r.mode (r.phys + 1) else []
      let res := applyRow r.mode r.sense s.kBase ((groupSize s.group).getD 16) s.strict r.latch wt xt s.term
        ((kRow wt xt).getD 96) r.bytes r0 r1
      let d := d.write (rowAddr p r.mode r.phys) (wordBytes res.1.1)
      let d := if per = 2 then d.write (rowAddr p r.mode (r.phys + 1)) (wordBytes res.1.2) else d
      d.raise (FlagUnit.panel p) s.stepTag res.2
    | _, _ => d

/-! ### Clearing (R66) -/

/-- Physical rows set to what mm.zero writes. -/
def Dev.zeroRows (d : Dev) (p mode sense row count : Nat) : Dev :=
  if mode = 2 then
    (upTo count).foldl (fun d k => d.write (rowAddr p mode (row + k)) (zeroRow mode sense ((row + k) % 2 == 1))) d
  else d.zeroRange (rowAddr p mode row) (256 * count)

/-- The rows are cleared in a cycle, after what reads them in it; scratch rows read as cleared from the next (R66,
R75). -/
def Dev.clearLater (d : Dev) (p issue mode sense row count c : Nat) : Dev :=
  d.later p issue 0 (c + bitNat (mode == 3)) 1 (.zeroRows p mode sense row count)

/-! ### Draining (R67, R68, R19, R39) -/

/-- Contribution rows leave an island (R584, R585). -/
def Dev.sentRows (d : Dev) (i n : Nat) : Dev := (d.evI i 0x028 n).count (64 * i + 25) n

/-- One of the drain's contribution rows is stalled at a full window (R139). -/
def Dev.drainStalled (d : Dev) (p : Nat) (j : DrainJob) : Bool :=
  match j.dest with
  | .wide a id => d.wide.stalls.any fun s => s.row.sender == p && s.row.id == id
      && decide (a ≤ s.row.addr) && decide (s.row.addr < a + 256 * j.todo.length)
  | _ => false

/-- The ports of a drain whose rows are not read at their own pace are held until its last row is read (R139). -/
def Panel.drainHolds (x : Panel) (j : DrainJob) (last : Nat) : Panel :=
  let x := x.endClaim (if j.mode = 3 then .scratchRd else .drain) j.issue last
  let x := if j.zap then x.endClaim (if j.mode = 3 then .scratchWr else .clear) j.issue (last + 1) else x
  { x with tileBusy := (j.tile, last + 1) :: x.tileBusy }

/-- The physical row m of a drain is read in this cycle; a whole output row goes on its way (R67). A stalled drain reads
nothing and holds its read port (R139). -/
def Dev.drainRow (d : Dev) (p issue m c : Nat) : Dev :=
  match (d.panel p).drains.find? fun j => j.issue == issue with
  | none => d
  | some j =>
    if d.drainStalled p j then
      (d.modPanel p fun x => x.drainHolds j openEnd).later p issue 0 (c + 1) 0 (.drainRow p issue m)
    else
    let per := if j.mode = 1 || j.mode = 2 then 2 else 1
    let phys := nth 0 j.todo m
    let d := d.ev p 0x008 1
    let last := j.todo.length
    let d :=
      if m % per + 1 < per then d
      else
        let r := m / per
        let hi := d.rowAt p j.mode (if per = 2 then phys - 1 else phys)
        let lo := if per = 2 then d.rowAt p j.mode phys else []
        let ty := (ElemType.ofCode j.typ).getD .fp32
        let unit := FlagUnit.panel p
        match j.dest with
        | .vector reg =>
          let res := if j.index then Fl.pure lo else drainLanes j.mode ty hi lo
          (d.later p issue 0 (issue + 4 + m) 0 (.vreg p ((reg + r) % 32) (res.1.take j.cols))).raise unit j.stepTag res.2
        | .rowEngine =>
          let res := if j.index then Fl.pure lo else drainLanes j.mode ty hi lo
          (d.later p issue 0 (issue + 8 + m) 0 (.reArrive p (res.1.take j.cols))).raise unit j.stepTag res.2
        | .memory scr a pitch =>
          let res := if j.index then
              Fl.pure (2 * j.cols, packBits 16 (lo.map fun w => w.toNat % 65536) % 2 ^ (16 * j.cols), 2 ^ (16 * j.cols) - 1)
            else drainPacked j.mode ty j.cols hi lo
          (d.writeLater p issue 0 (a + r * pitch) res.1.1 res.1.2.1 res.1.2.2
            (if scr then issue + 7 + m else issue + 14 + m)).raise unit j.stepTag res.2
        | .wide a id =>
          let row : Contrib := ⟨p, a + r * 256, id, j.stepTag, j.cols, hi, c + 13, issue⟩
          ({ (d.crossing p) with wide := { d.wide with inFlight := d.wide.inFlight ++ [row] } }).sentRows (islandOf p) 1
    let d := if j.zap then d.clearLater p issue j.mode j.sense phys 1 (c + 1) else d
    if m + 1 < last then d.later p issue 0 (c + 1) 0 (.drainRow p issue (m + 1))
    else d.modPanel p fun x => { (if c = issue + 1 + m then x else x.drainHolds j c) with
      drains := x.drains.filter fun k => k.issue != issue, tileBusy := x.tileBusy.filter fun t => t.2 != openEnd + 1 }

/-! ### Vector registers -/

/-- Lanes written to a register; lanes beyond the list keep their value. -/
def vrSet (vr : Sparse F32) (reg : Nat) (lanes : List F32) : Sparse F32 :=
  ((upTo lanes.length).zip lanes).foldl (fun m p => sset f32Zero m (64 * reg + p.1) p.2) vr

/-- The 64 lanes of a register. -/
def Panel.vreg (x : Panel) (reg : Nat) : List F32 := (upTo 64).map fun n => sget f32Zero x.vr (64 * reg + n)

end Sys2Proof.Machine
end

