-- ==== Sys2Proof/Machine/Repair.lean ====
section
/-!
DEFINITION. Errors, repair and fencing of panels and row engines (*Panels and the matrix array* › Errors,
repair and fencing, R80–R85; *Row engine and vector unit* › Faults, R122).
-/
namespace Sys2Proof.Machine
open Sys2Proof

/-- What happens in every case of fencing (R83), without the change of device state. -/
def Dev.fenceBits (d : Dev) (p : Nat) : Dev :=
  (d.put Ent.panelFenced (setBit (d.get Ent.panelFenced) p true)).put Ent.panelMask
    (setBit (d.get Ent.panelMask) p false)

/-- A panel is fenced with a fault; in LOADED, RUNNING, HELD, ADOPTING or SPARE the device retires (R83). -/
def Dev.fencePanel (d : Dev) (code p : Nat) : Dev :=
  let d := (d.fault code p 0).fenceBits p
  if d.inState [St.loaded, St.running, St.held, St.adopting, St.spare] then (d.fault 0x073B Unit.device 0).enterState St.retired code else d

/-- The panel freezes at its next bundle boundary and the device withholds (R80 steps 1 and 2). -/
def Dev.freezePanel (d : Dev) (p : Nat) : Dev := (d.modPanel p fun x => { x with frozen := true }).withhold

/-- A parity error on an accumulator read (R80). -/
def Dev.parityError (d : Dev) (p : Nat) : Dev :=
  ((((d.fault 0x0220 p 0).bump Ent.panelErrCount (8 * p + 4) 2 1).modPanel p fun x => { x with accTest := true })).freezePanel p

/-- The event lies within 1,000 steps of an earlier one. -/
def within1000 (last : Option Nat) (now : Nat) : Bool :=
  match last with
  | some s => decide (now ≤ s + 1000)
  | none => false

/-- An uncorrectable scratch (0x0223) or bundle-memory (0x0222) error; the second within 1,000 steps
fences the panel (R82). -/
def Dev.panelError (d : Dev) (code p : Nat) : Dev :=
  let again := within1000 (d.panel p).lastErrorStep d.faultStep
  let d := (d.fault code p 0).bump Ent.panelErrCount (8 * p + 6) 2 1
  let d := d.modPanel p fun x => { x with lastErrorStep := some d.faultStep }
  let d := if code = 0x0222 then d.modPanel p fun x => { x with halted := true, haltedByFault := true } else d
  let d := d.freezePanel p
  if again then d.fencePanel 0x0224 p else d

/-- An uncorrectable error of a row engine's memories (R122): the island's panels freeze, and the second
within 1,000 steps fences all eight. -/
def Dev.engineError (d : Dev) (i : Nat) : Dev :=
  let again := within1000 (d.island i).reLastErrorStep d.faultStep
  let d := (d.fault 0x0225 (Unit.island i) 0).bump Ent.sideErrCount (4 * i + 2) 2 1
  let d := d.modIsland i fun x => { x with reLastErrorStep := some d.faultStep, reFrozen := true }
  let ps := (upTo 8).map fun k => 8 * i + k
  let d := ps.foldl (fun d p => d.freezePanel p) d
  if again then ps.foldl (fun d p => d.fencePanel 0x0226 p) d else d

/-! ### What a disturbed access does (R202, R272, R273, R436) -/

/-- A late read (R202): the sentinel's record, the withheld contribution and the response of its class. -/
def Dev.sentinel (d : Dev) (unit a other : Nat) (who : Culprit) : Dev :=
  (d.contractFault 0x0520 unit (a / 256 * 256 + other) who).withhold

/-- A late write lands with correct contents: the record and the response of its class (R202). The contribution is
withheld for values read late only (DEDUCED, log 94). -/
def Dev.lateWrite (d : Dev) (unit a : Nat) (who : Culprit) (u : Upset) : Dev :=
  match u with
  | .lateAccess other => if a < feltSize then d.contractFault 0x0520 unit (a / 256 * 256 + other) who else d
  | _ => d

/-- The island whose coupling a unit's accesses cross: a unit off the Tree crosses at the hub, 16. -/
def couplingIsland (unit : Nat) : Nat :=
  if unit < 0x80 then unit / 8 else if unit < 0x90 then unit - 0x80 else if 0x91 ≤ unit && unit < 0xA1 then unit - 0x91 else 16

/-- An uncorrectable command word: what it asks for is not performed (R436, R439). -/
def Dev.lostCommand (d : Dev) (unit : Nat) : Dev :=
  ((d.fault 0x0201 unit 0).bump Ent.couplingCounts (24 * couplingIsland unit + 16) 4 1).withhold

/-- The fault of an uncorrectable word of a memory of the Tree, by the memory it lies in (R80, R82, R122). -/
def Dev.treeError (d : Dev) (a : Nat) : Dev :=
  match d.region a with
  | .acc p => d.parityError p
  | .scratch p => d.panelError 0x0223 p
  | .bundle p => d.panelError 0x0222 p
  | .side i => d.engineError i
  | _ => d

/-- An error of a memory of the Tree that its check bits correct. -/
def Dev.treeCorrected (d : Dev) (a : Nat) : Dev :=
  match d.region a with
  | .scratch p => d.bump Ent.panelErrCount (8 * p) 2 1
  | .bundle p => d.bump Ent.panelErrCount (8 * p + 2) 2 1
  | .side i => d.bump Ent.sideErrCount (4 * i) 2 1
  | _ => d

/-- What a read of local memory at address a by a Shuttle or through BAR2 meets. The flag says that its contents are
unspecified. -/
def Dev.windowMeet (d : Dev) (unit a : Nat) (who : Culprit) (u : Upset) : Dev × Bool :=
  if a < feltSize then
    match u with
    | .feltCorrected => (d.feltCorrected a, false)
    | .feltWord => (d.poisonWord (a / 8), false)
    | .lateAccess other => (d.sentinel unit a other who, true)
    | .commandWord => (d.lostCommand unit, true)
    | _ => (d, false)
  else
    match u with
    | .corrected => (d.treeCorrected a, false)
    | .uncorrectable => (d.treeError a, true)
    | .commandWord => (d.lostCommand unit, true)
    | _ => (d, false)

/-- The panel's own items that a panel reset ends: work of its sequencer, path and bus (R85). -/
def Deferred.endsAtReset : Deferred → Bool
  | .bits _ _ _ _ => false
  | .token _ _ _ => false
  | .stash _ _ _ => false
  | .wbRow _ => false
  | .reRead _ _ => false
  | .reRow _ _ _ _ _ _ => false
  | .reFin _ _ _ => false
  | .reDone _ => false
  | .reArrive _ _ => false
  | .reAccept _ => false
  | .vreg _ _ _ => true
  | .pathCycle _ => true
  | .streamRead _ _ _ _ => true
  | .landRow _ _ => true
  | .bcastRead _ _ _ _ _ => true
  | .drainRow _ _ _ => true
  | .zeroRows _ _ _ _ _ => true
  | .moveRow _ _ _ => true
  | .turnRow _ _ _ => true
  | .turnHalf _ _ _ => true

/-- Panel reset (R85, R115, R190). Accumulator, scratch and bundle memory stay; so do the loaded constants, the
row repair and the error history. -/
def Dev.panelReset (d : Dev) (p : Nat) : Dev :=
  let d := d.modPanel p fun x => { Panel.reset with
    vconst := x.vconst, pairMode := x.pairMode, fillB := x.fillB, lastErrorStep := x.lastErrorStep,
    accTest := x.accTest, alarm0 := x.alarm0, alarm1 := x.alarm1, lastIssue := x.lastIssue }
  let d := d.modIsland (islandOf p) fun i => { i with
    agenda := i.agenda.filter fun t => !(t.panel == p && t.work.endsAtReset)
    bcasts := i.bcasts.filter fun b => b.lead != p }
  let d := d.putB Ent.panelHaltCode (2 * p) 2 0
  { d with flags := { d.flags with sets := d.flags.sets.filter fun e => e.1 % 188 != p } }

/-- The row engine is reset: its queue and running request are dropped (R122, R222). -/
def Dev.engineReset (d : Dev) (i : Nat) : Dev :=
  d.modIsland i fun x => { x with
    queue := [], running := none, reLastEnd := 0, reFrozen := false
    agenda := x.agenda.filter fun t => match t.work with
      | .reRead _ _ => false
      | .reRow _ _ _ _ _ _ => false
      | .reFin _ _ _ => false
      | .reDone _ => false
      | .reArrive _ _ => false
      | .reAccept _ => false
      | _ => true }

/-- The accumulator test of a panel: a failing row takes a spare, and none left fences (R80, R81). -/
def Dev.accRepair (d : Dev) (p failing : Nat) : Dev :=
  let left := d.getB Ent.accSparesLeft p 1
  let d := d.modPanel p fun x => { x with accTest := false }
  if failing ≤ left then d.putB Ent.accSparesLeft p 1 (left - failing)
  else (d.putB Ent.accSparesLeft p 1 0).fencePanel 0x0221 p

end Sys2Proof.Machine
end

