-- ==== Sys2Proof/Machine/Elementary.lean ====
section
/-!
DEFINITION. The correctly rounded functions of R118 and the derivatives of R116, evaluated in fixed
point far below the last place of FP32 and rounded once with a sticky bit.
DEDUCED (log 5): 1,024 fractional bits decide every FP32 rounding; R118 states the correctly rounded
result and this is one way to compute it.
-/
namespace Sys2Proof.Machine
open Sys2Proof

/-- Fractional bits of the fixed-point evaluation. -/
def fxBits : Nat := 1024

def fxOne : Int := ((2 ^ fxBits : Nat) : Int)

/-- Product and quotient of fixed-point values. -/
def fxMul (a b : Int) : Int := (a * b) / fxOne
def fxDiv (a b : Int) : Int := if b = 0 then 0 else (a * fxOne) / b

/-- Newton iteration for the integer square root, with fuel. -/
def isqrtGo : Nat → Nat → Nat → Nat
  | 0, _, x => x
  | k + 1, n, x => let y := (x + n / x) / 2; if y < x then isqrtGo k n y else x

/-- The largest r with r × r ≤ n. -/
def isqrt (n : Nat) : Nat :=
  if n = 0 then 0 else isqrtGo (Nat.log2 n + 8) n (2 ^ (Nat.log2 n / 2 + 1))

/-- The exact value of a finite number in fixed point, rounded down. -/
def fxOf : Num → Int
  | .fin n m e =>
    let s := e + (fxBits : Int)
    let v : Nat := if 0 ≤ s then m <<< s.toNat else m >>> (-s).toNat
    if n then -(v : Int) else (v : Int)
  | _ => 0

/-- Σ x^n ÷ n!, with fuel terms; t is the running term. -/
def expTerms : Nat → Nat → Int → Int → Int
  | 0, _, _, _ => 0
  | k + 1, n, x, t => t + expTerms k (n + 1) x (fxMul t x / ((n + 1 : Nat) : Int))

/-- Σ of an odd power series z − z³/3 + … (alternating) or z + z³/3 + … . -/
def oddTerms : Nat → Nat → Int → Int → Bool → Int
  | 0, _, _, _, _ => 0
  | k + 1, n, z2, p, alt =>
    p / ((2 * n + 1 : Nat) : Int)
      + oddTerms k (n + 1) z2 (let q := fxMul p z2; if alt then -q else q) alt

/-- atanh(z) and atan(z) by their series. -/
def fxAtanh (z : Int) : Int := oddTerms 700 0 (fxMul z z) z false
def fxAtan (z : Int) : Int := oddTerms 700 0 (fxMul z z) z true

/-- ln 2 = 2 atanh(1/3). -/
def fxLn2 : Int := 2 * fxAtanh (fxOne / 3)

/-- π by Machin's formula. -/
def fxPi : Int := 16 * fxAtan (fxOne / 5) - 4 * fxAtan (fxOne / 239)

def fxSqrt (a : Int) : Int := (isqrt (a.toNat * 2 ^ fxBits) : Nat)

/-- e^x in fixed point. -/
def fxExp (x : Int) : Int :=
  let k := x / fxLn2
  let r := x - k * fxLn2
  let v := expTerms 190 0 r fxOne
  if 0 ≤ k then v * ((2 ^ k.toNat : Nat) : Int) else v / ((2 ^ (-k).toNat : Nat) : Int)

/-- A fixed-point result, known not to be exact, rounded to FP32. The sign of a result too small to
show is the one given. -/
def fxRound (neg : Bool) (v : Int) : Fl F32 :=
  let n := if v = 0 then neg else decide (v < 0)
  f32Of (.fin n (2 * v.natAbs + 1) (-(fxBits : Int) - 1))

/-- The functions of R118 and their derivatives. -/
inductive Fn where
  | exp | log | recip | rsqrt | gelut | gelue | silu | dgelut | dgelue | dsilu
deriving DecidableEq, Repr

/-- 1 ÷ (1 + e^(−y)). -/
def fxLogistic (y : Int) : Int := fxDiv fxOne (fxOne + fxExp (-y))

/-- Φ(x) for |x| < 16, by the error-function series. -/
def erfTerms : Nat → Nat → Int → Int → Int
  | 0, _, _, _ => 0
  | k + 1, n, z2, p =>
    p / ((2 * n + 1 : Nat) : Int) + erfTerms k (n + 1) z2 (-(fxMul p z2) / ((n + 1 : Nat) : Int))

def fxErf (z : Int) : Int :=
  fxDiv (2 * erfTerms 1100 0 (fxMul z z) z) (fxSqrt fxPi)

def fxPhi (x : Int) : Int := (fxOne + fxErf (fxDiv x (fxSqrt (2 * fxOne)))) / 2

/-- The argument of the tanh form: 2 √(2/π) (x + 0.044715 x³). -/
def fxGelutArg (x : Int) : Int :=
  let c := fxMul x (fxMul x x) * 44715 / 1000000
  2 * fxMul (fxSqrt (fxDiv (2 * fxOne) fxPi)) (x + c)

/-- Its derivative with respect to x, halved: √(2/π) (1 + 3 × 0.044715 x²). -/
def fxGelutArgD (x : Int) : Int :=
  fxMul (fxSqrt (fxDiv (2 * fxOne) fxPi)) (fxOne + fxMul x x * 134145 / 1000000)

/-- A magnitude limit: finite inputs beyond ± 2^8 saturate every function named here. -/
def fxBig (x : Num) : Bool := match x with
  | .fin _ m e => decide (m ≠ 0) && decide ((Nat.log2 m : Int) + e ≥ 8)
  | _ => false

/-- A value just above zero, and one just below a power of two's ulp: both only steer the rounding. -/
def tinyNum (neg : Bool) : Fl F32 := f32Of (.fin neg 1 (-2000))

/-- The function of a finite, non-zero input (R118). -/
def fnFinite (f : Fn) (x : Num) : Fl F32 :=
  let neg := x.isNeg
  let fx := fxOf x
  match f with
  | .exp =>
    if fxBig x then (if neg then tinyNum false else f32Of (.fin false 1 2000))
    else fxRound false (fxExp fx)
  | .log =>
    if neg then (f32Nan, Flags.inv)
    else
      match x with
      | .fin _ m e =>
        let k : Int := (Nat.log2 m : Int) + e
        let z := fxOf (.fin false m (-(Nat.log2 m : Int)))
        let a := 2 * fxAtanh (fxDiv (z - fxOne) (z + fxOne))
        let v := k * fxLn2 + a
        if z = fxOne && k = 0 then Fl.pure f32Zero else fxRound (decide (v < 0)) v
      | _ => Fl.pure f32Nan
  | .recip => f32Div f32One (f32Of x).1
  | .rsqrt =>
    if neg then (f32Nan, Flags.inv)
    else
      match x with
      | .fin _ m e =>
        let odd := e % 2 ≠ 0
        let m' := if odd then 2 * m else m
        let e' := if odd then e - 1 else e
        let n := 2 ^ 160
        let r := isqrt (n / m')
        let s := if r * r * m' = n then 0 else 1
        f32Of (.fin false (2 * r + s) (-(e' / 2) - 81))
      | _ => Fl.pure f32Nan
  | .gelut =>
    if decide ((16 : Int) * fxOne ≤ fx.natAbs) || fxBig x then (if neg then tinyNum true else f32Of x)
    else fxRound neg (fxMul fx (fxLogistic (fxGelutArg fx)))
  | .gelue =>
    if decide ((16 : Int) * fxOne ≤ fx.natAbs) || fxBig x then (if neg then tinyNum true else f32Of x)
    else fxRound neg (fxMul fx (fxPhi fx))
  | .silu =>
    if fxBig x then (if neg then tinyNum true else f32Of x)
    else fxRound neg (fxMul fx (fxLogistic fx))
  | .dgelut =>
    if decide ((16 : Int) * fxOne ≤ fx.natAbs) || fxBig x then (if neg then tinyNum true else Fl.pure f32One)
    else
      let s := fxLogistic (fxGelutArg fx)
      fxRound false (s + fxMul fx (fxMul (2 * fxMul s (fxOne - s)) (fxGelutArgD fx)))
  | .dgelue =>
    if decide ((16 : Int) * fxOne ≤ fx.natAbs) || fxBig x then (if neg then tinyNum true else Fl.pure f32One)
    else
      let phi := fxDiv (fxExp (-(fxMul fx fx) / 2)) (fxSqrt (2 * fxPi))
      fxRound false (fxPhi fx + fxMul fx phi)
  | .dsilu =>
    if fxBig x then (if neg then tinyNum true else Fl.pure f32One)
    else
      let s := fxLogistic fx
      fxRound false (s + fxMul fx (fxMul s (fxOne - s)))

/-- The function of any FP32 input: special values by the table of R118. -/
def fnF32 (f : Fn) (x : F32) : Fl F32 :=
  match f32Num x with
  | .nan s => (f32Nan, ⟨s, false, false⟩)
  | .inf n =>
    match f with
    | .exp => Fl.pure (if n then f32Zero else f32Inf)
    | .log => if n then (f32Nan, Flags.inv) else Fl.pure f32Inf
    | .recip => Fl.pure (if n then f32Neg f32Zero else f32Zero)
    | .rsqrt => if n then (f32Nan, Flags.inv) else Fl.pure f32Zero
    | .gelut | .gelue | .silu => Fl.pure (if n then f32Neg f32Zero else f32Inf)
    | .dgelut => Fl.pure (Config.derivAtInfinity 0 n)
    | .dgelue => Fl.pure (Config.derivAtInfinity 1 n)
    | .dsilu => Fl.pure (Config.derivAtInfinity 2 n)
  | .fin n m e =>
    if m = 0 then
      match f with
      | .exp => Fl.pure f32One
      | .log => Fl.pure f32NegInf
      | .recip | .rsqrt => Fl.pure (if n then f32NegInf else f32Inf)
      | .gelut | .gelue | .silu => Fl.pure (if n then f32Neg f32Zero else f32Zero)
      | .dgelut | .dgelue | .dsilu => Fl.pure 0x3F000000#32
    else fnFinite f (.fin n m e)

/-- The square root of an FP32 value, correctly rounded. -/
def f32Sqrt (x : F32) : Fl F32 :=
  match f32Num x with
  | .nan s => (f32Nan, ⟨s, false, false⟩)
  | .inf n => if n then (f32Nan, Flags.inv) else Fl.pure f32Inf
  | .fin n m e =>
    if m = 0 then Fl.pure (if n then f32Neg f32Zero else f32Zero)
    else if n then (f32Nan, Flags.inv)
    else
      let odd := e % 2 ≠ 0
      let m' := (if odd then 2 * m else m) <<< 80
      let e' := if odd then e - 1 else e
      let r := isqrt m'
      let s := if r * r = m' then 0 else 1
      f32Of (.fin false (2 * r + s) (e' / 2 - 41))

end Sys2Proof.Machine
end

