-- ==== Sys2Proof/Machine/RowMath.lean ====
section
/-!
DEFINITION. The arithmetic of the row engine: reduction order, normalisation, soft-maximum,
cross-entropy, winners (*Row engine and vector unit*, R101–R113). Every step rounds once, RNE.
-/
namespace Sys2Proof.Machine
open Sys2Proof

/-! ### Reduction order (R101) -/

/-- The elements of lane l in increasing position. -/
def laneOf {α : Type} (d : α) (xs : List α) (l : Nat) : List α :=
  (upTo (ceilDiv (xs.length - l) 64)).map fun k => nth d xs (64 * k + l)

/-- One level of the combining tree: neighbours added in pairs. -/
def pairUp : List F32 → Fl (List F32)
  | a :: b :: rest => Fl.bind (f32Add a b) fun s => Fl.bind (pairUp rest) fun ss => Fl.pure (s :: ss)
  | xs => Fl.pure xs

/-- Six levels over 64 lane values. -/
def laneTree (vs : List F32) : Fl F32 :=
  Fl.bind (pairUp vs) fun a => Fl.bind (pairUp a) fun b => Fl.bind (pairUp b) fun c =>
    Fl.bind (pairUp c) fun d => Fl.bind (pairUp d) fun e => Fl.bind (pairUp e) fun f =>
      Fl.pure (nth f32Zero f 0)

def rowSum (xs : List F32) : Fl F32 :=
  Fl.bind (Fl.mapList (fun l => Fl.foldList f32Add f32Zero (laneOf f32Zero xs l)) (upTo 64)) laneTree

def rowDot (xs ys : List F32) : Fl F32 :=
  Fl.bind (Fl.mapList (fun l =>
    Fl.foldList (fun a p => f32Fma p.1 p.2 a) f32Zero
      ((laneOf f32Zero xs l).zip (laneOf f32Zero ys l))) (upTo 64)) laneTree

/-- The extreme of a row and its position: the first NaN, or the lowest position of the extreme. -/
def rowExtreme (wantMin : Bool) (xs : List F32) : Fl (F32 × Nat) :=
  let step (s : F32 × Nat) (p : Nat × F32) : Fl (F32 × Nat) :=
    let sig : Flags := ⟨(f32Num p.2).isSig, false, false⟩
    if f32IsNan s.1 then (s, sig)
    else if f32IsNan p.2 then ((f32Nan, p.1), sig)
    else if (if wantMin then (f32Num p.2).lt (f32Num s.1) else (f32Num s.1).lt (f32Num p.2)) then Fl.pure (p.2, p.1)
    else Fl.pure s
  match (upTo xs.length).zip xs with
  | [] => Fl.pure (f32NegInf, 0)
  | p :: ps =>
    let sig : Flags := ⟨(f32Num p.2).isSig, false, false⟩
    Fl.bind (if f32IsNan p.2 then (f32Nan, p.1) else (p.2, p.1), sig) fun s => Fl.foldList step s ps

def rowMax (xs : List F32) : Fl (F32 × Nat) := rowExtreme false xs

/-- Two rows combined element by element. -/
def zipFl (f : F32 → F32 → Fl F32) (xs ys : List F32) : Fl (List F32) :=
  Fl.mapList (fun p => f p.1 p.2) (xs.zip ys)

/-! ### Normalisation (R102–R104) -/

/-- re.rms.fwd: the outputs and r. -/
def rmsFwd (eps : F32) (x g : List F32) : Fl (List F32 × F32) :=
  Fl.bind (rowDot x x) fun s => Fl.bind (f32Div s (f32OfNat x.length)) fun q =>
    Fl.bind (f32Add q eps) fun qe => Fl.bind (fnF32 .rsqrt qe) fun r =>
      Fl.bind (zipFl (fun a b => Fl.bind (f32Mul a r) fun h => f32Mul h b) x g) fun y => Fl.pure (y, r)

/-- re.ln.fwd: the outputs, μ and r. -/
def lnFwd (eps : F32) (x g b : List F32) : Fl (List F32 × F32 × F32) :=
  Fl.bind (rowSum x) fun s => Fl.bind (f32Div s (f32OfNat x.length)) fun mu =>
    Fl.bind (Fl.mapList (fun a => f32Sub a mu) x) fun dd => Fl.bind (rowDot dd dd) fun v0 =>
      Fl.bind (f32Div v0 (f32OfNat x.length)) fun v => Fl.bind (f32Add v eps) fun ve =>
        Fl.bind (fnF32 .rsqrt ve) fun r =>
          Fl.bind (zipFl (fun a c => Fl.bind (f32Mul a r) fun h => f32Mul h c) dd g) fun y0 =>
            Fl.bind (zipFl f32Add y0 b) fun y => Fl.pure (y, mu, r)

/-- re.rms.bwd: dx and the row's terms dy × h (R103, R104). -/
def rmsBwd (r : F32) (x dy g : List F32) : Fl (List F32 × List F32) :=
  Fl.bind (Fl.mapList (fun a => f32Mul a r) x) fun h => Fl.bind (zipFl f32Mul dy g) fun e =>
    Fl.bind (rowDot e h) fun c0 => Fl.bind (f32Div c0 (f32OfNat x.length)) fun c =>
      Fl.bind (Fl.mapList (fun p => Fl.bind (f32Mul p.2 c) fun hc => Fl.bind (f32Sub p.1 hc) fun t => f32Mul r t)
        (e.zip h)) fun dx =>
          Fl.bind (zipFl f32Mul dy h) fun dg => Fl.pure (dx, dg)

/-- re.ln.bwd: dx and the row's terms dy × h. -/
def lnBwd (mu r : F32) (x dy g : List F32) : Fl (List F32 × List F32) :=
  Fl.bind (Fl.mapList (fun a => Fl.bind (f32Sub a mu) fun t => f32Mul t r) x) fun h =>
    Fl.bind (zipFl f32Mul dy g) fun e => Fl.bind (rowSum e) fun a0 =>
      Fl.bind (f32Div a0 (f32OfNat x.length)) fun a => Fl.bind (rowDot e h) fun c0 =>
        Fl.bind (f32Div c0 (f32OfNat x.length)) fun c =>
          Fl.bind (Fl.mapList (fun p => Fl.bind (f32Sub p.1 a) fun t => Fl.bind (f32Mul p.2 c) fun hc =>
            Fl.bind (f32Sub t hc) fun u => f32Mul r u) (e.zip h)) fun dx =>
              Fl.bind (zipFl f32Mul dy h) fun dg => Fl.pure (dx, dg)

/-! ### Soft-maximum (R105–R108) -/

/-- x_j = RNE(raw × SCALE); a masked element is −∞ and sets no flag (R105). -/
def scaleRow (scale : F32) (masked : Nat → Bool) (raw : List F32) : Fl (List F32) :=
  Fl.mapList (fun p => if masked p.1 then Fl.pure f32NegInf else f32Mul p.2 scale) ((upTo raw.length).zip raw)

/-- exp(x − m) of one element. An all-masked row gives +0.0, and so does a masked element, whose −∞ less a NaN is a
NaN; neither sets a flag (R105). -/
def expTerm (m : F32) (masked : Bool) (x : F32) : Fl F32 :=
  if m == f32NegInf then Fl.pure f32Zero
  else if masked then Fl.pure (if f32IsNan m then f32Nan else f32Zero)
  else Fl.bind (f32Sub x m) fun t => fnF32 .exp t

def expRow (m : F32) (masked : Nat → Bool) (x : List F32) : Fl (List F32) :=
  Fl.mapList (fun p => expTerm m (masked p.1) p.2) ((upTo x.length).zip x)

/-- re.smax.fwd: probabilities, m and s (R106). -/
def smaxFwd (scale : F32) (masked : Nat → Bool) (raw : List F32) : Fl (List F32 × F32 × F32) :=
  Fl.bind (scaleRow scale masked raw) fun x => Fl.bind (rowMax x) fun bm =>
    Fl.bind (expRow bm.1 masked x) fun e => Fl.bind (rowSum e) fun s =>
      if bm.1 == f32NegInf then Fl.pure (x.map fun _ => f32Zero, bm.1, s)
      else Fl.bind (fnF32 .recip s) fun ri => Fl.bind (Fl.mapList (fun v => f32Mul v ri) e) fun y =>
        Fl.pure (y, bm.1, s)

/-- One block of the online form: (m2, s2), the terms, the rescale factor, and the block's extreme (R107). -/
def smaxBlock (m s : F32) (masked : Nat → Bool) (x : List F32) : Fl (F32 × F32 × List F32 × F32 × F32 × Nat) :=
  Fl.bind (rowMax x) fun bm => Fl.bind (f32MaxMin false m bm.1) fun m2 =>
    Fl.bind (if m == m2 && !f32IsNan m then Fl.pure f32One else Fl.bind (f32Sub m m2) fun t => fnF32 .exp t) fun c =>
      Fl.bind (expRow m2 masked x) fun p => Fl.bind (f32Mul s c) fun sc => Fl.bind (rowSum p) fun ps =>
        Fl.bind (f32Add sc ps) fun s2 => Fl.pure (m2, s2, p, c, bm.1, bm.2)

/-- re.smax.bwd: dS (R108). -/
def smaxBwd (scale m s dr : F32) (masked : Nat → Bool) (raw dp : List F32) : Fl (List F32) :=
  Fl.bind (scaleRow scale masked raw) fun x => Fl.bind (fnF32 .recip s) fun ri =>
    Fl.mapList (fun q =>
      if masked q.1 then Fl.pure f32Zero
      else
        let p := if m == f32NegInf then Fl.pure f32Zero
          else Fl.bind (expTerm m false q.2.1) fun e => f32Mul e ri
        Fl.bind p fun pj => Fl.bind (f32Sub q.2.2 dr) fun t => Fl.bind (f32Mul pj t) fun u => f32Mul u scale)
      ((upTo raw.length).zip (x.zip dp))

/-! ### Cross-entropy (R109–R111) -/

/-- re.xent.grad for one row whose label is not ignored: dlogits and the loss where the label lies in the
block (R110). -/
def xentGrad (g m s : F32) (p0 label : Nat) (x : List F32) : Fl (List F32 × Option F32) :=
  Fl.bind (fnF32 .recip s) fun ri =>
    Fl.bind (Fl.mapList (fun q =>
      Fl.bind (f32Sub q.2 m) fun t => Fl.bind (fnF32 .exp t) fun e => Fl.bind (f32Mul e ri) fun p =>
        Fl.bind (if p0 + q.1 = label then f32Sub p f32One else Fl.pure p) fun dd => f32Mul dd g)
      ((upTo x.length).zip x)) fun ds =>
    if p0 ≤ label ∧ label < p0 + x.length then
      Fl.bind (fnF32 .log s) fun l => Fl.bind (f32Add l m) fun lm =>
        Fl.bind (f32Sub lm (nth f32Zero x (label - p0))) fun loss => Fl.pure (ds, some loss)
    else Fl.pure (ds, none)

/-! ### Winners and top-k (R112, R113) -/

/-- A candidate of re.wmax or re.topk: value and global index. -/
abbrev Cand := F32 × Nat

/-- The candidates of a row; one that holds the initial value at index 0xFFFF had no winner (R112). -/
def candidates (sense p0 stride : Nat) (vals : List F32) (idxs : List Nat) : List Cand :=
  (((upTo vals.length).zip (vals.zip idxs)).filter fun q =>
    !(q.2.1 == (if sense = 1 then f32Inf else f32NegInf) && q.2.2 == 0xFFFF)).map fun q =>
      (q.2.1, p0 + q.1 / 64 * stride + q.2.2)

/-- a ranks before b: NaNs first, then by value, ties to the lowest index. -/
def ranksBefore (wantMin : Bool) (a b : Cand) : Bool :=
  let na := f32IsNan a.1
  let nb := f32IsNan b.1
  if na && nb then decide (a.2 < b.2)
  else if na then true
  else if nb then false
  else
    let x := f32Num a.1
    let y := f32Num b.1
    if wantMin then x.lt y || (!y.lt x && decide (a.2 < b.2)) else y.lt x || (!x.lt y && decide (a.2 < b.2))

/-- The best candidate. -/
def best (wantMin : Bool) : List Cand → Option Cand
  | [] => none
  | c :: cs => match best wantMin cs with
    | none => some c
    | some o => if ranksBefore wantMin o c then some o else some c

/-- The k best in order of rank. -/
def topK : Nat → List Cand → List Cand
  | 0, _ => []
  | k + 1, cs => match best false cs with
    | none => []
    | some c => (if f32IsNan c.1 then f32Nan else c.1, c.2) :: topK k (cs.erase c)

end Sys2Proof.Machine
end

