-- ==== Sys2Proof/Machine/RowEngine.lean ====
section
/-!
DEFINITION. The row engine: request records, stat records, and one row of every operation (*Row engine and
vector unit*, R89–R114).
-/
namespace Sys2Proof.Machine
open Sys2Proof

/-! ### Request records (R94) -/

/-- A request record's fields. -/
structure ReRec where
  op : Nat
  flags : Nat
  inst : Nat
  rows : Nat
  row : Nat
  len : Nat
  srcTyp : Nat
  dstTyp : Nat
  const : Nat
  token : Option Nat
  a : Nat
  b : Nat
  c : Nat
  da : Nat
  db : Nat
  p0 : Nat
  p1 : Nat
deriving DecidableEq, Repr

def ReRec.ofBytes (bs : List Byte) : ReRec :=
  let t := leAt bs 14 2
  { op := leAt bs 0 1, flags := leAt bs 1 1, inst := leAt bs 2 2 % 1024, rows := leAt bs 4 2, row := leAt bs 6 2,
    len := leAt bs 8 2, srcTyp := leAt bs 10 1, dstTyp := leAt bs 11 1, const := leAt bs 12 1 % 16,
    token := if bitOf t 15 then some (t % 512) else none, a := leAt bs 16 8, b := leAt bs 24 8, c := leAt bs 32 8,
    da := leAt bs 40 8, db := leAt bs 48 8, p0 := leAt bs 56 4, p1 := leAt bs 60 4 }

def ReRec.first (r : ReRec) : Bool := bitOf r.flags 0
def ReRec.causal (r : ReRec) : Bool := bitOf r.flags 1
def ReRec.sense (r : ReRec) : Nat := fieldOf r.flags 2 2
def ReRec.srcType (r : ReRec) : ElemType := (ElemType.ofCode r.srcTyp).getD .fp32
def ReRec.dstType (r : ReRec) : ElemType := (ElemType.ofCode r.dstTyp).getD .fp32
def ReRec.srcBytes (r : ReRec) : Nat := r.srcType.bits / 8

/-- W (R92). -/
def ReRec.w (r : ReRec) : Nat := ceilDiv r.len 64

/-- The passes of an operation (R94). -/
def rePasses (op : Nat) : Nat :=
  if op = 1 || op = 4 || op = 5 then 3 else if op = 2 then 4 else if op = 9 || op = 12 then 1 else 2

/-- T, the processing cycles of one row (R92, R94); of a group of 64 rows for re.smax.fin. -/
def ReRec.cost (r : ReRec) : Nat :=
  if r.op = 7 then 1 else if r.op = 13 then 2 * r.w + r.p1 / 0x1000000 else r.w * rePasses r.op

/-- Bytes of input A, B and C that one row takes from the Felt, with whether the operand advances per row:
gains and biases are one row for the whole request (R94), read again for every row (DESIGN CHOICE, log 93). -/
def ReRec.inputs (r : ReRec) : List (Nat × Bool) :=
  let n := r.len * r.srcBytes
  let a := if r.a = 0 then 0 else n
  if r.op = 1 then [(n, true), (n, false), (n, false)]
  else if r.op = 2 || r.op = 4 then [(n, true), (n, true), (n, false)]
  else if r.op = 3 then [(n, true), (n, false), (0, true)]
  else if r.op = 7 then [(0, true), (0, true), (0, true)]
  else if r.op = 8 then [(a, true), (n, true), (r.srcBytes, true)]
  else if r.op = 9 then [(n, true), (n, true), (0, true)]
  else if r.op = 11 then [(a, true), (4, true), (0, true)]
  else if r.op = 12 || r.op = 13 then [(n, true), (2 * r.len, true), (0, true)]
  else [(a, true), (0, true), (0, true)]

/-- The operation takes its first input from the drain port (R93, R95). -/
def ReRec.drained (r : ReRec) : Bool := r.a == 0 && [5, 6, 8, 10, 11].contains r.op

/-- Wb (R92). -/
def ReRec.wb (r : ReRec) : Nat := ceilDiv ((r.inputs.map Prod.fst).foldl (· + ·) 0) 256

/-- A request record as the table holds it. -/
def Dev.reRecord (d : Dev) (i index : Nat) : List Byte :=
  (upTo 64).map fun k => sget 0#8 (d.island i).requests (64 * index + k)

def ReRun.fields (x : ReRun) : ReRec := ReRec.ofBytes x.record

/-! ### Stat records (R96–R98) -/

/-- The stat kind an operation works with, if any (R94). -/
def reKind (op : Nat) : Option Nat :=
  if op = 1 || op = 2 then some 0
  else if op = 3 || op = 4 then some 1
  else if op = 5 || op = 6 || op = 7 || op = 8 then some 2
  else if op = 10 || op = 11 then some 3
  else none

def statSize (kind : Nat) : Nat := if kind = 3 then 16 else 8

/-- The operation reads a stored record. -/
def ReRec.readsStat (r : ReRec) : Bool :=
  [2, 4, 7, 8, 11].contains r.op || ((r.op == 6 || r.op == 10) && !r.first)

/-- A record's place: whether it lies in the spill area, and its local address (R98). -/
def Dev.statPlace (d : Dev) (i inst kind slot row : Nat) : Option (Bool × Nat) :=
  let e := sget 0 (d.island i).statMap inst
  let ring := fieldOf e 124 118
  let ns := fieldOf e 117 111
  let first := fieldOf e 110 95
  let rows := fieldOf e 94 79 + 1
  if !bitOf e 127 || fieldOf e 126 125 != kind || decide (row < first) || decide (rows ≤ row - first) then none
  else
    let p := slot % ring
    let n := row - first
    let z := statSize kind
    if p < ns then some (false, sideBase i + fieldOf e 78 61 * 8 + (p * rows + n) * z)
    else some (true, fieldOf e 60 35 * 32 + ((p - ns) * rows + n) * z)

/-! ### Times (R92) -/

/-- The number of drain arrivals that completes row r. -/
def ReRec.arrivalsFor (x : ReRec) (r : Nat) : Nat := (x.w - 1) * x.rows + r + 1

/-- A_r where every input of row r is in the block buffer. -/
def ReRun.inputAt (x : ReRun) (r : Nat) : Option Nat :=
  let q := x.fields
  let felt : Option Nat := if q.wb = 0 then some 0
    else if x.fetched.any (fun f => f.1 == r) then some (x.start + 14 + (r + 1) * q.wb - 1) else none
  let drain : Option Nat := if q.drained then (x.arrivals[q.arrivalsFor r - 1]?).map Prod.fst else some 0
  match felt, drain with
  | some f, some a => some (max f a)
  | _, _ => none

/-- E of row r: begun when its inputs are there and the row before has ended. -/
def ReRun.endAt (x : ReRun) (inputAt : Nat) (spill : Bool) : Nat :=
  max (if inputAt = 0 then 0 else inputAt + 1) x.lastEnd + (if spill then 12 else 0) + x.fields.cost

/-! ### Inputs -/

/-- Elements of a type as FP32 values, exactly (R102); a signalling BF16 or FP16 NaN sets invalid (R17). -/
def elemsOf (t : ElemType) (n : Nat) (bs : List Byte) : Fl (List F32) :=
  let raw := leNat bs
  Fl.mapList (fun j => Fl.bind (convScalar t .fp32 (unpackBit t.bits j raw)) fun v => Fl.pure (BitVec.ofNat 32 v)) (upTo n)

/-- The first input of a row: drained segments in order (R93), or the Felt row. -/
def ReRun.rowA (x : ReRun) (r : Nat) (bs : List Byte) : Fl (List F32) :=
  let q := x.fields
  if q.drained then
    Fl.pure <| ((upTo q.w).flatMap fun s =>
      let v := (nth (0, []) x.arrivals (s * q.rows + r)).2
      (upTo 64).map fun n => nth f32Zero v n).take q.len
  else elemsOf q.srcType q.len bs

/-! ### One row -/

/-- What a row produces: outputs A and B, the record, the terms of the gain sums, faults and flags. -/
structure RowOut where
  outA : List F32
  /-- the second output, as bytes -/
  outB : Option (List Byte)
  record : Option (List Byte)
  dg : List F32
  db : List F32
  badLabel : Bool
deriving DecidableEq, Repr

def RowOut.empty : RowOut := ⟨[], none, none, [], [], false⟩

def recBytes (a b : F32) : List Byte := leBytes 4 a.toNat ++ leBytes 4 b.toNat

/-- The cross-entropy record after one block (R109). -/
def xentStat (r : ReRec) (m s : F32) (arg : Nat) (x0 : List F32) : Fl RowOut :=
  Fl.bind (scaleRow f32One (fun _ => false) x0) fun x =>
    Fl.bind (smaxBlock m s (fun _ => false) x) fun q =>
      let bm := q.2.2.2.2.1
      let pos := q.2.2.2.2.2
      let arg' := if f32IsNan m then arg
        else if f32IsNan bm || (f32Num m).lt (f32Num bm) then r.p0 + pos else arg
      Fl.pure { RowOut.empty with record := some (recBytes q.1 q.2.1 ++ leBytes 4 arg' ++ leBytes 4 0) }

/-- One row of re.xent.grad with its label (R110, R111). -/
def xentRow (r : ReRec) (g m s : F32) (label : Nat) (x : List F32) : Fl RowOut :=
  if label = 0xFFFFFFFF || r.p1 ≤ label then
    Fl.pure { RowOut.empty with
      outA := x.map fun _ => f32Zero, outB := some (leBytes 4 0), badLabel := label != 0xFFFFFFFF }
  else
    Fl.bind (xentGrad g m s r.p0 label x) fun q =>
      Fl.pure { RowOut.empty with outA := q.1, outB := q.2.map fun l => leBytes 4 l.toNat }

/-- A signalling NaN among the values of a row sets invalid (R17, R114). -/
def sigFlags (vals : List F32) : Flags := ⟨vals.any fun v => (f32Num v).isSig, false, false⟩

/-- The winner of a row as value and index (R112). -/
def wmaxRow (r : ReRec) (vals : List F32) (idxs : List Nat) : RowOut :=
  match best (r.sense == 1) (candidates r.sense r.p0 (r.p1 % 0x1000000) vals idxs) with
  | some c => { RowOut.empty with outA := [if f32IsNan c.1 then f32Nan else c.1], outB := some (leBytes 4 c.2) }
  | none =>
    { RowOut.empty with outA := [if r.sense = 1 then f32Inf else f32NegInf], outB := some (leBytes 4 0xFFFFFFFF) }

/-- The k best of a row (R113). -/
def topkRow (r : ReRec) (vals : List F32) (idxs : List Nat) : RowOut :=
  let k := r.p1 / 0x1000000
  let t := topK k (candidates 0 r.p0 (r.p1 % 0x1000000) vals idxs)
  let t := t ++ List.replicate (k - t.length) (f32NegInf, 0xFFFFFFFF)
  { RowOut.empty with outA := t.map Prod.fst, outB := some ((t.map Prod.snd).flatMap (leBytes 4)) }

/-- One row r of an operation, from its inputs, its constant and its record (R102–R113). -/
def reRow (q : ReRec) (const gScale : F32) (r : Nat) (a0 : Fl (List F32)) (bB bC : List Byte) (rec_ : List Byte) :
    Fl RowOut :=
  let t := q.srcType
  let m : F32 := BitVec.ofNat 32 (leAt rec_ 0 4)
  let s : F32 := BitVec.ofNat 32 (leAt rec_ 4 4)
  let masked (j : Nat) : Bool := q.causal && decide (q.p1 + r < q.p0 + j)
  let none_ : Fl (List F32) := Fl.pure []
  let b0 := if [1, 2, 3, 4, 8, 9].contains q.op then elemsOf t q.len bB else none_
  let c0 := if [1, 2, 4].contains q.op then elemsOf t q.len bC else if q.op = 8 then elemsOf t 1 bC else none_
  Fl.bind a0 fun a => Fl.bind b0 fun b => Fl.bind c0 fun c =>
  if q.op = 1 then Fl.bind (lnFwd const a b c) fun v =>
    Fl.pure { RowOut.empty with outA := v.1, record := some (recBytes v.2.1 v.2.2) }
  else if q.op = 2 then Fl.bind (lnBwd m s a b c) fun v =>
    Fl.pure { RowOut.empty with outA := v.1, dg := v.2, db := b }
  else if q.op = 3 then Fl.bind (rmsFwd const a b) fun v =>
    Fl.pure { RowOut.empty with outA := v.1, record := some (recBytes v.2 f32Zero) }
  else if q.op = 4 then Fl.bind (rmsBwd m a b c) fun v => Fl.pure { RowOut.empty with outA := v.1, dg := v.2 }
  else if q.op = 5 then Fl.bind (smaxFwd const masked a) fun v =>
    Fl.pure { RowOut.empty with outA := v.1, record := some (recBytes v.2.1 v.2.2) }
  else if q.op = 6 then Fl.bind (scaleRow const masked a) fun x => Fl.bind (smaxBlock m s masked x) fun v =>
    Fl.pure { RowOut.empty with
      outA := v.2.2.1, outB := some (leBytes 4 v.2.2.2.1.toNat), record := some (recBytes v.1 v.2.1) }
  else if q.op = 8 then
    Fl.bind (smaxBwd const m s (nth f32Zero c 0) masked a b) fun v =>
      Fl.pure { RowOut.empty with outA := v }
  else if q.op = 9 then Fl.bind (rowDot a b) fun v => Fl.pure { RowOut.empty with outA := [v] }
  else if q.op = 10 then xentStat q m s (leAt rec_ 8 4) a
  else if q.op = 11 then xentRow q gScale m s (leNat bB) a
  else
    let idxs := (upTo q.len).map fun j => leAt bB (2 * j) 2
    (if q.op = 12 then wmaxRow q a idxs else topkRow q a idxs, sigFlags a)

/-! ### Outputs -/

/-- The initial record of an operation that starts one (R96). -/
def initialRecord : List Byte := recBytes f32NegInf f32Zero ++ leBytes 4 0xFFFFFFFF ++ leBytes 4 0

/-- The first output's element type: FP32 where R94 fixes it. -/
def ReRec.outType (q : ReRec) : ElemType := if [7, 9, 12, 13].contains q.op then .fp32 else q.dstType

/-- Bytes that a row of n elements takes as packRow lays it out. -/
def packedBytes (t : ElemType) (n : Nat) : Nat := ceilDiv (n * t.bits) 8 + if t.isMx then ceilDiv n 32 else 0

/-- Bytes of one row of the first output (R94). -/
def ReRec.outBytesA (q : ReRec) : Nat :=
  if q.op = 10 then 0 else packedBytes q.outType (if q.op = 13 then q.p1 / 0x1000000 else if [7, 9, 12].contains q.op then 1 else q.len)

/-- Bytes of one row of the second output, where the operation gives one for each row (R94). -/
def ReRec.outBytesB (q : ReRec) : Nat :=
  if q.op = 13 then 4 * (q.p1 / 0x1000000) else if [6, 11, 12].contains q.op then 4 else 0

/-- A row of FP32 values in a type: elements, then the scales of its blocks of 32 (R39, R40). -/
def packRow (t : ElemType) (vs : List F32) : Fl (List Byte) :=
  if t == .fp32 then Fl.pure (wordBytes vs)
  else if t.isMx then
    Fl.bind (Fl.mapList (fun blk => toMxBlock t (blk.map f32Num)) (chunksOf vs.length 32 vs)) fun bl =>
      Fl.pure (leBytes (ceilDiv (vs.length * t.bits) 8) (packBits t.bits (bl.flatMap Prod.snd)) ++
        bl.flatMap fun b => leBytes 1 b.1)
  else Fl.bind (Fl.mapList (fun v => convTo t (f32Num v)) vs) fun es => Fl.pure (es.flatMap (leBytes (t.bits / 8)))

/-- Bytes written at an output address become visible at their time: scratch E + 6, Felt E + 14 (R92). An
engine write that meets a panel operation on the scratch write port is performed, and the panel's operation
is not (R122). -/
def Dev.reOutput (d : Dev) (i a : Nat) (bs : List Byte) (e : Nat) : Dev :=
  let n := bs.length
  let x : Deferred := .bits a n (leNat bs) (allOnes n)
  if n = 0 then d
  else if a < feltSize then
    ((d.crossing (Unit.island i)).feltLines i a n).schedule ⟨e + 14 + 5, 1, 8 * i, e, 9, x⟩ i
  else
    let p := (a - 0x100000000) / 0x100000
    let d := match (d.panel p).claimant .scratchWr (e + 5) with
      | some k => if k.slot = 9 then d else (d.cancel p k.issue k.slot).misuse 0x0554 p
      | none => d
    (d.modPanel p fun x => x.claim .scratchWr (e + 5) (e + 5) 0 9).schedule ⟨e + 6, 0, p, e, 9, x⟩ i

/-- Where the last of an output's bytes becomes visible. -/
def reVisible (a e : Nat) : Nat := if a < feltSize then e + 14 else e + 6

/-- The rows of one gain or bias vector on their way to the wide buffer (R104, R133). -/
def gainRows (i : Nat) (q : ReRec) (tag e start : Nat) (vs : List F32) : List Contrib :=
  (upTo q.w).map fun m =>
    ⟨128 + i, q.db + (start + m) * 256, q.p0 % 65536, tag, min 64 (q.len - 64 * m),
      (upTo 64).map (fun n => nth f32Zero vs (64 * m + n)), e + 14 + start + m, 0⟩

/-- The request leaves the engine in the cycle after its last row ended: contributions, then the completion token
(R91, R92, R104). -/
def Dev.reFinish (d : Dev) (i e : Nat) : Dev :=
  match (d.island i).running with
  | none => d
  | some x =>
    let q := x.fields
    let rows := if q.op = 4 then gainRows i q x.req.stepTag e 0 x.dg
      else if q.op = 2 then gainRows i q x.req.stepTag e 0 x.dg ++ gainRows i q x.req.stepTag e q.w x.db
      else []
    let v := if rows.isEmpty then max e x.visible else max x.visible (e + 18 + rows.length - 1)
    let d := ({ d with wide := { d.wide with inFlight := d.wide.inFlight ++ rows } }).sentRows i rows.length
    let d := d.modIsland i fun s => { s with running := none, reLastEnd := e }
    match q.token with
    | some t => d.schedule ⟨v + 3, 0, 8 * i, e, 9, .token t 1 0⟩ i
    | none => d

/-- The request x goes on to row next, or ends with the rows that end in cycle e. -/
def Dev.reNext (d : Dev) (i : Nat) (x : ReRun) (next e : Nat) : Dev :=
  let d := d.modIsland i fun s => { s with running := some x }
  if next < x.fields.rows then d else d.schedule ⟨e + 1, 0, 8 * i, e, 9, .reDone e⟩ i

/-- One term added to each gain sum (R104). -/
def addSums (acc terms : List F32) : Fl (List F32) :=
  if acc.isEmpty then Fl.mapList (fun t => f32Add f32Zero t) terms else zipFl f32Add acc terms

/-- LOSS_SCALE in force for a request's step, as the device keeps it for the steps in flight (R110, R366). -/
def Dev.lossScale (d : Dev) (req : ReReq) : F32 := BitVec.ofNat 32 (d.scaleOf req.step)

/-- The record of a row as it is read or started: its bytes. -/
def Dev.reRecordAt (d : Dev) (q : ReRec) (spot : Option (Bool × Nat)) : List Byte :=
  let z := match reKind q.op with | some k => statSize k | none => 0
  match spot with
  | some p => if q.readsStat then d.read p.2 z else initialRecord.take z
  | none => []

/-- Row r of the running request x is computed from its inputs and its record; it ends in cycle e (R92, R98). The rows
of an output lie back to back from the record's address, and the row offset of re.go, which chooses the stat record,
moves no output (DESIGN CHOICE, log 93). -/
def Dev.reCompute (d : Dev) (i : Nat) (x : ReRun) (r e : Nat) (spot : Option (Bool × Nat)) (a b c : List Byte) : Dev :=
  let q := x.fields
  let spill := q.readsStat && (match spot with | some p => p.1 | none => false)
  let const := sget f32Zero (d.island i).consts q.const
  let g := f32Mul (d.lossScale x.req) const
  let res := reRow q const g.1 r (x.rowA r a) b c (d.reRecordAt q spot)
  let o := res.1
  let packed := packRow q.outType o.outA
  let dg := if o.dg.isEmpty then Fl.pure x.dg else addSums x.dg o.dg
  let db := if o.db.isEmpty then Fl.pure x.db else addSums x.db o.db
  let fl := ((res.2.or packed.2).or (dg.2.or db.2)).or (if q.op = 11 then g.2 else Flags.none)
  let d := d.reOutput i (q.da + r * packed.1.length) packed.1 e
  let d := match o.outB with
    | some bs => d.reOutput i (q.db + r * bs.length) bs e
    | none => d
  let d := match o.record, spot with
    | some bs, some p =>
      if p.1 then d.reOutput i p.2 bs e
      else d.schedule ⟨e, 0, 8 * i, e, 9, .bits p.2 bs.length (leNat bs) (allOnes bs.length)⟩ i
    | _, _ => d
  let d := if o.badLabel then d.fault 0x0564 (Unit.island i) ((q.row + x.req.rowOff + r) % 65536) else d
  let d := d.raise (FlagUnit.rowEngine i) x.req.stepTag fl
  let d := (d.evI i 0x021 1).count (64 * i + 24) 1
  let d := if spill then d.evI i 0x023 1 else d
  let seen := max (if packed.1.isEmpty then e else reVisible q.da e) (if o.outB.isSome then reVisible q.db e else e)
  d.reNext i { x with dg := dg.1, db := db.1, visible := max x.visible seen } (r + 1) e

/-- A row that waited for its spilled record: the record is read in this bank cycle (R92, R197). -/
def Dev.reRowSpilled (d : Dev) (i r e addr : Nat) (a b c : List Byte) : Dev :=
  match (d.island i).running with
  | none => d
  | some x =>
    let z := match reKind x.fields.op with | some k => statSize k | none => 0
    (((d.meetPoison addr z (Unit.island i)).crossing (Unit.island i)).feltLines i addr z).reCompute i x r e
      (some (true, addr)) a b c

/-- The place of a row's record: none where the operation keeps no record, some none where it has no place (R98). -/
def Dev.rePlace (d : Dev) (i : Nat) (x : ReRun) (r : Nat) : Option (Option (Bool × Nat)) :=
  let q := x.fields
  (reKind q.op).map fun k => d.statPlace i q.inst k x.req.slot ((q.row + x.req.rowOff + r) % 65536)

/-- Row r of the running request, with its inputs there (R92, R98). A record held in the spill area is read so that
its bytes reach the engine when the row begins (DEDUCED, log 93). -/
def Dev.reDoRow (d : Dev) (i : Nat) (x : ReRun) (at_ : Nat) : Dev :=
  let q := x.fields
  let r := x.next
  let inputs := ((x.fetched.find? fun f => f.1 == r).map Prod.snd).getD ([], [], [])
  let x' := { x with next := r + 1, fetched := x.fetched.filter fun f => f.1 != r }
  match d.rePlace i x r with
  | some none =>
    let e := x.endAt at_ false
    (d.contractFault 0x0560 (Unit.island i) ((q.row + x.req.rowOff + r) % 65536) (.island i)).reNext i
      { x' with lastEnd := e } (r + 1) e
  | place =>
    let spot := match place with | some (some p) => some p | _ => none
    let spill := q.readsStat && (match spot with | some p => p.1 | none => false)
    let e := x.endAt at_ spill
    let x := { x' with lastEnd := e }
    match spill, spot with
    | true, some p =>
      (d.modIsland i fun s => { s with running := some x }).schedule
        ⟨e - q.cost - 8, 0, 8 * i, e, 9, .reRow r e p.2 inputs.1 inputs.2.1 inputs.2.2⟩ i
    | _, _ => d.reCompute i x r e spot inputs.1 inputs.2.1 inputs.2.2

/-- Rows of re.smax.fin that end together in cycle e: the reciprocal of every running sum (R107). -/
def Dev.reFinRows (d : Dev) (i : Nat) (x : ReRun) (first n e : Nat) : Dev :=
  let q := x.fields
  let d := ((upTo n).map (· + first)).foldl (fun d r =>
    match d.rePlace i x r with
    | some (some p) =>
      let d := if p.1 then ((d.meetPoison p.2 8 (Unit.island i)).crossing (Unit.island i)).feltLines i p.2 8 else d
      let v := fnF32 .recip (BitVec.ofNat 32 (d.readNat (p.2 + 4) 4))
      (d.reOutput i (q.da + 4 * r) (leBytes 4 v.1.toNat) e).raise (FlagUnit.rowEngine i) x.req.stepTag v.2
    | _ => d.contractFault 0x0560 (Unit.island i) ((q.row + x.req.rowOff + r) % 65536) (.island i)) d
  ((d.evI i 0x021 n).count (64 * i + 24) n).reNext i { x with visible := max x.visible (reVisible q.da e) } (first + n) e

/-- The rows of re.smax.fin whose spilled records are read in this bank cycle. -/
def Dev.reFinSpilled (d : Dev) (i first n e : Nat) : Dev :=
  match (d.island i).running with
  | none => d
  | some x => d.reFinRows i x first n e

/-- A group of up to 64 rows of re.smax.fin (R107). -/
def Dev.reDoFin (d : Dev) (i : Nat) (x : ReRun) : Dev :=
  let n := min 64 (x.fields.rows - x.next)
  let spill := ((upTo n).map (· + x.next)).any fun r => match d.rePlace i x r with | some (some p) => p.1 | _ => false
  let e := x.endAt 0 spill
  let x' := { x with next := x.next + n, lastEnd := e }
  if spill then
    (d.modIsland i fun s => { s with running := some x' }).schedule
      ⟨e - x.fields.cost - 8, 0, 8 * i, e, 9, .reFin x.next n e⟩ i
  else d.reFinRows i x' x.next n e

/-! ### The queue (R91) and the input items -/

/-- A request reaches the queue two cycles after its re.go. -/
def Dev.reAccept (d : Dev) (i : Nat) (req : ReReq) : Dev :=
  let s := d.island i
  let held := s.queue ++ (match s.running with | some x => [x.req] | none => [])
  if held.any (fun h => h.accepted == req.accepted) || 8 ≤ held.length then
    d.contractFault 0x0563 (Unit.island i) req.index (.island i)
  else (d.modIsland i fun s => { s with queue := s.queue ++ [req] }).evI i 0x020 1

/-- A drained row reaches the engine (R93). -/
def Dev.reArrive (d : Dev) (i c : Nat) (lanes : List F32) : Dev :=
  match (d.island i).running with
  | none => d.contractFault 0x0563 (Unit.island i) 0 (.island i)
  | some x =>
    let q := x.fields
    if !q.drained || q.rows * q.w ≤ x.arrivals.length then d.contractFault 0x0563 (Unit.island i) 0 (.island i)
    else d.modIsland i fun s => { s with running := some { x with arrivals := x.arrivals ++ [(c, lanes)] } }

/-- The runs of Felt bytes that row r takes, in order of delivery: inputs A, B and C in turn (DESIGN CHOICE, log 93). -/
def ReRec.runs (q : ReRec) (r : Nat) : List (Nat × Nat) :=
  let run (base k : Nat) : Nat × Nat :=
    let s := nth (0, true) q.inputs k
    (base + (if s.2 then r * s.1 else 0), s.1)
  ([run q.a 0, run q.b 1, run q.c 2]).filter fun t => t.2 != 0

/-- The input bytes of a row split between A, B and C. -/
def ReRec.split (q : ReRec) (bs : List Byte) : List Byte × List Byte × List Byte :=
  let n (k : Nat) : Nat := (nth (0, true) q.inputs k).1
  (bs.take (n 0), (bs.drop (n 0)).take (n 1), (bs.drop (n 0 + n 1)).take (n 2))

/-- The lines of row r whose first bytes reach the engine in the row's delivery cycle part are read in their bank
cycle c (R92, R197). -/
def Dev.reRead (d : Dev) (i c r part : Nat) : Dev :=
  match (d.island i).running with
  | none => d
  | some x =>
    let q := x.fields
    let total := (q.inputs.map Prod.fst).foldl (· + ·) 0
    let f := d.fetchLines i (Unit.island i) (q.runs r) (min total (256 * (part + 1))) 300 x.got
    let last := part + 1 == q.wb
    let x := if last then { x with fetched := x.fetched ++ [(r, q.split f.2)], got := [] } else { x with got := f.2 }
    let d := f.1.modIsland i fun s => { s with running := some x }
    if !last then d.schedule ⟨c + 1, 0, 8 * i, x.start, 9, .reRead r (part + 1)⟩ i
    else if r + 1 < q.rows then d.schedule ⟨c + 1, 0, 8 * i, x.start, 9, .reRead (r + 1) 0⟩ i
    else d

/-- S, when the oldest queued request starts (R91). -/
def Island.nextStart (s : Island) : Option Nat :=
  match s.queue with
  | [] => none
  | r :: _ => match s.running with
    | some _ => none
    | none => some (if s.reLastEnd = 0 then r.accepted else max r.accepted (s.reLastEnd + 1))

/-- The oldest queued request starts and its record is fetched (R91, R92). -/
def Dev.reStart (d : Dev) (i c : Nat) : Dev :=
  let s := d.island i
  match s.queue, s.nextStart with
  | r :: rest, some st =>
    if c < st || s.reFrozen then d
    else
      let x : ReRun := { req := r, start := st, record := d.reRecord i r.index, next := 0, lastEnd := st,
                         arrivals := [], fetched := [], got := [], visible := 0, dg := [], db := [] }
      let d := d.modIsland i fun s => { s with queue := rest, running := some x }
      if x.fields.wb = 0 then d
      else d.schedule ⟨st + 14 - 8, 0, 8 * i, st, 9, .reRead 0 0⟩ i
  | _, _ => d

end Sys2Proof.Machine
end

