-- ==== Sys2Proof/Machine/WideBuffer.lean ====
section
/-!
DEFINITION. The wide buffer: its tables, ordered accumulation, reorder windows and access rules, and the
weight stash (*Backward pass support*, R130–R149).
-/
namespace Sys2Proof.Machine
open Sys2Proof

/-! ### Table entries (R130–R132) -/

/-- A wide-buffer entry's fields (R131). -/
structure WbEnt where
  valid : Bool
  /-- 0 IDLE, 1 OPEN, 2 CLOSED, 3 DONE -/
  state : Nat
  rows : Nat
  base : Nat
  list : Nat
  len : Nat
  cursor : Nat
  step : Nat
  stallMax : Nat
  tokenEn : Bool
  tokenIsland : Nat
  tokenCtr : Nat
deriving DecidableEq, Repr

def WbEnt.ofWord (w : Nat) : WbEnt :=
  { valid := bitOf w 255, state := fieldOf w 254 253, rows := fieldOf w 252 237 + 1, base := fieldOf w 236 218,
    list := fieldOf w 217 189 * 4, len := fieldOf w 188 173 + 1, cursor := fieldOf w 172 156,
    step := fieldOf w 155 148, stallMax := fieldOf w 147 136, tokenEn := bitOf w 135,
    tokenIsland := fieldOf w 134 131, tokenCtr := fieldOf w 130 122 }

def wbEntAddr (region k : Nat) : Nat := wideTableBase region + 32 * k

def Dev.wbWord (d : Dev) (region k : Nat) : Nat := d.readNat (wbEntAddr region k) 32
def Dev.wbEnt (d : Dev) (region k : Nat) : WbEnt := WbEnt.ofWord (d.wbWord region k)

def regionBytes : Nat := 0x8000000
def groupBytes : Nat := 0x400000

/-- The tile that owns a Felt row: its region and index. -/
def Dev.wbFind (d : Dev) (a : Nat) : Option (Nat × Nat) :=
  let region := a / regionBytes
  let row := a % regionBytes / 256
  ((upTo 512).find? fun k =>
    let e := d.wbEnt region k
    e.valid && decide (e.base ≤ row) && decide (row < e.base + e.rows)).map fun k => (region, k)

/-- STATE, CURSOR and STEP of an entry replaced. -/
def Dev.wbSet (d : Dev) (region k state cursor step : Nat) : Dev :=
  let w := putField (putField (putField (d.wbWord region k) 253 2 state) 156 17 cursor) 148 8 step
  d.writeNat (wbEntAddr region k) 32 w

/-- A word the loader or a run-time write refuses (R132); at run time any STATE may be written and CURSOR is
checked. Overlap is checked against the region's other entries. -/
def Dev.wbRefused (d : Dev) (runTime : Bool) (region k w : Nat) : Bool :=
  let e := WbEnt.ofWord w
  let overlap := (upTo 512).any fun j => j != k &&
    (let o := d.wbEnt region j
     o.valid && e.valid && decide (o.base < e.base + e.rows) && decide (e.base < o.base + o.rows))
  fieldOf w 121 0 != 0 || (!runTime && e.state != 0) || e.rows % 4 != 0 || decide (524288 < e.base + e.rows) || overlap ||
    decide (feltSize < e.list + 2 * e.len) || (runTime && decide (e.len < e.cursor))

/-- List entry j of a tile, read from the Felt when it is needed (R131). -/
def Dev.wbId (d : Dev) (e : WbEnt) (j : Nat) : Nat := d.readNat (e.list + 2 * j) 2

/-! ### Windows (R138) -/

def rowGroup (a : Nat) : Nat := a / groupBytes

def Dev.window (d : Dev) (g : Nat) : List WindowRow := sget [] d.wide.windows g
def Dev.setWindow (d : Dev) (g : Nat) (ws : List WindowRow) : Dev :=
  { d with wide := { d.wide with windows := sset [] d.wide.windows g ws } }

/-- List entries applied to the row at an address. -/
def Dev.progress (d : Dev) (a : Nat) : Nat := sget 0 d.wide.progress (a / 256)
def Dev.setProgress (d : Dev) (a n : Nat) : Dev :=
  { d with wide := { d.wide with progress := sset 0 d.wide.progress (a / 256) n } }

/-- Rows for the same tile row and contributor that arrived before and are not yet applied. -/
def Dev.heldSame (d : Dev) (c : Contrib) (before : Nat) : Nat :=
  let same (r : Contrib) (n : Nat) : Bool := r.addr / 256 == c.addr / 256 && r.id == c.id && r.tag == c.tag && decide (n < before)
  ((d.window (rowGroup c.addr)).filter fun w => same w.row w.order).length
    + (d.wide.adders.filter fun w => same w.row w.order).length + (d.wide.stalls.filter fun w => same w.row w.order).length

/-- Occurrences of an ID in the rest of the list. -/
def Dev.occurs (d : Dev) (e : WbEnt) (id from_ : Nat) : Nat :=
  ((upTo (e.len - from_)).filter fun j => d.wbId e (from_ + j) == id).length

/-- What a row is for its OPEN tile (R137). -/
inductive RowKind where
  | expected | early | foreign
deriving DecidableEq, Repr

def Dev.rowKind (d : Dev) (e : WbEnt) (c : Contrib) (before : Nat) : RowKind :=
  let p := d.progress c.addr
  let held := d.heldSame c before
  if d.occurs e c.id p ≤ held then .foreign
  else if held = 0 && decide (p < e.len) && d.wbId e p == c.id then .expected
  else .early

/-! ### Application (R134) -/

/-- The words of a row after a contribution is applied at list place j. -/
def addContribution (j cols : Nat) (old vals : List F32) : Fl (List F32) :=
  Fl.mapList (fun n =>
    if n < cols then f32Add (if j = 0 then f32Zero else nth f32Zero old n) (nth f32Zero vals n)
    else Fl.pure (if j = 0 then f32Zero else nth f32Zero old n)) (upTo 64)

/-- A tile of a region posts to a counter in a cycle of that region's island: its own island's waits see the token two
cycles later, another island's when it has crossed (R203, R633). -/
def Dev.wbPost (d : Dev) (region island ctr cycle : Nat) : Dev :=
  if island = region then d.schedule ⟨cycle + 2, 0, 8 * region, cycle, 9, .token ctr 1 0⟩ region
  else d.sendToken false island ctr 1 none

/-- The tile after a row has passed one more list entry: CURSOR, and CLOSED with its token (R137). -/
def Dev.wbAdvance (d : Dev) (region k cycle : Nat) : Dev :=
  let e := d.wbEnt region k
  let least := (upTo e.rows).foldl (fun m r => min m (d.progress (region * regionBytes + (e.base + r) * 256))) e.len
  if least = e.len then
    let d := d.wbSet region k 2 e.len e.step
    if e.tokenEn then d.wbPost region e.tokenIsland e.tokenCtr cycle else d
  else d.wbSet region k e.state least e.step

/-- A row applied to its tile in a cycle of island i (R134, R136). -/
def Dev.wbApply (d : Dev) (i region k : Nat) (c : Contrib) (cycle : Nat) : Dev :=
  let e := d.wbEnt region k
  let j := d.progress c.addr
  let a := c.addr / 256 * 256
  let res := addContribution j c.cols (rowWords (d.read a 256)) c.vals
  let d := (d.write a (wordBytes res.1)).raise (FlagUnit.region region) e.step res.2
  let d := { d with wide := { d.wide with adder := sset 0 d.wide.adder (rowGroup a) (cycle + 1) } }
  ((d.setProgress a (j + 1)).noteEffect c.sender c.issue 0 cycle).wbAdvance region k (if i = region then cycle else (d.island region).cycle)

/-- A foreign, wrong-step or extra row is discarded and the contribution withheld (R140). -/
def Dev.wbForeign (d : Dev) (c : Contrib) : Dev := (d.fault 0x0573 Unit.felt c.addr).withhold

/-- The tile opens for a step tag: no entry is applied to any of its rows (R137). -/
def Dev.wbOpen (d : Dev) (region k tag : Nat) : Dev :=
  let e := d.wbEnt region k
  let lo := region * 524288 + e.base
  let d := { d with wide := { d.wide with progress := sclear d.wide.progress lo (lo + e.rows) } }
  d.wbSet region k 1 0 tag

/-! ### Arrival, window and stalls (R136–R139) -/

/-- A window row that may be applied now: its tile is OPEN and expects it, or was CLOSED and now is not. -/
def Dev.eligible (d : Dev) (w : WindowRow) : Bool :=
  match d.wbFind w.row.addr with
  | none => true
  | some (region, k) =>
    let e := d.wbEnt region k
    if e.state = 1 then d.rowKind e w.row w.order != .early else e.state != 2

/-- The window with a row at its place in the order of arrival. -/
def insertRow : List WindowRow → WindowRow → List WindowRow
  | [], w => [w]
  | x :: xs, w => if w.order < x.order then w :: x :: xs else x :: insertRow xs w

/-- A row takes a window place, or its sender stalls. -/
def Dev.wbHold (d : Dev) (region : Nat) (c : Contrib) (order now : Nat) : Dev :=
  let g := rowGroup c.addr
  if (d.window g).length < 8 then d.setWindow g (insertRow (d.window g) (WindowRow.mk c order))
  else
    let s : SenderStall := ⟨c, region, g, now, false, order⟩
    { d with wide := { d.wide with stalls := d.wide.stalls ++ [s] } }

/-- The island of a sender. -/
def senderIsland (sender : Nat) : Nat := if sender < 128 then islandOf sender else sender - 128

/-- An expected row of island i goes to the adders, which it reaches four cycles after its arrival (R136). -/
def Dev.wbTake (d : Dev) (i : Nat) (c : Contrib) (order now : Nat) : Dev :=
  ({ d with wide := { d.wide with adders := d.wide.adders ++ [AdderRow.mk c order now] } } : Dev).schedule
    ⟨now + 4, 0, 8 * i, now, 9, .wbRow order⟩ i

/-- In a cycle the adders of a bank group have applied a row, have a window row to apply first, or are contended for by a
row of a lower-numbered island that arrived with this one (R136, R138). -/
def Dev.adderTaken (d : Dev) (w : AdderRow) (cycle : Nat) : Bool :=
  let g := rowGroup w.row.addr
  sget 0 d.wide.adder g == cycle + 1 || (d.window g).any (fun x => d.eligible x) ||
    d.wide.adders.any fun x => rowGroup x.row.addr == g && x.entry == w.entry
      && decide (senderIsland x.row.sender < senderIsland w.row.sender)

/-- A row comes to the adders in a cycle of island i: it is applied, or waits in the window. -/
def Dev.wbRow (d : Dev) (i order cycle : Nat) : Dev :=
  match d.wide.adders.find? fun w => w.order == order with
  | none => d
  | some w =>
    let taken := d.adderTaken w cycle
    let d := { d with wide := { d.wide with adders := d.wide.adders.erase w } }
    match d.wbFind w.row.addr with
    | none => d.wbForeign w.row
    | some (region, k) =>
      if taken then d.wbHold region w.row order cycle else d.wbApply i region k w.row cycle

/-- How a row comes to its tile: from its sender, from the window, or accepted after a stall. -/
inductive Meeting where
  | arrives | fromWindow | accepted
deriving DecidableEq, Repr

/-- A row meets its tile in a cycle of island i (R137). -/
def Dev.wbMeet (d : Dev) (i : Nat) (c : Contrib) (now order : Nat) (how : Meeting) : Dev :=
  match d.wbFind c.addr with
  | none => d.wbForeign c
  | some (region, k) =>
    let e := d.wbEnt region k
    if e.state = 2 then d.wbHold region c order now
    else if e.state = 3 && e.step == c.tag then d.wbForeign c
    else
      let d := if e.state = 1 then d else d.wbOpen region k c.tag
      let e := d.wbEnt region k
      if e.step != c.tag then d.wbForeign c
      else match d.rowKind e c order, how with
        | .foreign, _ => d.wbForeign c
        | .early, _ => d.wbHold region c order now
        | .expected, .arrives => d.wbTake i c order now
        | .expected, .fromWindow => d.wbApply i region k c now
        | .expected, .accepted => d.wbHold region c order now

/-- A sender stalled at a full window issues nothing (R139). -/
def Dev.stalled (d : Dev) (sender : Nat) : Bool := d.wide.stalls.any fun s => s.row.sender == sender

def Dev.stallPeak (d : Dev) (s : SenderStall) (now : Nat) : Dev :=
  let n := min (now - s.since) 0xFFFFFFFF
  d.putB Ent.wbStallPeak (4 * s.region) 4 (max (d.getB Ent.wbStallPeak (4 * s.region) 4) n)

/-- A stalled row is accepted: its sender goes on (R139). -/
def Dev.wbAccept (d : Dev) (s : SenderStall) (now : Nat) (how : Meeting) : Dev :=
  let d := { d with wide := { d.wide with stalls := d.wide.stalls.erase s } }
  let d := if s.row.sender < 128 then d.modPanel s.row.sender fun x => { x with stallFrom := some now } else d
  (d.stallPeak s now).wbMeet (s.group / 32) s.row now s.order how

/-- The oldest stalled row of a group is accepted once a place is free. -/
def Dev.wbUnstall (d : Dev) (g now : Nat) : Dev :=
  match d.wide.stalls.find? fun s => s.group == g with
  | none => d
  | some s => if (d.window g).length < 8 then d.wbAccept s now .accepted else d

/-- The oldest row on its way from a sender arrives. -/
def Dev.wbArrive (d : Dev) (sender now : Nat) : Dev :=
  match d.wide.inFlight.find? fun c => c.sender == sender with
  | none => d
  | some c =>
    if now < c.arrival || d.stalled sender then d
    else
      let n := d.wide.arrivals
      let d := { d with wide := { d.wide with inFlight := d.wide.inFlight.erase c, arrivals := n + 1 } }
      d.wbMeet (senderIsland sender) c now n .arrives

/-- A bank group applies its oldest eligible window row, and with none the oldest stalled row that needs no place any more
(R138, R139). The cycle, the region's island's, is the one the command names: the row is in its tile at once, for
R136's four cycles are those of an arrival (DEDUCED, log 100). -/
def Dev.wbEarlyApply (d : Dev) (g now : Nat) : Dev :=
  if sget 0 d.wide.adder g = now + 1 then d
  else match (d.window g).find? fun w => d.eligible w with
    | some w =>
      let d := d.setWindow g ((d.window g).erase w)
      (d.wbMeet (g / 32) w.row now w.order .fromWindow).wbUnstall g now
    | none =>
      match d.wide.stalls.find? fun s => s.group == g && d.eligible (WindowRow.mk s.row s.order) with
      | some s => d.wbAccept s now .fromWindow
      | none => d

/-- The stall of a sender passes its tile's bound (R139). -/
def Dev.wbStallLimit (d : Dev) (sender now : Nat) : Dev :=
  match d.wide.stalls.find? fun s => s.row.sender == sender with
  | none => d
  | some s =>
    let bound := match d.wbFind s.row.addr with | some (r, k) => (d.wbEnt r k).stallMax | none => 0
    if s.faulted || now ≤ s.since + bound then d
    else
      let d := { d with wide := { d.wide with
        stalls := d.wide.stalls.map fun t => if t == s then { t with faulted := true } else t } }
      let d := d.stallPeak s now
      if sender < 128 then d.contractFault 0x0572 sender s.row.addr (.panel sender)
      else d.contractFault 0x0572 (Unit.island (sender - 128)) s.row.addr (.island (sender - 128))

/-! ### Plain access, rewriting and conversion (R141, R143) -/

/-- What a plain access does to a tile. -/
inductive WbUse where
  | read | write | rewrite | convert
deriving DecidableEq, Repr

/-- Every row has passed the same number of entries, and none waits in a window or is in the adders (R141). -/
def Dev.quiescent (d : Dev) (region k : Nat) : Bool :=
  let e := d.wbEnt region k
  let at_ (r : Nat) : Nat := region * regionBytes + (e.base + r) * 256
  let lo := region * regionBytes + e.base * 256
  let mine (c : Contrib) : Bool := decide (lo ≤ c.addr) && decide (c.addr < lo + e.rows * 256)
  (upTo e.rows).all (fun r => d.progress (at_ r) == d.progress (at_ 0)) &&
    d.wide.windows.all (fun g => g.2.all fun w => !mine w.row) && d.wide.adders.all fun w => !mine w.row

/-- The access table of R141. -/
def Dev.wbAllowed (d : Dev) (region k : Nat) (u : WbUse) : Bool :=
  let e := d.wbEnt region k
  match u with
  | .read => e.state != 1 || d.quiescent region k
  | .write => e.state == 0 || e.state == 3
  | .rewrite => e.state == 0 || e.state == 3 || (e.state == 1 && d.quiescent region k)
  | .convert => e.state == 2 || e.state == 3

/-- Every tile of a region whose rows meet [a, a + n) allows the access. -/
def Dev.wbRegionAllowed (d : Dev) (region a n : Nat) (u : WbUse) : Bool :=
  (upTo 512).all fun k =>
    let e := d.wbEnt region k
    let lo := region * regionBytes + e.base * 256
    !(e.valid && decide (lo < a + n) && decide (a < lo + e.rows * 256)) || d.wbAllowed region k u

/-- Every tile whose rows meet [a, a + n) allows the access; no access is longer than a region. -/
def Dev.wbRangeAllowed (d : Dev) (a n : Nat) (u : WbUse) : Bool :=
  let first := a / regionBytes
  let last := (a + n - 1) / regionBytes
  decide (feltSize ≤ a) || (d.wbRegionAllowed first a n u && (last == first || d.wbRegionAllowed last a n u))

/-- A 32-byte entry written at run time (R132, R141): the fault, if refused. -/
def Dev.wbRewrite (d : Dev) (region k w : Nat) : Dev × Option Nat :=
  if (d.wbEnt region k).valid && !d.wbAllowed region k .rewrite then (d, some 0x0575)
  else if d.wbRefused true region k w then (d, some 0x0574)
  else
    let d := d.writeNat (wbEntAddr region k) 32 w
    let e := WbEnt.ofWord w
    let lo := region * 524288 + e.base
    let prog := sclear d.wide.progress lo (lo + e.rows)
    let prog := if e.cursor = 0 then prog
      else (upTo e.rows).foldl (fun m r => sset 0 m (lo + r) e.cursor) prog
    ({ d with wide := { d.wide with progress := prog } }, none)

/-- A conversion has read the tile's last row: it is DONE (R143). -/
def Dev.wbConverted (d : Dev) (region k : Nat) : Dev :=
  let e := d.wbEnt region k
  d.wbSet region k 3 e.cursor e.step

/-! ### The weight stash (R145–R148) -/

def stashAddr (e : Nat) : Nat := stashBase + 8 * e
def Dev.stashWord (d : Dev) (e : Nat) : Nat := d.readNat (stashAddr e) 8
def stashRemain (w : Nat) : Nat := fieldOf w 54 39
def stashTag (w : Nat) : Nat := fieldOf w 62 55

/-- A claim that R146 refuses. -/
def stashRefused (e w : Nat) : Bool :=
  decide (64 < stashRemain w) || stashTag w % 4 != e || fieldOf w 38 0 != 0

/-- A retire post: one backward pass less, and a contribution withheld where it ran against another version (R147). -/
def Dev.stashRetire (d : Dev) (e tag p : Nat) : Dev :=
  let w := d.stashWord e
  let d := if stashTag w != tag then (d.fault 0x0576 p e).withhold else d
  if stashRemain w = 0 then d.fault 0x0577 p e
  else d.writeNat (stashAddr e) 8 (putField w 39 16 (stashRemain w - 1))

end Sys2Proof.Machine
end

