-- ==== Sys2Proof/Machine/Clock.lean ====
section
/-!
DEFINITION. An island's clock: the items of its agenda, performed in order of cycle as its time advances
(*The schedule contract* › Level 1), and what every panel command shares.
-/
namespace Sys2Proof.Machine
open Sys2Proof

/-- One item of an island's agenda, performed in its cycle. -/
def Dev.runItem (d : Dev) (i : Nat) (t : Item) : Dev :=
  let d := d.noteItem t
  match t.work with
  | .vreg p reg lanes => d.modPanel p fun x => { x with vr := vrSet x.vr reg lanes }
  | .bits a n v m => d.writeBits a n v m
  | .token ctr n poster => d.addTokens i ctr n (if poster = 0 then none else some (poster - 1))
  | .pathCycle p => d.pathCycle p t.cycle
  | .landRow p r => d.landRow p r
  | .streamRead p issue row part => d.streamRead p issue row part t.cycle
  | .bcastRead lead ch issue row part => d.bcastRead lead ch issue row part t.cycle
  | .drainRow p issue m => d.drainRow p issue m t.cycle
  | .zeroRows p mode sense row n => d.zeroRows p mode sense row n
  | .moveRow p issue row => d.moveRow p issue row t.cycle
  | .turnRow p issue row => d.turnRow p issue row t.cycle
  | .turnHalf p issue load => d.turnHalf p issue load
  | .reRead r part => d.reRead i t.cycle r part
  | .reRow r e addr a b x => d.reRowSpilled i r e addr a b x
  | .reFin first n e => d.reFinSpilled i first n e
  | .reDone e => d.reFinish i e
  | .reArrive _ lanes => d.reArrive i t.cycle lanes
  | .reAccept req => d.reAccept i req
  | .stash e tag p => d.stashRetire e tag p
  | .wbRow n => d.wbRow i n t.cycle

/-- Items due by cycle c, oldest first; fuel bounds the items of one advance. -/
def Dev.advanceGo (i c : Nat) : Nat → Dev → Dev
  | 0, d => d
  | k + 1, d =>
    match (d.island i).agenda with
    | [] => d
    | t :: rest =>
      if c < t.cycle then d
      else Dev.advanceGo i c k ((d.modIsland i fun s => { s with agenda := rest }).runItem i t)

/-- What the counters see while an island's time passes (R584, R585). -/
def Dev.passCycles (d : Dev) (i from_ len : Nat) : Dev :=
  if len = 0 then d
  else
    let s := d.island i
    let base := 64 * i
    let ps := (upTo 8).map fun k => 8 * i + k
    let held := ps.filter fun p => (d.panel p).held.isSome
    let halves (p : Nat) : Nat := bitNat (from_ < (d.panel p).half0) + bitNat (from_ < (d.panel p).half1)
    let stalls := (d.wide.stalls.filter fun t => t.row.sender / 8 == i || t.row.sender == 128 + i).length
    let windowed := (d.wide.windows.map fun g =>
      (g.2.filter fun w => w.row.sender / 8 == i || w.row.sender == 128 + i).length).foldl (· + ·) 0
    let d := (d.count (base + 16) len).eventSpan i none 0x000 1 from_ len
    let d := if s.stretch = 0 then d else (d.count (base + 17) len).eventSpan i none 0x03B 1 from_ len
    let d := d.count (base + 19) (held.length * len)
    let d := held.foldl (fun d p => d.eventSpan i (some p) 0x002 1 from_ len) d
    let d := ps.foldl (fun d p => d.eventSpan i (some p) 0x01A (halves p) from_ len) d
    let d := d.eventSpan i none 0x022 (bitNat s.running.isSome) from_ len
    let d := d.eventSpan i none 0x029 windowed from_ len
    (d.count (base + 26) (stalls * len)).eventSpan i none 0x02A stalls from_ len

/-- The island's time comes to cycle c, and everything due by then has happened. -/
def Dev.advance (d : Dev) (i c : Nat) : Dev :=
  let from_ := (d.island i).cycle
  ((Dev.advanceGo i c 1000000 d).modIsland i fun s => { s with cycle := max c s.cycle }).passCycles i from_ (c - from_)

/-- What every operation of a panel shares: a panel that is halted, frozen, fenced, stalled or held by
s.wait issues nothing;
otherwise the island's time comes to the cycle of issue (R49, R83, R139). -/
def Dev.onPanel (d : Dev) (a : At) (f : Nat → Dev → Dev) : Dev :=
  if d.canIssue a.panel && !d.stalled a.panel && (d.panel a.panel).held.isNone then
    let i := islandOf a.panel
    let c := max a.cycle (d.island i).cycle
    let d := (d.advance i c).modPanel a.panel fun x => x.prune c
    (f c d).advance i c
  else d

/-- The same for an event of an island. -/
def Dev.onIsland (d : Dev) (i cycle : Nat) (f : Nat → Dev → Dev) : Dev :=
  if i < 16 && d.clocked then
    let c := max cycle (d.island i).cycle
    (f c (d.advance i c)).advance i c
  else d

/-- Ports claimed together by an operation, or none where an earlier operation holds one (R65, R157). -/
def Panel.takePorts (x : Panel) (issue slot : Nat) (ps : List (Port × Nat × Nat)) : Option Panel :=
  if ps.any (fun q => x.portBusy q.1 q.2.1 q.2.2) then none
  else some (ps.foldl (fun x q => x.claim q.1 q.2.1 q.2.2 issue slot) x)

/-- An operation performed with its ports, or 0x0554. -/
def Dev.withPorts (d : Dev) (p issue slot : Nat) (ps : List (Port × Nat × Nat)) (f : Dev → Dev) : Dev :=
  match (d.panel p).takePorts issue slot ps with
  | some x => f (d.setPanel p x)
  | none => d.misuse 0x0554 p

/-- A completion that s.fence asks about (R187). -/
def Dev.pend (d : Dev) (p cls until_ issue : Nat) : Dev :=
  d.modPanel p fun x => { x with pendingOps := (cls, until_, issue) :: x.pendingOps }

end Sys2Proof.Machine
end

