-- ==== Sys2Proof/Machine/Matrix.lean ====
section
/-!
DEFINITION. The M-slot operations and the events of the matrix array: tiles, weight loads, streams and
drains (*Panels and the matrix array*; *Panel instruction bundles* › M slot; *Backward pass support*).
-/
namespace Sys2Proof.Machine
open Sys2Proof

/-! ### Tiles (R60–R66) -/

/-- A tile-table entry is named by an operation with rows still to be applied (R62). -/
def Panel.tileInUse (x : Panel) (e c : Nat) : Bool :=
  x.streams.any (fun s => s.tile == e) || x.drains.any (fun s => s.tile == e) ||
    x.tileBusy.any (fun t => t.1 == e && decide (c ≤ t.2)) ||
    (match x.load with | some j => j.kind == .acc && j.tile == e | none => false)

/-- mm.tile (R61, R62, R165). -/
def Dev.opTile (d : Dev) (p c e value : Nat) : Dev :=
  if tileRefused value then d.misuse 0x0552 p
  else if (d.panel p).tileInUse e c then d.misuse 0x0551 p
  else d.modPanel p fun x => { x with tiles := sset 0 x.tiles e value }

/-- The physical rows of a tile, and where they start for this operation (R60, R73). -/
def Dev.tileRows (d : Dev) (p : Nat) (t : Tile) : Nat × Nat := (d.tileBase p t, t.count)

/-- mm.zero (R66): 16 rows a cycle through the clear port, or one a cycle through the scratch write port. -/
def Dev.opZero (d : Dev) (p c e : Nat) : Dev :=
  let t := d.tile p e
  if !t.valid then d.misuse 0x0550 p
  else
    let rate := if t.mode = 3 then 1 else 16
    let n := t.count / rate
    let base := d.tileBase p t
    let port : Port := if t.mode = 3 then .scratchWr else .clear
    d.withPorts p c 0 [(port, c, c + n - 1)] fun d =>
      let d := d.modPanel p fun x =>
        { x.addTouch ⟨.zero, rowKey t.mode base, t.count, rate, c, c⟩ with tileBusy := (e, c + n - 1) :: x.tileBusy }
      let d := if t.mode = 3 then d.pend p 1 (c + n) c else d
      (upTo n).foldl (fun d k => d.clearLater p c t.mode t.sense (base + rate * k) rate (c + k)) d

/-! ### Weight loads (R52–R55, R69, R126, R167) -/

/-- The code of a weight type and term that a load may not use (R14, R34, R129). -/
def loadTypeFault (turn : Bool) (typ term : Nat) : Option Nat :=
  match ElemType.ofCode typ with
  | none => some 0x0540
  | some t =>
    if !t.operandOk then some 0x0540
    else if turn && t.isMx then some 0x0571
    else if term != 0 && t != .fp32 then some 0x0543
    else none

/-- The panel's load slot is taken in cycle c (R55). -/
def Dev.loadBusy (d : Dev) (p c : Nat) : Bool := ((d.finishLoad p c).panel p).load.isSome

/-- A load takes the slot and starts to be delivered. -/
def Dev.startLoad (d : Dev) (p c : Nat) (j : LoadJob) : Dev :=
  let d := (d.finishLoad p c).modPanel p fun x => { x with load := some j }
  if j.kind = .scratch then d.startPath p c
  else
    let d := d.crossing p
    let d := if j.kind = .turn then d.later p c 0 (c + 6) 0 (.turnHalf p c true) else d
    d.startPath p (c + 6)

def mkLoad (kind : LoadKind) (typ term c total : Nat) (src : List (Nat × Nat)) (late : Bool) : LoadJob :=
  { kind := kind, typ := typ, term := term, issue := c, left := total, total := total, got := [], src := src,
    lastByte := none, rows := [], tile := 0, half := none, late := late }

/-! ### What an operation's first access meets (R75, R82, R202, R272, R273, R436) -/

/-- What the first access of an operation of panel p reads, at address a: an error corrected and counted, a word newly
poisoned, or contents that are unspecified. The flag says that they are; none, that the operation is not performed. Which
of an operation's accesses is disturbed is the command's to say; the model takes the first (DESIGN CHOICE, log 94). -/
def Dev.meetUpset (d : Dev) (p a : Nat) (u : Upset) : Dev × Option Bool :=
  if a < feltSize then
    match u with
    | .feltCorrected => (d.feltCorrected a, some false)
    | .feltWord => (d.poisonWord (a / 8), some false)
    | .lateAccess other => (d.sentinel p a other (.panel p), some true)
    | .commandWord => (d.lostCommand p, none)
    | _ => (d, some false)
  else
    match u with
    | .corrected => (d.bump Ent.panelErrCount (8 * p) 2 1, some false)
    | .uncorrectable => (d.panelError 0x0223 p, some true)
    | .scratchWord => (d.panelError 0x0223 p, some true)
    | _ => (d, some false)

/-- An operation that reads at address a first, performed unless its command word is lost. -/
def Dev.reading (d : Dev) (p a : Nat) (u : Upset) (f : Bool → Dev → Dev) : Dev :=
  match d.meetUpset p a u with
  | (d, some late) => f late d
  | (d, none) => d

/-- A plain mm.load (R53, R54, R167). -/
def Dev.opLoad (d : Dev) (p c typ term aix : Nat) (u : Upset) : Dev :=
  match loadTypeFault false typ term with
  | some code => d.misuse code p
  | none =>
    let t := (ElemType.ofCode typ).getD .bf16
    let n := tileBytes t
    match d.operandAddr p aix 1 n 2 with
    | none => d.misuse 0x0585 p
    | some a =>
      if d.loadBusy p c then d.misuse 0x0555 p
      else
        let src := [(a.row p 0, n)]
        if a.scratch then
          d.withPorts p c 0 [(.scratchRd, c, c + ceilDiv n 256 - 1)] fun d =>
            d.reading p (a.row p 0) u fun late d => d.startLoad p c (mkLoad .scratch typ term c n src late)
        else d.reading p (a.row p 0) u fun late d => d.startLoad p c (mkLoad .plain typ term c n src late)

/-- mm.load with TURN (R126, R128, R129). -/
def Dev.opLoadTurn (d : Dev) (p c typ term aix : Nat) (u : Upset) : Dev :=
  match loadTypeFault true typ term with
  | some code => d.misuse code p
  | none =>
    if (d.addrEntry p aix).scratch && (d.addrEntry p aix).valid then d.misuse 0x0582 p
    else
      let t := (ElemType.ofCode typ).getD .bf16
      let n := 96 * t.bits / 8
      match d.operandAddr p aix 64 n 0 with
      | none => d.misuse 0x0585 p
      | some a =>
        if d.loadBusy p c then d.misuse 0x0555 p
        else d.reading p (a.row p 0) u fun late d => d.startLoad p c
          (mkLoad .turn typ term c (64 * n) ((upTo 64).map fun r => (a.row p r, n)) late)

/-- mm.load with ACC: a restore of rows of a tile (R69). It holds the clear port until its last row is written (R65). -/
def Dev.opLoadAcc (d : Dev) (p c aix e first rows : Nat) (u : Upset) : Dev :=
  if (d.addrEntry p aix).scratch && (d.addrEntry p aix).valid then d.misuse 0x0582 p
  else
    let t := d.tile p e
    if !t.valid then d.misuse 0x0550 p
    else if t.mode = 2 || t.mode = 3 then d.misuse 0x0558 p
    else if t.logical < first + rows then d.misuse 0x0553 p
    else
      let n := rows * t.per
      let row0 := d.tileBase p t + first * t.per
      match d.operandAddr p aix n 256 256 with
      | none => d.misuse 0x0585 p
      | some a =>
        if d.loadBusy p c then d.misuse 0x0555 p
        else if (d.panel p).portBusy .clear (c + 15) (c + 14 + n) then d.misuse 0x0554 p
        else
          d.reading p (a.row p 0) u fun late d =>
            let j := mkLoad .acc 0 0 c (256 * n) ((upTo n).map fun m => (a.row p m, 256)) late
            (d.modPanel p fun x => x.claim .clear (c + 15) openEnd c 0).startLoad p c
              { j with rows := (upTo n).map (· + row0), tile := e }

/-- A load reaches its completion cycle (R54, R55). -/
def Dev.evLoadComplete (d : Dev) (p c : Nat) : Dev := d.finishLoad p c

/-- mm.swap (R52, R55). -/
def Dev.opSwap (d : Dev) (p c : Nat) : Dev :=
  let d := d.finishLoad p c
  match (d.panel p).load with
  | some j => if j.kind = .acc then
      d.modPanel p fun x => { x with active := x.shadow, shadow := x.active, swapAt := c }
    else d.misuse 0x0555 p
  | none => d.modPanel p fun x => { x with active := x.shadow, shadow := x.active, swapAt := c }

/-! ### Streams (R56, R168, R169) -/

/-- Every stream of the panel has pushed its last row before a cycle. -/
def Panel.streamsEndBefore (x : Panel) (entry : Nat) : Bool :=
  x.streams.all fun s => decide (s.issue + (if s.src = 3 then 4 else 14) + (s.rows - 1) * s.spacing < entry)

/-- The code of a stream that the tile's mode rejects (R36, R37, R63): the STRICT bit into a pair tile is R37's. -/
def streamModeFault (t : Tile) (op : StreamOp) (strict arith : Bool) : Option Nat :=
  let ok : Bool := match op with
    | .add => t.mode != 2 && (!strict || t.mode == 0)
    | .max => t.mode == 2 && t.sense == 0
    | .min => t.mode == 2 && t.sense == 1
  if ok then none else if op == .add && t.mode == 1 && !arith then some 0x0543 else some 0x0558

/-- Ports of a stream of rows that enter from e0 to eN (R56, R65, R72). -/
def streamPorts (mode src c e0 eN spacing rows : Nat) (fp32 : Bool) : List (Port × Nat × Nat) :=
  (if mode = 3 then [(Port.scratchRd, e0, eN), (Port.scratchWr, e0 + 14, eN + 14)] else []) ++
    (if src = 3 then [(Port.scratchRd, c, c + (rows - 1) * spacing + bitNat fp32)] else [])

/-- mm.stream of any operation. ARITH_MODE 0x01 makes every ADD stream strict (R168). -/
def Dev.opStream (d : Dev) (p c : Nat) (op : StreamOp) (f : StreamF) (group : Nat) (bit : Bool) (term kBase : Nat) :
    Dev :=
  let x := d.panel p
  let t := d.tile p f.tile
  let arith := op == .add && d.get Ent.arithMode == 1
  let strict := bit || arith
  let entry := d.addrEntry p f.aix
  let bus := f.src == 1 || f.src == 2
  let badSrc := if bus then f.aix != 0 else entry.valid && (entry.scratch != (f.src == 3))
  match streamFieldFault (op == .add) strict group f.typ term with
  | some code => d.misuse code p
  | none =>
    let xt := (ElemType.ofCode f.typ).getD .bf16
    let n := actBytes xt
    if badSrc then d.misuse 0x0582 p
    else if !t.valid then d.misuse 0x0550 p
    else match streamModeFault t op strict arith with
      | some code => d.misuse code p
      | none =>
        if t.logical < f.first + f.rows then d.misuse 0x0553 p
        else if op != .add && decide (65535 < kBase + (if xt == .e2m1 then 192 else kOfType xt) - 1) then d.misuse 0x0559 p
        else if t.mode = 3 && f.src = 3 then d.misuse 0x0554 p
        else
          match (if bus then some (⟨false, 0, 0⟩ : Addr) else d.operandAddr p f.aix f.rows n 0) with
          | none => d.misuse 0x0585 p
          | some a =>
            let spacing := if strict then 16 else if xt == .fp32 then 2 else 1
            let e0 := c + (if f.src = 3 then 4 else 14)
            let eN := e0 + (f.rows - 1) * spacing
            if !x.streamsEndBefore e0 then d.misuse 0x0554 p
            else d.withPorts p c 0 (streamPorts t.mode f.src c e0 eN spacing f.rows (xt == .fp32)) fun d =>
              let s : StreamJob :=
                { op := op, issue := c, tile := f.tile, first := f.first, rows := f.rows, next := 0, src := f.src,
                  group := group, strict := strict, term := term, typ := f.typ, kBase := kBase,
                  addr := a.row p 0, pitch := a.pitch, spacing := spacing, fetched := [], stepTag := d.stepTag x.vslot }
              let d := d.modPanel p fun x => { x with streams := x.streams ++ [s] }
              let d := if t.mode = 3 then d.pend p 1 (eN + 15) c else d
              if bus then d
              else if f.src = 3 then d.later p c 0 c 0 (.streamRead p c 0 0)
              else (d.crossing p).later p c 0 (c + 6) 0 (.streamRead p c 0 0)

/-- The row of a channel that enters the arrays in a cycle: that of the lowest lead that drives it (R57, R58). -/
def Dev.busRow (d : Dev) (i ch entry : Nat) : Option (List Byte) :=
  let js := (d.island i).bcasts.filterMap fun j =>
    let e0 := j.issue + 14
    if j.ch = ch ∧ e0 ≤ entry ∧ (entry - e0) % j.spacing = 0 ∧ (entry - e0) / j.spacing < j.rows then
      (j.fetched.find? fun r => r.1 == (entry - e0) / j.spacing).map fun r => (j.lead, r.2)
    else none
  (js.foldl (fun (b : Option (Nat × List Byte)) q => match b with
    | some o => if q.1 < o.1 then some q else some o
    | none => some q) none).map Prod.snd

/-- A row of a tile that is read with an uncorrectable error: an accumulator's parity error, or a scratch word's of a
pass-mode tile (R80, R82). Its contents are unspecified. -/
def Dev.badRow (d : Dev) (p mode row : Nat) : Dev :=
  let f := d.freeBytes (256 * rowsPer mode)
  let d := f.1.write (rowAddr p mode row) f.2
  if mode = 3 then d.panelError 0x0223 p else d.parityError p

/-- A stream row whose source is read at address a: what the read meets, and the bytes that the row carries. -/
def Dev.rowSource (d : Dev) (p a : Nat) (bs : List Byte) (u : Upset) : Dev × List Byte :=
  match u with
  | .feltWord => ((d.poisonWord (a / 8)).meetPoison (a / 8 * 8) 8 p, bs)
  | _ =>
    match d.meetUpset p a u with
    | (d, some true) => d.freeBytes bs.length
    | (d, _) => (d, bs)

/-- The next row of the panel's oldest unfinished stream enters the array, once its bytes are there (R28). -/
def Dev.evStreamRow (d : Dev) (p c : Nat) (u : Upset) : Dev :=
  match (d.panel p).streams with
  | [] => d
  | s :: rest =>
    let row := s.next
    let entry := s.issue + (if s.src = 3 then 4 else 14) + row * s.spacing
    if c < entry then d
    else
      let bus := s.src == 1 || s.src == 2
      let got : Option (List Byte) :=
        if bus then d.busRow (islandOf p) (s.src - 1) entry else (s.fetched.find? fun r => r.1 == row).map Prod.snd
      let s' := { s with next := row + 1, fetched := s.fetched.filter fun r => r.1 != row }
      let d := d.modPanel p fun x => { x with streams := if row + 1 < s.rows then s' :: rest else rest }
      let t := d.tile p s.tile
      match got, u with
      | _, .commandWord => d.lostCommand p
      | none, _ => d.misuse 0x0556 p
      | some _, .uncorrectable => d.badRow p t.mode (d.tileBase p t + (s.first + row) * t.per)
      | some bs, u =>
        let count := t.mode == 3 && u == .corrected && s.src != 3
        let d := if count then d.bump Ent.panelErrCount (8 * p) 2 1 else d
        let g := if bus then (d, bs) else d.rowSource p (s.addr + row * s.pitch) bs u
        g.1.enterRow p s row entry g.2

/-! ### Drains (R67, R170, R171) -/

/-- The code of a drain whose type, mode or INDEX is not legal (R14, R63, R67). -/
def drainTypeFault (mode typ : Nat) (index : Bool) : Option Nat :=
  if index then (if mode = 2 then none else some 0x0558)
  else
    match ElemType.ofCode typ with
    | none => some 0x0540
    | some t =>
      if !t.drainOk then some 0x0540
      else if mode = 2 && !(t == .fp32 || t == .bf16 || t == .fp16) then some 0x0558
      else if mode = 3 && t == .pair then some 0x0558
      else none

/-- Bytes of an output row in memory (R19, R67). -/
def drainRowBytes (typ cols : Nat) (index : Bool) : Nat :=
  if index then 2 * cols
  else match ElemType.ofCode typ with
    | some t => if t.isMx then 8 * t.bits + (if 32 < cols then 2 else 1) else ceilDiv (cols * t.bits) 8
    | none => 0

/-- The roles of the two halves are exchanged, and the new fill half is cleared (R73). -/
def Dev.exchangeHalves (d : Dev) (p : Nat) (t : Tile) : Dev :=
  let d := d.modPanel p fun x => { x with fillB := !x.fillB }
  d.zeroRows p t.mode t.sense (d.tileBase p t) 1024

/-- The rows to be read, the ports and the items of a drain. -/
def Dev.startDrain (d : Dev) (p c : Nat) (t : Tile) (j : DrainJob) (first : Nat) (vert scr : Bool) : Dev :=
  let base := d.tileBase p t + first * t.per
  let n := j.rows * t.per
  let rd : Port := if t.mode = 3 then .scratchRd else .drain
  let zapPort : Port := if t.mode = 3 then .scratchWr else .clear
  let out (k : Nat) : List (Port × Nat × Nat) :=
    let port : Option Port := if vert then some .vertOut else if scr then some .scratchWr else none
    match port with
    | none => []
    | some q =>
      if t.per = 1 then [(q, c + k, c + k + n - 1)]
      else (upTo j.rows).map fun r => (q, c + k + 2 * r + 1, c + k + 2 * r + 1)
  let ports := [(rd, c + 1, c + n)] ++ (if j.zap then [(zapPort, c + 2, c + n + 1)] else []) ++ out (if vert then 14 else 6)
  let isExch := (d.panel p).pairMode && t.mode != 3
  d.withPorts p c 0 ports fun d =>
    let d := if isExch then d.exchangeHalves p t else d
    let d := d.modPanel p fun x =>
      { x.addTouch ⟨.read, rowKey t.mode base, n, 1, c + 1, c⟩ with
        drains := x.drains ++ [{ j with todo := (upTo n).map (· + base) }]
        tileBusy := (j.tile, c + n + 1) :: x.tileBusy }
    let d := if vert then d.pend p 0 (c + 14 + n - 1) c else if scr then d.pend p 1 (c + 7 + n - 1) c else d
    d.later p c 0 (c + 1) 0 (.drainRow p c 0)

/-- What a drain meets: an error of its first row, a corrected scratch word, or a first write that comes late. -/
def Dev.drainMeeting (d : Dev) (p : Nat) (t : Tile) (first : Nat) (dest : Option Nat) (u : Upset) (f : Dev → Dev) : Dev :=
  match u with
  | .uncorrectable => f (d.badRow p t.mode (d.tileBase p t + first * t.per))
  | .corrected => f (if t.mode = 3 then d.bump Ent.panelErrCount (8 * p) 2 1 else d)
  | .commandWord => d.lostCommand p
  | u => f (match dest with | some a => d.lateWrite p a (.panel p) u | none => d)

/-- mm.drain (R67, R170). -/
def Dev.opDrain (d : Dev) (p c : Nat) (f : DrainF) (u : Upset) : Dev :=
  let t := d.tile p f.tile
  let entry := d.addrEntry p f.target
  let toMem := f.dest == 1 || f.dest == 3
  if !t.valid then d.misuse 0x0550 p
  else match drainTypeFault t.mode f.typ f.index with
    | some code => d.misuse code p
    | none =>
      if t.logical < f.first + f.rows then d.misuse 0x0553 p
      else if (toMem && entry.valid && entry.scratch != (f.dest == 1)) || (f.dest == 2 && f.target != 0) ||
          (f.dest == 0 && decide (31 < f.target)) then d.misuse 0x0582 p
      else
        match (if toMem then d.operandAddr p f.target f.rows (drainRowBytes f.typ f.cols f.index) 0
               else some ⟨false, 0, 0⟩) with
        | none => d.misuse 0x0585 p
        | some a =>
          let dest : DrainDest := if f.dest = 0 then .vector f.target else if f.dest = 2 then .rowEngine
            else .memory a.scratch (a.row p 0) a.pitch
          let j : DrainJob :=
            { issue := c, tile := f.tile, mode := t.mode, sense := t.sense, first := f.first, rows := f.rows,
              cols := f.cols, typ := f.typ, zap := f.zap, index := f.index, dest := dest, todo := [], done := 0,
              stepTag := d.stepTag (d.panel p).vslot }
          d.drainMeeting p t f.first (if toMem then some (a.row p 0) else none) u fun d =>
            d.startDrain p c t j f.first (f.dest == 3) (f.dest == 1)

/-- mm.drain with WB (R133, R171). -/
def Dev.opDrainWb (d : Dev) (p c : Nat) (f : DrainWbF) (u : Upset) : Dev :=
  let t := d.tile p f.tile
  let entry := d.addrEntry p f.aix
  if !t.valid then d.misuse 0x0550 p
  else if t.mode = 1 || t.mode = 2 then d.misuse 0x0558 p
  else if t.logical < f.first + f.rows then d.misuse 0x0553 p
  else if entry.valid && (entry.pitch != 256 || entry.scratch) then d.misuse 0x0582 p
  else
    match d.operandAddr p f.aix f.rows 256 256 with
    | none => d.misuse 0x0585 p
    | some a =>
      if (upTo f.rows).any fun r => (d.wbFind (a.row p r)).isNone then d.misuse 0x0582 p
      else
        let id := if f.cadd then (f.contrib + sget 0 (d.panel p).its f.clevel) % 65536 else f.contrib
        let j : DrainJob :=
          { issue := c, tile := f.tile, mode := t.mode, sense := t.sense, first := f.first, rows := f.rows,
            cols := f.cols, typ := 0, zap := f.zap, index := false, dest := .wide (a.row p 0) id, todo := [],
            done := 0, stepTag := d.stepTag (d.panel p).vslot }
        d.drainMeeting p t f.first none u fun d => d.startDrain p c t j f.first true false

end Sys2Proof.Machine
end

