-- ==== Sys2Proof/Machine/Vector.lean ====
section
/-!
DEFINITION. The vector unit's operations and re.go (*Row engine and vector unit*, R115–R120; *Panel
instruction bundles* › V slot).
-/
namespace Sys2Proof.Machine
open Sys2Proof

/-- A source: a register's lanes, or a constant in every lane (R116, R173). -/
def Panel.source (x : Panel) : VSrc → List F32
  | .reg n => x.vreg n
  | .const n => List.replicate 64 (sget f32Zero x.vconst n)

/-- The result of a vector operation is written at issue + latency; its events go to the set of VSLOT's step
(R117). -/
def Dev.vuWrite (d : Dev) (p c latency dst : Nat) (res : Fl (List F32)) : Dev :=
  let tag := d.stepTag (d.panel p).vslot
  (d.later p c 1 (c + latency) 0 (.vreg p dst res.1)).raise (FlagUnit.panel p) tag res.2

/-- An operation on each lane of one source. -/
def Dev.opVu1 (d : Dev) (p c latency dst : Nat) (a : VSrc) (f : F32 → Fl F32) : Dev :=
  d.vuWrite p c latency dst (Fl.mapList f ((d.panel p).source a))

/-- An operation on each lane of two sources. -/
def Dev.opVu2 (d : Dev) (p c latency dst : Nat) (a b : VSrc) (f : F32 → F32 → Fl F32) : Dev :=
  d.vuWrite p c latency dst (zipFl f ((d.panel p).source a) ((d.panel p).source b))

/-- vu.fma (R36, R116). -/
def Dev.opFma (d : Dev) (p c dst : Nat) (a b e : VSrc) : Dev :=
  let x := d.panel p
  d.vuWrite p c 4 dst (Fl.mapList (fun q => f32Fma q.1 q.2.1 q.2.2)
    ((x.source a).zip ((x.source b).zip (x.source e))))

/-- The two blocks that vu.cvt forms for an MX type (R40, R173). -/
def cvtMx (t : ElemType) (vs : List F32) : Fl (List F32) :=
  Fl.bind (Fl.mapList (fun b => toMxBlock t (((vs.drop (32 * b)).take 32).map f32Num)) [0, 1]) fun bl =>
    Fl.mapList (fun x => f32Of x) (bl.flatMap fun b => b.2.map (mxValue t b.1))

/-- Lanes rounded to a type and returned as FP32 values (R116). -/
def cvtLanes (t : ElemType) (vs : List F32) : Fl (List F32) :=
  if t.isMx then cvtMx t vs
  else Fl.mapList (fun v => Fl.bind (convScalar .fp32 t v.toNat) fun b =>
    Fl.bind (convScalar t .fp32 b) fun w => Fl.pure (BitVec.ofNat 32 w)) vs

/-- The exact FP32 value of a split term (R34). -/
def termValue (term : Nat) (v : F32) : F32 := BitVec.ofNat 32 (splitTerm term v * 65536)

/-- vu.cvt (R116, R173). -/
def Dev.opCvt (d : Dev) (p c dst : Nat) (a : VSrc) (typ term : Nat) : Dev :=
  let vs := (d.panel p).source a
  if (ElemType.ofCode typ).isNone then d.misuse 0x0540 p
  else if term ≠ 0 then
    if typ ≠ 1 then d.misuse 0x0582 p
    else d.vuWrite p c 4 dst (Fl.pure (vs.map (termValue term)))
  else match ElemType.ofCode typ with
    | some t => if t.is16 || t.isMx then d.vuWrite p c 4 dst (cvtLanes t vs) else d.contractFault 0x0580 p 0 (.panel p)
    | none => d.misuse 0x0540 p

/-- dy × f′(x), the derivative correctly rounded first (R116). -/
def derivMul (f : Fn) (x dy : F32) : Fl F32 := Fl.bind (fnF32 f x) fun v => f32Mul dy v

/-! ### Dropout (R119, R120) -/

def dropRound (k x : Nat) : Nat :=
  let x := (xor64 x (x >>> 32) * 0x9FB21C651E98DF25) % 2 ^ 64
  let x := xor64 x (x >>> 29)
  (x + k) % 2 ^ 64

/-- The 24-bit number of an element. -/
def dropNumber (seed step slot site e : Nat) : Nat :=
  let k := xor64 seed (step * 0xA24BAED4963EE407 % 2 ^ 64)
  let x := xor64 (site <<< 48 + slot <<< 42 + e) k
  dropRound k (dropRound k (dropRound k x)) >>> 40

/-- vu.drop (R119, R120, R174): A must name a register, B and C constants. -/
def Dev.opDrop (d : Dev) (p c dst : Nat) (a b e : VSrc) (site : Nat) : Dev :=
  match a, b, e with
  | .reg n, .const i, .const j =>
    let x := d.panel p
    let tau := (sget f32Zero x.vconst i).toNat % 0x1000000
    let kappa := sget f32Zero x.vconst j
    let tag := d.stepTag x.vslot
    let res := Fl.mapList (fun q =>
      if dropNumber (d.get Ent.jobSeed) tag x.vslot site ((x.ectr + q.1) % 2 ^ 42) < tau then Fl.pure f32Zero
      else f32Mul q.2 kappa) ((upTo 64).zip (x.vreg n))
    (d.vuWrite p c 6 dst res).modPanel p fun y => { y with ectr := (x.ectr + 64) % 2 ^ 42 }
  | _, _, _ => d.misuse 0x0582 p

/-- vu.eset (R116, R175). -/
def Dev.opEset (d : Dev) (p slot rownum : Nat) : Dev :=
  d.modPanel p fun x => { x with vslot := slot % 64, ectr := 64 * rownum % 2 ^ 42 }

/-! ### Loads and stores (R116, R175) -/

/-- The code of a TYPE that vu.ld and vu.st do not take: a reserved type code (R14), or another that the format does not
list (R159, R175). -/
def vuTypeFault (typ : Nat) : Nat := if (ElemType.ofCode typ).isNone then 0x0540 else 0x0580

/-- Element bytes of a vu.ld or vu.st type: FP32, BF16 or FP16. -/
def vuElem (typ : Nat) : Option (ElemType × Nat) :=
  if typ = 0 then some (.fp32, 4) else if typ = 1 then some (.bf16, 2) else if typ = 2 then some (.fp16, 2) else none

/-- vu.ld: 64 elements of scratch, exact to FP32; a signalling NaN sets invalid (R17, R117). -/
def Dev.opLd (d : Dev) (p c dst aix row typ : Nat) (u : Upset) : Dev :=
  match vuElem typ with
  | none => d.contractFault (vuTypeFault typ) p 0 (.panel p)
  | some (t, es) =>
    let e := d.addrEntry p aix
    if e.valid && !e.scratch then d.misuse 0x0582 p
    else match d.rowOperand p aix row (64 * es) (64 * es) with
      | none => d.misuse 0x0585 p
      | some (_, a) =>
        d.withPorts p c 1 [(.scratchRd, c, c)] fun d =>
          d.reading p a u fun late d =>
            let got := if late then d.freeBytes (64 * es) else (d, d.read a (64 * es))
            got.1.vuWrite p c 4 dst (elemsOf t 64 got.2)

/-- vu.st: 64 lanes to scratch (visible from issue + 2) or to the Felt (issue + 14), converted by R39. -/
def Dev.opSt (d : Dev) (p c src aix row typ : Nat) (u : Upset) : Dev :=
  match vuElem typ with
  | none => d.contractFault (vuTypeFault typ) p 0 (.panel p)
  | some (t, es) =>
    match d.rowOperand p aix row (64 * es) (64 * es) with
    | none => d.misuse 0x0585 p
    | some (scr, a) =>
      let port : Port × Nat × Nat := if scr then (.scratchWr, c + 1, c + 1) else (.vertOut, c + 14, c + 14)
      d.withPorts p c 1 [port] fun d =>
        let x := d.panel p
        let res := Fl.mapList (fun v => convScalar .fp32 t v.toNat) (x.vreg src)
        let bs := res.1.flatMap (leBytes es)
        let v := if scr then c + 2 else c + 14
        let d := ((d.lateWrite p a (.panel p) u).writeLater p c 1 a bs.length (leNat bs) (allOnes bs.length) v).raise
          (FlagUnit.panel p) (d.stepTag x.vslot) res.2
        d.pend p (if scr then 1 else 0) v c

/-- re.go (R91, R176): the request reaches the queue two cycles later. Its events go to the set of its own slot's
step, as R114 has it; R163 names VSLOT's (DEDUCED, log 92). -/
def Dev.opReGo (d : Dev) (p c req slot rowOff : Nat) : Dev :=
  d.later p c 1 (c + 2) (10 + p % 8)
    (.reAccept ⟨p, c + 2, req, slot, rowOff, d.stepTag slot, d.slotStep slot⟩)

end Sys2Proof.Machine
end

