-- ==== Sys2Proof/Machine/Move.lean ====
section
/-!
DEFINITION. The X-slot operations: moves, turns and broadcasts (*Panel instruction bundles* › X slot;
*Backward pass support* › The turn buffer; R57, R58).
-/
namespace Sys2Proof.Machine
open Sys2Proof

/-- x.move (R177, R178). -/
def Dev.opMove (d : Dev) (p c : Nat) (f : MoveF) (u : Upset) : Dev :=
  let es := d.addrEntry p f.saix
  let ed := d.addrEntry p f.daix
  if es.valid && ed.valid && !es.scratch && !ed.scratch then d.misuse 0x0582 p
  else
    match d.operandAddr p f.saix f.rows f.bytes 0, d.operandAddr p f.daix f.rows f.bytes 0 with
    | some a, some b =>
      let n := f.rows
      let ports : List (Port × Nat × Nat) :=
        if a.scratch then
          [(.scratchRd, c, c + n - 1),
           if b.scratch then (.scratchWr, c + 5, c + 5 + n - 1) else (.vertOut, c + 15, c + 15 + n - 1)]
        else []
      d.withPorts p c 2 ports fun d =>
        (if a.scratch then d.lateWrite p (b.row p 0) (.panel p) u else d).reading p (a.row p 0) u fun late d =>
        let j : MoveJob :=
          { issue := c, turn := false, srcScratch := a.scratch, dstScratch := b.scratch, rowBytes := f.bytes, rows := n,
            src := a.row p 0, srcPitch := a.pitch, dst := b.row p 0, dstPitch := b.pitch,
            left := if a.scratch then 0 else n * f.bytes, got := [], token := f.token, half := none,
            elemBytes := 1, late := late }
        let d := d.modPanel p fun x => { x with moves := x.moves ++ [j] }
        if a.scratch then
          (d.pend p (if b.scratch then 1 else 0) ((if b.scratch then c + 6 else c + 15) + n - 1) c).later p c 2 c 0
            (.moveRow p c 0)
        else (d.crossing p).startPath p (c + 6)
    | _, _ => d.misuse 0x0585 p

/-- x.turn (R127–R129, R179). -/
def Dev.opTurn (d : Dev) (p c saix daix typ : Nat) (token : Option Nat) (u : Upset) : Dev :=
  match ElemType.ofCode typ with
  | none => d.misuse 0x0540 p
  | some t =>
    if t.isMx then d.misuse 0x0571 p
    else if !(t == .fp32 || t.is16) then d.contractFault 0x0580 p 0 (.panel p)
    else if (d.addrEntry p saix).valid && (d.addrEntry p saix).scratch then d.misuse 0x0582 p
    else
      let es := t.bits / 8
      match d.operandAddr p saix 96 (64 * es) 0, d.operandAddr p daix 64 (96 * es) 0 with
      | some a, some b =>
        d.reading p (a.row p 0) u fun late d =>
        let j : MoveJob :=
          { issue := c, turn := true, srcScratch := false, dstScratch := b.scratch, rowBytes := 64 * es, rows := 96,
            src := a.row p 0, srcPitch := a.pitch, dst := b.row p 0, dstPitch := b.pitch, left := 96 * 64 * es,
            got := [], token := token, half := none, elemBytes := es, late := late }
        let d := (d.crossing p).modPanel p fun x => { x with moves := x.moves ++ [j] }
        (d.later p c 2 (c + 6) 0 (.turnHalf p c false)).startPath p (c + 6)
      | _, _ => d.misuse 0x0585 p

/-- x.bcast (R57, R58, R179). -/
def Dev.opBcast (d : Dev) (p c ch aix rows typ : Nat) (u : Upset) : Dev :=
  match ElemType.ofCode typ with
  | none => d.misuse 0x0540 p
  | some t =>
    if !t.operandOk then d.misuse 0x0540 p
    else if (d.addrEntry p aix).valid && (d.addrEntry p aix).scratch then d.misuse 0x0582 p
    else match d.operandAddr p aix rows (actBytes t) 0 with
      | none => d.misuse 0x0585 p
      | some a =>
        d.reading p (a.row p 0) u fun late d =>
        let j : BcastJob :=
          { lead := p, ch := ch, issue := c, addr := a.row p 0, pitch := a.pitch, rows := rows, typ := typ,
            spacing := if t == .fp32 then 2 else 1, fetched := [], late := late }
        let old (b : BcastJob) : Bool := decide (c ≤ b.issue + 14 + b.rows * b.spacing + 65536)
        let d := (d.crossing p).modIsland (islandOf p) fun i => { i with bcasts := i.bcasts.filter old ++ [j] }
        (d.noteEffect p c 2 (c + 14 + (rows - 1) * j.spacing)).later p c 2 (c + 6) 0 (.bcastRead p ch c 0 0)

end Sys2Proof.Machine
end

