-- ==== Sys2Proof/Machine/Sequencer.lean ====
section
/-!
DEFINITION. The sequencer: bundle decoding and issue, tokens and waits, loops, beat alarms, fences, counters,
halt, and precise samples (*Panel instruction bundles*, R152–R192; R206, R207, R220; R596, R597).
-/
namespace Sys2Proof.Machine
open Sys2Proof

/-! ### Decoded operations (R164–R189) -/

inductive MOp where
  | tile (e value : Nat)
  | zero (e : Nat)
  | load (typ term aix : Nat)
  | loadTurn (typ term aix : Nat)
  | loadAcc (aix e first rows : Nat)
  | swap
  | stream (op : StreamOp) (f : StreamF) (group : Nat) (strict : Bool) (term kBase : Nat)
  | drain (f : DrainF)
  | drainWb (f : DrainWbF)
  | refused
deriving DecidableEq, Repr

/-- The elementwise operations of the register format (R116, R172). -/
inductive VuOp where
  | add | sub | mul | max | min | fma | abs | neg | mov | exp | log | recip | rsqrt | gelut | gelue | silu
  | dgelut | dgelue | dsilu
deriving DecidableEq, Repr

inductive VOp where
  | vu (op : VuOp) (dst : Nat) (a b c : VSrc)
  | cvt (dst : Nat) (a : VSrc) (typ term : Nat)
  | drop (dst : Nat) (a b c : VSrc) (site : Nat)
  | eset (slot rownum : Nat)
  | ld (dst aix row typ : Nat)
  | st (src aix row typ : Nat)
  | reGo (req slot rowOff : Nat)
deriving DecidableEq, Repr

inductive XOp where
  | move (f : MoveF)
  | turn (saix daix typ : Nat) (token : Option Nat)
  | bcast (ch aix rows typ : Nat)
deriving DecidableEq, Repr

inductive SOp where
  | postToken (island ctr amount : Nat)
  | postStash (entry tag amount : Nat)
  | wait (f : WaitF)
  | loop (level start count : Nat)
  | beat (basis : Bool) (alarm ctr beat : Nat)
  | fence (classes : Nat)
  | tally (ctrsel aix row : Nat)
  | halt (code : Nat)
deriving DecidableEq, Repr

/-! ### Performing an operation -/

def Dev.runM (d : Dev) (p c : Nat) (u : Upset) : MOp → Dev
  | .tile e v => d.opTile p c e v
  | .zero e => d.opZero p c e
  | .load t term aix => d.opLoad p c t term aix u
  | .loadTurn t term aix => d.opLoadTurn p c t term aix u
  | .loadAcc aix e first rows => d.opLoadAcc p c aix e first rows u
  | .swap => d.opSwap p c
  | .stream op f g strict term kb => d.opStream p c op f g strict term kb
  | .drain f => d.opDrain p c f u
  | .drainWb f => d.opDrainWb p c f u
  | .refused => d.misuse 0x0582 p

def Dev.runVu (d : Dev) (p c : Nat) (op : VuOp) (dst : Nat) (a b e : VSrc) : Dev :=
  match op with
  | .add => d.opVu2 p c 4 dst a b f32Add
  | .sub => d.opVu2 p c 4 dst a b f32Sub
  | .mul => d.opVu2 p c 4 dst a b f32Mul
  | .max => d.opVu2 p c 4 dst a b (f32MaxMin false)
  | .min => d.opVu2 p c 4 dst a b (f32MaxMin true)
  | .fma => d.opFma p c dst a b e
  | .abs => d.opVu1 p c 4 dst a fun v => Fl.pure (f32Abs v)
  | .neg => d.opVu1 p c 4 dst a fun v => Fl.pure (f32Neg v)
  | .mov => d.opVu1 p c 4 dst a Fl.pure
  | .exp => d.opVu1 p c 10 dst a (fnF32 .exp)
  | .log => d.opVu1 p c 10 dst a (fnF32 .log)
  | .recip => d.opVu1 p c 10 dst a (fnF32 .recip)
  | .rsqrt => d.opVu1 p c 10 dst a (fnF32 .rsqrt)
  | .gelut => d.opVu1 p c 10 dst a (fnF32 .gelut)
  | .gelue => d.opVu1 p c 10 dst a (fnF32 .gelue)
  | .silu => d.opVu1 p c 10 dst a (fnF32 .silu)
  | .dgelut => d.opVu2 p c 12 dst a b (derivMul .dgelut)
  | .dgelue => d.opVu2 p c 12 dst a b (derivMul .dgelue)
  | .dsilu => d.opVu2 p c 12 dst a b (derivMul .dsilu)

/-- The elementary and activation operations that event 0x011 counts (R584). -/
def VuOp.elementary : VuOp → Bool
  | .exp | .log | .recip | .rsqrt | .gelut | .gelue | .silu | .dgelut | .dgelue | .dsilu => true
  | .add | .sub | .mul | .max | .min | .fma | .abs | .neg | .mov => false

def Dev.runV (d : Dev) (p c : Nat) (u : Upset) : VOp → Dev
  | .vu op dst a b e => (if op.elementary then d.ev p 0x011 1 else d).runVu p c op dst a b e
  | .cvt dst a t term => d.opCvt p c dst a t term
  | .drop dst a b e site => d.opDrop p c dst a b e site
  | .eset slot rn => d.opEset p slot rn
  | .ld dst aix row t => d.opLd p c dst aix row t u
  | .st src aix row t => d.opSt p c src aix row t u
  | .reGo req slot off => d.opReGo p c req slot off

def Dev.runX (d : Dev) (p c : Nat) (u : Upset) : XOp → Dev
  | .move f => d.opMove p c f u
  | .turn s t typ tok => d.opTurn p c s t typ tok u
  | .bcast ch aix rows typ => d.opBcast p c ch aix rows typ u

/-! ### Tokens (R181–R183, R147) -/

def Dev.opPostToken (d : Dev) (p c i ctr n : Nat) : Dev :=
  if n = 0 then d.misuse 0x0582 p
  else if i = islandOf p then d.later p c 3 (c + 2) 0 (.token ctr n (p + 1))
  else (d.noteEffect p c 3 (c + 40)).sendToken false i ctr n (some p)

def Dev.opPostStash (d : Dev) (p c e tag n : Nat) : Dev :=
  if n ≠ 1 then d.misuse 0x0582 p else d.later p c 3 (c + 2) 0 (.stash e tag p)

/-- Nanoseconds of n Tree cycles of an island, at its stretch code (R1, R215). -/
def Dev.cyclesNs (d : Dev) (i n : Nat) : Nat :=
  n * 16 * (if d.pat.grade = 2 then 800 else 625) / (1000 * (16 - (d.island i).stretch))

/-- What is left of a counter for a panel's wait once the lower-numbered panels' waits are served (R183). -/
def Dev.leftFor (d : Dev) (p ctr : Nat) : Nat :=
  ((upTo (p % 8)).map (· + p / 8 * 8)).foldl (fun left q =>
    match (d.panel q).held with
    | some h => if h.ctr = ctr ∧ h.n ≤ left then left - h.n else left
    | none => left) (d.tokens (islandOf p) ctr)

/-- A wait is served: its tokens are taken, and its slack and latency are recorded (R182, R215, R587). -/
def Dev.serveWait (d : Dev) (p c due base : Nat) (f : WaitF) (beats : Nat) : Dev :=
  let i := islandOf p
  let d := d.modIsland i fun x => { x with tokens := sset 0 x.tokens f.ctr (sget 0 x.tokens f.ctr - f.n) }
  let d := d.hist (6 + i) (d.cyclesNs i (c - due) - (d.frozenTime - base) / 65536)
  if f.unit = 3 then
    let sl : Int := (f.maxWait : Int) - (beats : Int)
    { d with contract := { d.contract with slack := some (match d.contract.slack with | some o => min o sl | none => sl) } }
  else d

/-- The step-entry address and token counter of a panel (R225). -/
def Dev.stepEntry (d : Dev) (p : Nat) : Nat := fieldOf (sget 0 d.pat.panelTable p) 28 16
def Dev.stepCtr (d : Dev) (p : Nat) : Nat := fieldOf (sget 0 d.pat.panelTable p) 40 32

/-- Panels of the mask that count for late-mode exit and run end: those not stopped by s.halt (R189, R220). -/
def Dev.livePanels (d : Dev) : List Nat :=
  (upTo 128).filter fun p => d.inMask p && !((d.panel p).halted && !(d.panel p).haltedByFault)

/-- A panel came to its step entry on time, and the step that it begins there is later than the one in which the device
became late (R220). -/
def Dev.caughtUp (d : Dev) (p : Nat) : Bool :=
  (d.panel p).stepEntryReached && decide (d.contract.lateStep + 1 < (d.panel p).entryStep)

/-- The device leaves late mode once every panel has reached its step entry on time (R220). -/
def Dev.lateExit (d : Dev) : Dev :=
  if d.lateMode && d.livePanels.all d.caughtUp then d.put Ent.lateStatus (setBit (d.get Ent.lateStatus) 0 false) else d

/-- The panel's bundle at addr, with a wait on ctr, is due: where it is the step-entry bundle, it is on time while the
start beat of the step that it begins is still to be observed (R220). -/
def Dev.reachEntry (d : Dev) (p addr ctr : Nat) : Dev :=
  let x := d.panel p
  if addr = d.stepEntry p && ctr = d.stepCtr p && x.rem.isNone then
    (d.modPanel p fun x => { x with
      stepEntryReached := decide (d.contract.nextStep ≤ x.entryStep), entryStep := x.entryStep + 1 }).lateExit
  else d

/-- A wait that its counter does not cover yet is held. -/
def Dev.holdWait (d : Dev) (p c : Nat) (f : WaitF) (bundle : Option Nat) : Dev :=
  d.modPanel p fun x => { x with held := some ⟨c, f.ctr, f.n, f.unit, f.maxWait, 0, bundle, false, d.frozenTime⟩ }

/-- An s.wait sent as a command of its own. -/
def Dev.opWait (d : Dev) (p c : Nat) (f : WaitF) : Dev :=
  if f.n = 0 then d.misuse 0x0582 p
  else if f.n ≤ d.leftFor p f.ctr then d.serveWait p c c d.frozenTime f 0
  else d.holdWait p c f none

/-! ### Loops, alarms, fences, counters, halt (R184–R189) -/

/-- s.loop at address a: the counter and the next fetch address. -/
def Dev.opLoop (d : Dev) (p a level start count : Nat) : Dev :=
  d.modPanel p fun x =>
    let n := sget 0 x.its level
    if n < count then { x with its := sset 0 x.its level (n + 1), pc := start }
    else { x with its := sset 0 x.its level 0, pc := (a + 1) % 8192 }

/-- The start beat of a step (R210). -/
def Dev.startBeat (d : Dev) (step : Nat) : Int :=
  (d.pat.startBeat : Int) + ((step : Int) + (d.pat.rebased : Int) - (d.pat.firstStep : Int)) * (d.pat.stepBeats : Int)

/-- Lateness enters LATE_STATUS and the limit of R221. -/
def Dev.addLateness (d : Dev) (n : Nat) : Dev :=
  let d := d.put Ent.lateStatus (putField (d.get Ent.lateStatus) 8 8 (max (fieldOf (d.get Ent.lateStatus) 15 8) (min n 255)))
  { d with contract := { d.contract with lateness := max d.contract.lateness n } }

/-- s.beat (R186). -/
def Dev.opBeat (d : Dev) (p c : Nat) (basis : Bool) (alarm ctr beat : Nat) : Dev :=
  let x := d.panel p
  let armed := if alarm = 0 then x.alarm0 else x.alarm1
  let target : Int := if basis then (d.pat.startBeat : Int) + (beat : Int) else d.startBeat d.step + (beat : Int)
  let now : Int := (d.get Ent.logicalBeat : Nat)
  if armed.isSome then d.misuse 0x0582 p
  else if target ≤ now then
    let d := d.later p c 3 (c + 4) 0 (.token ctr 1 (p + 1))
    (d.addLateness (now - target).toNat).contractFault 0x0583 p ctr (.panel p)
  else
    let a : Alarm := ⟨ctr, target.toNat⟩
    d.modPanel p fun x => if alarm = 0 then { x with alarm0 := some a } else { x with alarm1 := some a }

/-- An armed alarm posts in the cycle in which its beat is observed (R186, R633). -/
def Dev.fireAlarm (d : Dev) (p c alarm : Nat) : Dev :=
  let x := d.panel p
  match (if alarm = 0 then x.alarm0 else x.alarm1) with
  | none => d
  | some a =>
    if d.get Ent.logicalBeat < a.beat then d
    else (d.modPanel p fun x => if alarm = 0 then { x with alarm0 := none } else { x with alarm1 := none }).postOwn p a.ctr c

/-- Operations of a class that the panel issued before cycle c and that are not complete then (R187). -/
def Dev.incomplete (d : Dev) (p c cls : Nat) : Bool :=
  let x := d.panel p
  let timed := x.pendingOps.any fun o => o.1 == cls && decide (c < o.2.1) && decide (o.2.2 < c)
  let moving (scr : Bool) : Bool := x.moves.any fun m => m.dstScratch == scr && decide (m.issue < c)
  let s := d.island (islandOf p)
  let asked (r : ReReq) : Bool := r.panel == p && decide (r.accepted < c + 2)
  if cls = 0 then
    timed || moving false || d.wide.inFlight.any (fun r => r.sender == p) || d.wide.adders.any (fun w => w.row.sender == p) ||
      d.stalled p || d.wide.windows.any fun g => g.2.any fun w => w.row.sender == p
  else if cls = 1 then timed || moving true
  else if cls = 2 then
    s.queue.any asked || (match s.running with | some r => asked r.req | none => false) ||
      s.agenda.any fun t => match t.work with | .reAccept r => asked r | _ => false
  else match ((d.finishLoad p c).panel p).load with
    | some j => decide (j.issue < c)
    | none => false

/-- s.fence (R187). -/
def Dev.opFence (d : Dev) (p c classes : Nat) : Dev :=
  if (upTo 4).any fun k => bitOf classes k && d.incomplete p c k then d.misuse 0x0587 p else d

/-- s.tally (R188, R591): its own island's counters as they stand, other numbers through the shadow. -/
def Dev.opTally (d : Dev) (p c n aix row : Nat) : Dev :=
  let e := d.addrEntry p aix
  if e.valid && !e.scratch then d.misuse 0x0582 p
  else match d.rowOperand p aix row 8 8 with
    | none => d.misuse 0x0585 p
    | some (_, a) =>
      d.withPorts p c 3 [(.scratchWr, c + 3, c + 3)] fun d =>
        let i := islandOf p
        let closed := match tallyGroup n with | some g => !bitOf (d.get Ent.tallyOpen) g | none => false
        let v := if closed then 2 ^ 64 - 1 else if n / 64 = i then d.counter n else sget 0 d.tally.shadows (i * 4096 + n)
        let d := if closed then d.fault 0x0586 p n else d
        (d.writeLater p c 3 a 8 v (allOnes 8) (c + 4)).pend p 1 (c + 4) c

/-- s.halt (R189). -/
def Dev.opHalt (d : Dev) (p code : Nat) : Dev :=
  (d.modPanel p fun x => { x with halted := true, haltedByFault := false, started := false }).putB Ent.panelHaltCode (2 * p) 2 code

def Dev.runS (d : Dev) (p c a : Nat) : SOp → Dev
  | .postToken i ctr n => d.opPostToken p c i ctr n
  | .postStash e tag n => d.opPostStash p c e tag n
  | .wait f => d.opWait p c f
  | .loop l s n => d.opLoop p a l s n
  | .beat b al ctr n => d.opBeat p c b al ctr n
  | .fence cl => d.opFence p c cl
  | .tally n aix row => d.opTally p c n aix row
  | .halt code => d.opHalt p code

/-! ### One operation sent as a command -/

def Dev.issueM (d : Dev) (a : At) (u : Upset) (op : MOp) : Dev :=
  d.onPanel a fun c d => (d.ev a.panel 0x003 1).runM a.panel c u op
def Dev.issueV (d : Dev) (a : At) (u : Upset) (op : VOp) : Dev :=
  d.onPanel a fun c d => (d.ev a.panel 0x010 1).runV a.panel c u op
def Dev.issueX (d : Dev) (a : At) (u : Upset) (op : XOp) : Dev :=
  d.onPanel a fun c d => (d.ev a.panel 0x018 1).runX a.panel c u op
def Dev.issueS (d : Dev) (a : At) (op : SOp) : Dev :=
  d.onPanel a fun c d => d.runS a.panel c (d.panel a.panel).lastPc op

/-! ### Decoding (R152–R154, R159, R164–R189) -/

/-- Slot M: none is a decode fault. -/
def decodeM (w : Nat) : Option MOp :=
  let f (hi lo : Nat) : Nat := fieldOf w hi lo
  let op := f 55 52
  let guard (b : Bool) (x : MOp) : Option MOp := if b then some x else none
  if op = 1 then guard (f 13 0 == 0) (.tile (f 51 46) (f 45 14))
  else if op = 2 then guard (f 45 0 == 0) (.zero (f 51 46))
  else if op = 3 then
    let turn := bitOf w 51
    let acc := bitOf w 50
    let extra := f 37 10 != 0
    guard (f 9 0 == 0)
      (if (turn && acc) || (acc && (f 49 46 != 0 || f 45 44 != 0)) || (!acc && extra) then .refused
       else if acc then .loadAcc (f 43 38) (f 37 32) (f 31 21) (f 20 10 + 1)
       else if turn then .loadTurn (f 49 46) (f 45 44) (f 43 38)
       else .load (f 49 46) (f 45 44) (f 43 38))
  else if op = 4 then guard (f 51 0 == 0) .swap
  else if op = 5 then
    guard (f 4 0 == 0) (.stream .add
      ⟨f 51 46, f 45 35 + 2048 * f 6 6, f 34 24 + 2048 * f 5 5 + 1, f 23 22, f 16 13, f 12 7⟩ (f 21 20) (bitOf w 19) (f 18 17) 0)
  else if op = 6 || op = 7 then
    some (.stream (if op = 6 then .max else .min) ⟨f 51 46, f 45 36, f 35 26 + 1, f 25 24, f 23 20, f 19 16⟩ 0 false 0 (f 15 0))
  else if op = 8 then
    guard (f 1 0 == 0) (.drain ⟨f 51 46, f 45 35 + 2048 * f 3 3, f 34 24 + 2048 * f 2 2 + 1, f 23 18 + 1, f 17 14, f 13 12,
      bitOf w 11, bitOf w 10, f 9 4⟩)
  else if op = 9 then
    some (.drainWb ⟨f 51 46, 16 * f 45 39, 16 * (f 38 32 + 1), f 31 26 + 1, bitOf w 25, f 24 19, f 18 3, bitOf w 2, f 1 0⟩)
  else none

/-- A source specifier (R173). -/
def decodeSrc (s : Nat) : Option VSrc :=
  if s < 32 then some (.reg s) else if s < 48 then some (.const (s - 32)) else none

/-- The register-format operation of an opcode: which specifiers it uses. -/
def vuOfCode (op : Nat) : Option (VuOp × Nat) :=
  if op = 0x01 then some (.add, 2) else if op = 0x02 then some (.sub, 2) else if op = 0x03 then some (.mul, 2)
  else if op = 0x04 then some (.max, 2) else if op = 0x05 then some (.min, 2) else if op = 0x06 then some (.fma, 3)
  else if op = 0x07 then some (.abs, 1) else if op = 0x08 then some (.neg, 1) else if op = 0x09 then some (.mov, 1)
  else if op = 0x0B then some (.exp, 1) else if op = 0x0C then some (.log, 1) else if op = 0x0D then some (.recip, 1)
  else if op = 0x0E then some (.rsqrt, 1) else if op = 0x0F then some (.gelut, 1) else if op = 0x10 then some (.gelue, 1)
  else if op = 0x11 then some (.silu, 1) else if op = 0x12 then some (.dgelut, 2) else if op = 0x13 then some (.dgelue, 2)
  else if op = 0x14 then some (.dsilu, 2) else none

/-- A TYPE of FP32, BF16 or FP16, or a reserved type code, for which R14 names the code; any other value of the field is
a decode fault (R159, R175). -/
def plainType (t : Nat) : Bool := decide (t < 3) || decide (12 ≤ t)

/-- Slot V: none is a decode fault. -/
def decodeV (w : Nat) : Option VOp :=
  let f (hi lo : Nat) : Nat := fieldOf w hi lo
  let op := f 55 50
  let guard (b : Bool) (x : VOp) : Option VOp := if b then some x else none
  match decodeSrc (f 44 39), decodeSrc (f 38 33), decodeSrc (f 32 27), vuOfCode op with
  | some a, some b, some c, some (v, n) =>
    guard (f 26 0 == 0 && (decide (2 ≤ n) || f 38 33 == 0) && (decide (3 ≤ n) || f 32 27 == 0)) (.vu v (f 49 45) a b c)
  | sa, sb, sc, none =>
    if op = 0x0A then
      match sa with
      | some a =>
        let t := f 26 23
        guard (f 38 27 == 0 && f 20 0 == 0 && (t == 1 || t == 2 || (decide (4 ≤ t) && decide (t ≤ 8)) || decide (12 ≤ t) || f 22 21 != 0))
          (.cvt (f 49 45) a t (f 22 21))
      | none => none
    else if op = 0x15 then
      match sa, sb, sc with
      | some a, some b, some c => guard (f 16 0 == 0) (.drop (f 49 45) a b c (f 26 17))
      | _, _, _ => none
    else if op = 0x16 then guard (f 11 0 == 0) (.eset (f 49 44) (f 43 12))
    else if op = 0x17 then guard (f 22 0 == 0 && plainType (f 26 23)) (.ld (f 49 45) (f 44 39) (f 38 27) (f 26 23))
    else if op = 0x18 then guard (f 22 0 == 0 && plainType (f 26 23)) (.st (f 49 45) (f 44 39) (f 38 27) (f 26 23))
    else if op = 0x20 then guard (f 16 0 == 0) (.reGo (f 49 39) (f 38 33) (f 32 17))
    else none
  | _, _, _, some _ => none

/-- Slot X: none is a decode fault. An x.turn of an MX type or a reserved type code has a code of its own (R14, R129); any
other TYPE outside the format's list is a decode fault (R159, R179). -/
def decodeX (w : Nat) : Option XOp :=
  let f (hi lo : Nat) : Nat := fieldOf w hi lo
  let op := f 55 52
  if op = 1 then
    if f 9 0 = 0 then
      some (.move ⟨f 51 46, f 45 40, f 39 28 + 1, f 27 20 + 1, if bitOf w 19 then some (f 18 10) else none⟩)
    else none
  else if op = 2 then
    if f 25 0 = 0 ∧ (plainType (f 39 36) || (decide (4 ≤ f 39 36) && decide (f 39 36 ≤ 8))) then some (.turn (f 51 46) (f 45 40) (f 39 36) (if bitOf w 35 then some (f 34 26) else none)) else none
  else if op = 3 then (if f 29 0 = 0 then some (.bcast (f 51 51) (f 50 45) (f 44 34 + 1) (f 33 30)) else none)
  else none

/-- Slot S: none is a decode fault. -/
def decodeS (w : Nat) : Option SOp :=
  let f (hi lo : Nat) : Nat := fieldOf w hi lo
  let op := f 55 52
  if op = 1 then
    if f 20 0 != 0 || decide (2 ≤ f 51 50) then none
    else if f 51 50 = 0 then (if f 28 21 = 0 then some (.postToken (f 49 46) (f 45 37) (f 36 29)) else none)
    else if f 49 46 != 0 || decide (3 < f 45 37) then none
    else some (.postStash (f 45 37) (f 28 21) (f 36 29))
  else if op = 2 then (if f 16 0 = 0 then some (.wait ⟨f 51 43, f 42 35, f 34 33, f 32 17⟩) else none)
  else if op = 3 then (if f 20 0 = 0 then some (.loop (f 51 50) (f 49 37) (f 36 21)) else none)
  else if op = 4 then (if f 8 0 = 0 then some (.beat (bitOf w 51) (f 50 50) (f 49 41) (f 40 9)) else none)
  else if op = 5 then (if f 47 0 = 0 then some (.fence (f 51 48)) else none)
  else if op = 6 then (if f 21 0 = 0 then some (.tally (f 51 40) (f 39 34) (f 33 22)) else none)
  else if op = 7 then (if f 35 0 = 0 then some (.halt (f 51 36)) else none)
  else none

/-- A decoded bundle. -/
structure Bundle where
  delay : Nat
  repeats : Nat
  sample : Bool
  m : Option MOp
  v : Option VOp
  x : Option XOp
  s : Option SOp
deriving DecidableEq, Repr

/-- A slot: its operation where VALID, nothing where its bits are all 0, none for a decode fault. -/
def decodeSlot {α : Type} (valid : Bool) (bits : Nat) (f : Nat → Option α) : Option (Option α) :=
  if valid then (f bits).map some else if bits = 0 then some none else none

/-- The bundle of a 256-bit word, or its decode fault (R159). -/
def decodeBundle (w : Nat) : Except Nat Bundle :=
  match decodeSlot (bitOf w 20) (fieldOf w 87 32) decodeM, decodeSlot (bitOf w 21) (fieldOf w 143 88) decodeV,
      decodeSlot (bitOf w 22) (fieldOf w 199 144) decodeX, decodeSlot (bitOf w 23) (fieldOf w 255 200) decodeS with
  | some m, some v, some x, some s =>
    if fieldOf w 6 0 ≠ 0 then .error 0x0580
    else if fieldOf w 31 24 = 0 then .error 0x0581
    else .ok ⟨fieldOf w 31 24, fieldOf w 19 8, bitOf w 7, m, v, x, s⟩
  | _, _, _, _ => .error 0x0580

/-! ### Samples (R596, R597) -/

/-- One step of the dithered sampler's shift register (R596), to the right with the taps' sum entering at the top
(DESIGN CHOICE, log 118). -/
def lfsrStep (n : Nat) : Nat :=
  let b := (bitNat (bitOf n 0) + bitNat (bitOf n 2) + bitNat (bitOf n 3) + bitNat (bitOf n 5)) % 2
  n / 2 + b * 32768

def Dev.sampleInterval (d : Dev) : Nat := d.getB Ent.sampleConfig 0 4

/-- The sampler of a panel counts one issue: whether it takes the sample. -/
def Dev.samplerIssue (d : Dev) (p : Nat) : Dev × Bool :=
  let iv := d.sampleInterval
  if iv = 0 || !bitOf (d.getB Ent.sampleConfig 8 16) p then (d, false)
  else
    let dither := d.getB Ent.sampleConfig 4 2
    let s := sget ⟨0, 0⟩ d.tally.samplers p
    let left := if s.left = 0 then iv else s.left
    if left = 1 then
      let l := lfsrStep s.lfsr
      let next := if dither = 0 then iv else iv - dither / 2 + l % dither
      ({ d with tally := { d.tally with samplers := sset ⟨0, 0⟩ d.tally.samplers p ⟨l, next⟩ } }, true)
    else ({ d with tally := { d.tally with samplers := sset ⟨0, 0⟩ d.tally.samplers p ⟨s.lfsr, left - 1⟩ } }, false)

/-- Opcodes of the slots as OPS reports them. -/
def opsBytes (w : Nat) : List Byte :=
  leBytes 1 (fieldOf w 87 84) ++ leBytes 1 (fieldOf w 143 138) ++ leBytes 1 (fieldOf w 199 196) ++ leBytes 1 (fieldOf w 255 252)

/-- A sample record opens at a marked or selected issue (R597); none while SAMPLE_BASE is 0. An operation whose rule names
no later cycle has its effect in the cycle after its issue (DESIGN CHOICE, log 116). -/
def Dev.openSample (d : Dev) (p c due addr w left stall : Nat) (marked dithered : Bool) (b : Bundle) : Dev :=
  if !(marked || dithered) || d.get Ent.sampleBase = 0 then d
  else
    let x := d.panel p
    let step := if sget 0 d.pat.lags x.vslot = 0 && x.vslot = 0 then d.step else d.slotStep x.vslot
    let isWait := match b.s with | some (.wait _) => true | _ => false
    let first (valid : Bool) : Option Nat := if valid then some (c + 1) else none
    let bytes := leBytes 2 addr ++ leBytes 1 p ++ leBytes 1 (bitNat marked + 2 * bitNat dithered) ++ leBytes 4 step ++
      leBytes 8 (d.counter (64 * islandOf p + 16)) ++ leBytes 8 (d.get Ent.logicalBeat) ++
      leBytes 2 (min (c - due) 0xFFFF) ++ leBytes 1 stall ++ leBytes 1 (d.island (islandOf p)).stretch ++
      leBytes 2 left ++ leBytes 2 0 ++ leBytes 8 0 ++ opsBytes w ++
      leBytes 2 (sget 0 x.its 0) ++ leBytes 2 (sget 0 x.its 1)
    let o : SampleOpen := ⟨p, c, [first b.m.isSome, first b.v.isSome, first b.x.isSome, first (b.s.isSome && !isWait)], bytes⟩
    let d := { d with tally := { d.tally with opened := d.tally.opened ++ [o] } }
    d.count (64 * islandOf p + 30) 1

/-! ### Issue (R155–R157, R159, R51) -/

/-- A panel halts before it issues (R51, R82, R159, R217). -/
def Dev.haltNow (d : Dev) (p : Nat) : Dev :=
  d.modPanel p fun x => { x with halted := true, haltedByFault := true, haltAtBoundary := false, held := none }

/-- Every valid slot issues in cycle c: M, V, X and S in turn; an s.wait was served before (R157). -/
def Dev.issueSlots (d : Dev) (p c due addr w stall : Nat) (b : Bundle) (su : SlotUpsets) : Dev :=
  let x := d.panel p
  let left := match x.rem with | some r => r | none => b.repeats
  let d := d.modPanel p fun y => { y with
    lastIssue := c, lastPc := addr, stallFrom := none,
    rem := if left = 0 then none else some (left - 1), pc := if left = 0 then (addr + 1) % 8192 else addr }
  let d := (d.ev p 0x001 1).count (64 * islandOf p + 18) 1
  let sel := d.samplerIssue p
  let d := sel.1.openSample p c due addr w left stall b.sample sel.2 b
  let d := match b.m with | some op => (d.ev p 0x003 1).runM p c su.m op | none => d
  let d := match b.v with | some op => (d.ev p 0x010 1).runV p c su.v op | none => d
  let d := match b.x with | some op => (d.ev p 0x018 1).runX p c su.x op | none => d
  match b.s with
    | some (.wait _) => d
    | some (.loop l s n) => if left = 0 then d.opLoop p addr l s n else d
    | some (.halt code) => if b.repeats = 0 then d.opHalt p code else d.misuse 0x0582 p
    | some (.beat bs al ctr n) => if b.repeats = 0 then d.opBeat p c bs al ctr n else d.misuse 0x0582 p
    | some (.tally n aix row) => if b.repeats = 0 then d.opTally p c n aix row else d.misuse 0x0582 p
    | some op => d.runS p c addr op
    | none => d

/-- The bundle of the panel is due in cycle c: its wait decides whether it issues. -/
def Dev.dueBundle (d : Dev) (p c addr w stall : Nat) (b : Bundle) (su : SlotUpsets) : Dev :=
  match b.s with
  | some (.wait f) =>
    if f.n = 0 then (d.misuse 0x0582 p).issueSlots p c c addr w stall b su
    else
      let d := d.reachEntry p addr f.ctr
      if f.n ≤ d.leftFor p f.ctr then (d.serveWait p c c d.frozenTime f 0).issueSlots p c c addr w stall b su
      else d.holdWait p c f (some addr)
  | _ => d.issueSlots p c c addr w stall b su

/-- A bundle is fetched, or the repeated one taken again, and decoded. -/
def Dev.fetchBundle (d : Dev) (p : Nat) : Except Nat (Nat × Bundle) :=
  let x := d.panel p
  let w := if x.rem.isSome then x.bundle else d.readNat (bundleBase p + 32 * x.pc) 32
  if x.rem.isNone && bitOf x.busyPages (x.pc / 1024) then .error 0x0557
  else match decodeBundle w with
    | .ok b => .ok (w, b)
    | .error code => .error code

/-- The next bundle of a panel issues, ISSUE_DELAY cycles after the last one (R155). -/
def Dev.evBundle (d : Dev) (p : Nat) (u : Upset) (su : SlotUpsets) : Dev :=
  let x := d.panel p
  if !d.canIssue p || d.stalled p || x.held.isSome then d
  else if x.haltAtBoundary then d.haltNow p
  else
    let d := match u with
      | .corrected => d.bump Ent.panelErrCount (8 * p + 2) 2 1
      | _ => d
    match u with
    | .uncorrectable => d.panelError 0x0222 p
    | _ =>
      match d.fetchBundle p with
      | .error code => (d.contractFault code p x.pc (.panel p)).haltNow p
      | .ok (w, b) =>
        let due := max (x.lastIssue + b.delay) (x.stallFrom.getD 0)
        let i := islandOf p
        let d := (d.advance i due).modPanel p fun y => { y.prune due with bundle := w }
        (d.dueBundle p due x.pc w (if x.stallFrom.isSome then 3 else 0) b su).advance i due

/-- A held bundle issues in the first cycle in which its counter covers N, unless its panel is stalled (R139, R155, R182,
R183). -/
def Dev.evWaitSatisfied (d : Dev) (a : At) (su : SlotUpsets) : Dev :=
  let p := a.panel
  d.onIsland (islandOf p) a.cycle fun c d =>
    let x := d.panel p
    if !d.canIssue p || d.stalled p then d
    else match x.held with
    | none => d
    | some h =>
      if x.haltAtBoundary then d.haltNow p
      else if d.leftFor p h.ctr < h.n then d
      else
        let f : WaitF := ⟨h.ctr, h.n, h.unit, h.maxWait⟩
        let d := (d.serveWait p c h.due h.base f h.beats).modPanel p fun y => { y with held := none }
        match h.bundle with
        | none => d
        | some addr => match decodeBundle x.bundle with
          | .ok b => d.issueSlots p c h.due addr x.bundle (if h.unit = 3 then 2 else 1) b su
          | .error _ => d

/-- A wait passes its declared maximum (R182, R207). -/
def Dev.evWaitTimeout (d : Dev) (a : At) : Dev :=
  let p := a.panel
  d.onIsland (islandOf p) a.cycle fun c d =>
    match (d.panel p).held with
    | none => d
    | some h =>
      let unit := if h.unit = 0 then 1 else if h.unit = 1 then 64 else 4096
      let past := if h.unit = 3 then decide (h.maxWait < h.beats) else decide (h.due + h.maxWait * unit < c)
      if h.late || !past || decide (h.n ≤ d.leftFor p h.ctr) then d
      else
        let d := d.modPanel p fun x => { x with held := some { h with late := true } }
        let d := d.count (64 * islandOf p + 28) 1
        let d := if h.unit = 3 then d.addLateness (h.beats - h.maxWait) else d
        d.contractFault 0x0510 p h.ctr (.panel p) (h.unit == 3)

/-! ### Token crossings (R203, R204) -/

/-- The oldest token on its way to an island arrives. -/
def Dev.tokenArrives (d : Dev) (offTree : Bool) (i cycle : Nat) : Dev :=
  d.onIsland i cycle fun _ d =>
    match d.contract.transit.find? fun t => t.offTree == offTree && t.island == i with
    | none => d
    | some t =>
      let d := { d with contract := { d.contract with transit := d.contract.transit.erase t } }
      d.addTokens i t.ctr t.amount (if t.poster = 0 then none else some (t.poster - 1))

end Sys2Proof.Machine
end

