-- ==== Sys2Proof/Machine/Access.lean ====
section
/-!
DEFINITION. Access to local memory by Shuttles, by requests of other devices and by the host: the address
map with its owners (*Memory tiers and placement*, R258, R266, R285, R589–R595), lost blocks and poison,
and the adders (R250).
-/
namespace Sys2Proof.Machine
open Sys2Proof

/-! ### Ranges -/

/-- Two byte ranges share a byte. -/
def meets (a n b m : Nat) : Bool := n != 0 && m != 0 && decide (a < b + m) && decide (b < a + n)

def inNear (a : Nat) : Bool := decide (0x4000000000 ≤ a) && decide (a < 0x14000000000)
def inDeep (a : Nat) : Bool := decide (0x14000000000 ≤ a) && decide (a < 0x1C000000000)
def inStack (a : Nat) : Bool := inNear a || inDeep a

/-- The stack of an address, numbered as STACK_STATUS numbers them. -/
def stackIndex (a : Nat) : Nat :=
  if inNear a then (a - 0x4000000000) / 0x1000000000 else 16 + (a - 0x14000000000) / 0x1000000000

/-- The Billet that drives a stack (R275). -/
def billetOf (stack : Nat) : Nat := if stack < 16 then stack / 2 else stack - 16

def inControl (a : Nat) : Bool := decide (0x200000000 ≤ a) && decide (a < 0x201000000)
def inTree (a : Nat) : Bool := decide (0x100000000 ≤ a) && decide (a < 0x110000000)

/-- The dump ring and the sample ring (R595). -/
def Dev.inDumpRing (d : Dev) (a n : Nat) : Bool :=
  d.get Ent.dumpBase != 0 && meets a n (d.get Ent.dumpBase) (18432 * d.get Ent.dumpRecords)
def Dev.inSampleRing (d : Dev) (a n : Nat) : Bool :=
  d.get Ent.sampleBase != 0 && meets a n (d.get Ent.sampleBase) (64 * d.get Ent.sampleRecords)

/-- A group of counters is open to Pattern code, or to host users (R590). -/
def Dev.openTo (d : Dev) (host : Bool) (g : Nat) : Bool :=
  bitOf (d.get Ent.tallyOpen) (g + if host then 32 else 0)

/-- What lies in the control window (R130, R146, R160, R322, R327, R320, R349, R589). -/
inductive Ctrl where
  | counter (user : Bool) (n : Nat)
  | dumpSeq (user : Bool)
  | sampleWrite (user : Bool)
  | sampleRead (user : Bool)
  | wideTable
  | stash
  | addrTable (p : Nat)
  | stream
  | release
  | mcast
  | loomUpdate
  | doorbell
  | requestTable (i : Nat)
  | hole
deriving DecidableEq, Repr

/-- The unit an address of the control window belongs to. The spec lets the island Shuttle write request-table entries
(R90, R258) and gives them no address: the model puts the table of island i at 0x2_00E0_0000 + i × 0x2_0000 (DESIGN CHOICE,
log 101). -/
def ctrlAt (a : Nat) : Ctrl :=
  let o := a - 0x200000000
  let view (user : Bool) (o : Nat) : Ctrl :=
    if o < 0x8000 then .counter user (o / 8)
    else if o < 0x8008 then .dumpSeq user
    else if o < 0x8010 then .sampleWrite user
    else if o < 0x8018 then .sampleRead user
    else .hole
  if o < 0x400000 then view false o
  else if o < 0x800000 then view true (o - 0x400000)
  else if o < 0x840000 then .wideTable
  else if o < 0x840020 then .stash
  else if o < 0x900000 then .hole
  else if o < 0x940000 then .addrTable ((o - 0x900000) / 0x800)
  else if o < 0xA00000 then .hole
  else if o < 0xA00800 then .stream
  else if o < 0xA00A00 then .release
  else if o < 0xB00000 then .hole
  else if o < 0xB80000 then .mcast
  else if o < 0xC00000 then .hole
  else if o < 0xC10000 then .loomUpdate
  else if o < 0xD00000 then .hole
  else if o < 0xD00008 then .doorbell
  else if o < 0xE00000 then .hole
  else .requestTable ((o - 0xE00000) / 0x20000)

/-- A control window whose registers lie on the Felt or the Tree, unreachable while the stack is off (R6). -/
def stackWindow (a : Nat) : Bool :=
  inControl a && ((decide (0x200800000 ≤ a) && decide (a < 0x200A00000)) || decide (0x200E00000 ≤ a))

/-- The Tally unit of a control address, which takes aligned 8-byte reads only (R589). -/
def Ctrl.isTally : Ctrl → Bool
  | .counter _ _ => true
  | .dumpSeq _ => true
  | .sampleWrite _ => true
  | .sampleRead _ => true
  | .wideTable => false
  | .stash => false
  | .addrTable _ => false
  | .stream => false
  | .release => false
  | .mcast => false
  | .loomUpdate => false
  | .doorbell => false
  | .requestTable _ => false
  | .hole => false

def Ctrl.user : Ctrl → Bool
  | .counter u _ => u
  | .dumpSeq u => u
  | .sampleWrite u => u
  | .sampleRead u => u
  | _ => false

/-- The group of a Tally address (R590). -/
def Ctrl.group : Ctrl → Option Nat
  | .counter _ n => tallyGroup n
  | .dumpSeq _ => some 29
  | .sampleWrite _ => some 30
  | .sampleRead _ => some 30
  | _ => none

/-- The value of a Tally address. -/
def Dev.tallyValue (d : Dev) : Ctrl → Nat
  | .counter _ n => d.counter n
  | .dumpSeq _ => d.tally.dumpSeq
  | .sampleWrite _ => d.tally.sampleWrite
  | .sampleRead _ => d.tally.sampleRead
  | _ => 0

/-- SAMPLE_READ written: out of range is ignored (R591). -/
def Dev.writeSampleRead (d : Dev) (v : Nat) : Dev :=
  if v < d.tally.sampleRead || d.tally.sampleWrite < v then d
  else { d with tally := { d.tally with sampleRead := v } }

/-! ### Lost blocks (R277, R278) -/

/-- The lost blocks a range meets, by block number. -/
def Dev.lostIn (d : Dev) (a n : Nat) : List Nat :=
  if inStack a then ((srange d.tier.lostBlocks (a / 256) (ceilDiv (a + n) 256)).filter fun p => p.2).map Prod.fst
  else []

/-- A lost block that the write [a, a + n) covers only in part. -/
def Dev.partialLost (d : Dev) (a n : Nat) : Bool :=
  (d.lostIn a n).any fun b => decide (256 * b < a) || decide (a + n < 256 * b + 256)

/-- A block is found lost: poisoned, counted, logged with 0x0311 (R277 step 4). -/
def Dev.loseBlock (d : Dev) (b : Nat) : Dev :=
  if sget false d.tier.lostBlocks b then d
  else
    let s := stackIndex (256 * b)
    let d := { d with tier := { d.tier with lostBlocks := sset false d.tier.lostBlocks b true } }
    ((d.poisonLog (256 * b)).bump Ent.stackErrCount (16 * s + 8) 4 1).fault 0x0311 (Unit.billet (billetOf s)) (256 * b)

/-- Bytes that the device itself stores in a memory stack. A lost block is not written in part: 0x0312 (R277). -/
def Dev.stackWrite (d : Dev) (a : Nat) (bs : List Byte) : Dev :=
  let e := a + bs.length
  let bad := (d.lostIn a bs.length).filter fun b => decide (256 * b < a) || decide (e < 256 * b + 256)
  let lo := if bad.contains (a / 256) then min e (256 * (a / 256) + 256) else a
  let hi := if bad.contains (e / 256) then max lo (256 * (e / 256)) else e
  let d := bad.foldl (fun d b => d.fault 0x0312 (Unit.billet (billetOf (stackIndex (256 * b)))) (256 * b)) d
  d.write lo ((bs.drop (lo - a)).take (hi - lo))

def Dev.stackPut (d : Dev) (a n v : Nat) : Dev := d.stackWrite a (leBytes n v)

/-- What a read of a stack's block meets: an error that the stack corrects, or one it reports as uncorrectable (R277). -/
def Dev.stackMeet (d : Dev) (a : Nat) (u : Upset) : Dev :=
  if inStack a then
    match u with
    | .corrected => d.bump Ent.stackErrCount (16 * stackIndex a) 4 1
    | .uncorrectable => d.loseBlock (a / 256)
    | _ => d
  else d

/-- n events of a latency histogram whose latencies the spec bounds and does not state (R204, R587): free
values within the bound (log 7). -/
def Dev.histFree (h lo hi : Nat) : Nat → Dev → Dev
  | 0, d => d
  | k + 1, d =>
    let r := d.freeNat 1
    Dev.histFree h lo hi k (r.1.hist h (lo + r.2 % (hi - lo + 1)))

/-- Counters of a Billet for block accesses of its stacks, and the latency histograms of reads (R585, R587). -/
def Dev.countBlocks (d : Dev) (a n : Nat) (write acc : Bool) : Dev :=
  if inStack a && n != 0 then
    let b := billetOf (stackIndex a)
    let blocks := (a + n - 1) / 256 + 1 - a / 256
    let d := d.count (0x440 + 32 * b + (if inDeep a then 2 else 0) + bitNat write) blocks
    if acc then d.count (0x440 + 32 * b + 6) blocks
    else if write then d
    else if inDeep a then Dev.histFree 2 220 900 blocks d else Dev.histFree 1 160 520 blocks d
  else d

/-! ### What a Shuttle may reach (R258, R77, R141, R590, R595) -/

/-- Shuttle n is an island Shuttle. -/
def isIslandShuttle (n : Nat) : Bool := decide (n < 16)

/-- The source unit of Shuttle n. -/
def shuttleUnit (n : Nat) : Nat := Unit.shuttle n

/-- Shuttle n reaches a local address. With the stack off, a Billet's Shuttle reaches its own Billet's stacks and a Selvage's
the registers of the Selvages (R6; DEDUCED, log 102). -/
def Dev.shuttleReaches (d : Dev) (n a : Nat) : Bool :=
  d.power.stackUp || (inStack a && decide (16 ≤ n) && billetOf (stackIndex a) + 16 == n)
    || (inControl a && decide (24 ≤ n) && !stackWindow a)

/-- A panel's memories are in the window while the panel is in PANEL_MASK (R77). -/
def Dev.panelOpen (d : Dev) (p : Nat) : Bool := bitOf (d.get Ent.panelMask) p

/-- A panel's accumulator is at rest: the panel is halted, or the device is not RUNNING (R77, R258). -/
def Dev.panelAtRest (d : Dev) (p : Nat) : Bool := (d.panel p).halted || d.devState != St.running

/-- 0x0609 unless a target accepts. -/
def accepts (ok : Bool) : Option Nat := if ok then none else some 0x0609

/-- Why byte b of a read [a, a + len) of Shuttle n is refused, if it is (R77, R258). -/
def Dev.readRefusedAt (d : Dev) (n a len : Nat) (use : WbUse) (b : Nat) : Option Nat :=
  match d.region b with
  | .hole => some 0x0603
  | .felt => accepts (d.shuttleReaches n b && d.wbRangeAllowed a len use)
  | .near _ =>
    accepts (d.shuttleReaches n b && !inStow b && (!d.inDumpRing a len || d.openTo false 29) && (!d.inSampleRing a len || d.openTo false 30))
  | .deep _ => accepts (d.shuttleReaches n b)
  | .scratch p => accepts (d.shuttleReaches n b && d.panelOpen p)
  | .acc p => accepts (d.shuttleReaches n b && d.panelOpen p && d.panelAtRest p)
  | .bundle p => accepts (d.shuttleReaches n b && d.panelOpen p && n == islandOf p)
  | .side _ => accepts (d.shuttleReaches n b)
  | .control =>
    if !d.shuttleReaches n b then some 0x0609
    else match ctrlAt b with
    | .hole => some 0x0603
    | .wideTable => accepts (isIslandShuttle n)
    | .addrTable p => accepts (n == islandOf p)
    | .requestTable i => accepts (n == i)
    | c => if c.isTally && (len != 8 || a % 8 != 0) then some 0x0603 else none

/-- Why a local read by Shuttle n is refused before any data moves, if it is. -/
def Dev.readRefused (d : Dev) (n a len : Nat) (use : WbUse) : Option Nat :=
  (d.readRefusedAt n a len use a).or (d.readRefusedAt n a len use (a + len - 1))

/-- Why byte b of a write [a, a + len) of Shuttle n is refused, if it is. -/
def Dev.writeRefusedAt (d : Dev) (n a len : Nat) (use : WbUse) (b : Nat) : Option Nat :=
  match d.region b with
  | .hole => some 0x0603
  | .felt => accepts (d.shuttleReaches n b && d.wbRangeAllowed a len use)
  | .near _ => accepts (d.shuttleReaches n b && !inStow b && !d.inDumpRing a len && !d.inSampleRing a len)
  | .deep _ => accepts (d.shuttleReaches n b)
  | .scratch p => accepts (d.shuttleReaches n b && d.panelOpen p)
  | .acc p => accepts (d.shuttleReaches n b && d.panelOpen p && d.panelAtRest p)
  | .bundle p => accepts (d.shuttleReaches n b && d.panelOpen p && n == islandOf p)
  | .side _ => accepts (d.shuttleReaches n b)
  | .control =>
    if !d.shuttleReaches n b then some 0x0609
    else match ctrlAt b with
    | .hole => some 0x0603
    | .wideTable => accepts (isIslandShuttle n)
    | .stash => none
    | .addrTable p => accepts (n == islandOf p)
    | .requestTable i => accepts (n == i)
    | .release => none
    | .loomUpdate => none
    | .doorbell => none
    | .sampleRead user => accepts (!user && d.openTo false 30)
    | .counter _ _ => some 0x0609
    | .dumpSeq _ => some 0x0609
    | .sampleWrite _ => some 0x0609
    | .stream => some 0x0609
    | .mcast => some 0x0609

/-- Why a local write by Shuttle n is refused, if it is. -/
def Dev.writeRefused (d : Dev) (n a len : Nat) (use : WbUse) : Option Nat :=
  (d.writeRefusedAt n a len use a).or (d.writeRefusedAt n a len use (a + len - 1))

/-- Who a contract fault of a Shuttle's access is laid to: the island of an island Shuttle (R217). -/
def shuttleCulprit (n : Nat) : Culprit := if isIslandShuttle n then .island n else .offTree

/-- A wide-buffer tile refuses an access: 0x0575 takes the response of its class (R151). -/
def Dev.tileRefuses (d : Dev) (a : Nat) (who : Culprit) : Dev := d.contractFault 0x0575 Unit.felt a who

/-- A refused access of a Shuttle to a wide-buffer tile records 0x0575 too (R141, R258). -/
def Dev.refusedTile (d : Dev) (n a len : Nat) (use : WbUse) (code : Nat) : Dev :=
  if code = 0x0609 && decide (a < feltSize) && !d.wbRangeAllowed a len use then
    d.tileRefuses a (shuttleCulprit n)
  else d

/-- Bytes of the control window, or of plain memory. -/
def Dev.windowBytes (d : Dev) (a len : Nat) : List Byte :=
  if inControl a then
    match ctrlAt a with
    | .requestTable i => (upTo len).map fun k => sget 0#8 (d.island i).requests (a + k - 0x200E00000 - i * 0x20000)
    | .loomUpdate => List.replicate len 0#8
    | .doorbell => List.replicate len 0#8
    | _ => d.read a len
  else d.read a len

/-- An island Shuttle's access to the Felt crosses from its island (R214). -/
def Dev.shuttleCrossing (d : Dev) (n a : Nat) : Dev :=
  if isIslandShuttle n && decide (a < feltSize) then d.crossing (shuttleUnit n) else d

/-- Bytes read by Shuttle n, or the descriptor fault the read meets (R259, R273, R278). -/
def Dev.shuttleRead (d : Dev) (n a len : Nat) (use : WbUse) (u : Upset) : Dev × Except Nat (List Byte) :=
  match d.readRefused n a len use with
  | some c => (d.refusedTile n a len use c, .error c)
  | none =>
    if inControl a then
      let c := ctrlAt a
      if c.isTally then
        match c.group with
        | none => (d, .ok (leBytes len 0))
        | some g =>
          if d.openTo false g then (d, .ok (leBytes len (d.tallyValue c)))
          else (d.fault 0x0910 (shuttleUnit n) a, .ok (List.replicate len 0xFF#8))
      else (d, .ok (d.windowBytes a len))
    else
    let d := d.stackMeet a u
    if (d.lostIn a len).isEmpty then
      let m := ((d.countBlocks a len false false).shuttleCrossing n a).windowMeet (shuttleUnit n) a (shuttleCulprit n) u
      let g := if m.2 then m.1.freeBytes len else (m.1, m.1.read a len)
      if a < feltSize then
        if isIslandShuttle n then ((g.1.feltLines n a len).meetPoison a len (shuttleUnit n), .ok g.2)
        else match g.1.poisonIn a len with
          | [] => (Dev.histFree 0 20 120 ((a + len - 1) / 256 + 1 - a / 256) g.1, .ok g.2)
          | ws => (ws.foldl (fun d w => d.poisonFault w (shuttleUnit n)) g.1, .error 0x0301)
      else (g.1, .ok g.2)
    else (d, .error 0x0311)

/-- Bytes stored in plain local memory by a Shuttle or a request of another device. -/
def Dev.store (d : Dev) (a : Nat) (bs : List Byte) : Dev :=
  (d.countBlocks a bs.length true false).write a bs

/-! ### Adders (R250, R312) -/

/-- How an element is added: FP32, BF16, I32. -/
inductive AddOp where
  | fp32 | bf16 | i32
deriving DecidableEq, Repr

def AddOp.ofCode : Nat → Option AddOp
  | 0 => some .fp32
  | 1 => some .bf16
  | 2 => some .i32
  | _ => none

def AddOp.code : AddOp → Nat
  | .fp32 => 0
  | .bf16 => 1
  | .i32 => 2

def AddOp.bytes : AddOp → Nat
  | .fp32 => 4
  | .bf16 => 2
  | .i32 => 4

/-- The output types that accumulate (R250). -/
def AddOp.ofType : ElemType → Option AddOp
  | .fp32 => some .fp32
  | .bf16 => some .bf16
  | .i32 => some .i32
  | _ => none

/-- w + v in the adder's arithmetic, with its events. -/
def AddOp.sum (op : AddOp) (w v : Nat) : Fl Nat :=
  match op with
  | .fp32 => Fl.bind (f32Add (BitVec.ofNat 32 w) (BitVec.ofNat 32 v)) fun r => Fl.pure r.toNat
  | .bf16 => Fl.bind ((Fmt.bf16.decode w).add (Fmt.bf16.decode v)) fun r => Fmt.bf16.round r
  | .i32 => Fl.pure ((w + v) % 2 ^ 32)

/-- The adders of a local target perform the operation (R250): the Felt's add FP32 only. -/
def addsAt (a : Nat) (op : AddOp) : Bool := (decide (a < feltSize) && op == .fp32) || inStack a

/-- One element added in place. -/
def Dev.addElem (d : Dev) (a : Nat) (op : AddOp) (v : Nat) : Dev × Flags :=
  let n := op.bytes
  let r := op.sum (d.readNat a n) v
  ((d.countBlocks a n true true).writeNat a n r.1, r.2)

/-- A run of elements added in order. -/
def Dev.addRun (op : AddOp) : Nat → Dev → Nat → List Byte → Dev
  | 0, d, _, _ => d
  | k + 1, d, a, bs =>
    match bs with
    | [] => d
    | _ => Dev.addRun op k (d.addElem a op (leNat (bs.take op.bytes))).1 (a + op.bytes) (bs.drop op.bytes)

end Sys2Proof.Machine
end

