-- ==== Sys2Proof/Machine/Link.lean ====
section
/-!
DEFINITION. The Weave's geometry, routing, flits and link layer (*Weave fabric and the global memory space*,
R294–R310), and how the device sends its own messages.
-/
namespace Sys2Proof.Machine
open Sys2Proof

/-! ### Coordinates and shape (R294, R295) -/

/-- A coordinate, warp first. -/
structure Coord where
  warp : Nat
  weft : Nat
  pile : Nat
deriving DecidableEq, Repr

def Coord.ofId (i : Nat) : Coord := ⟨i % 64, i / 64 % 32, i / 2048 % 32⟩
def Coord.id (c : Coord) : Nat := c.warp + 64 * c.weft + 2048 * c.pile
def Coord.get (c : Coord) (dim : Nat) : Nat := if dim = 0 then c.warp else if dim = 1 then c.weft else c.pile
def Coord.set (c : Coord) (dim v : Nat) : Coord :=
  if dim = 0 then { c with warp := v } else if dim = 1 then { c with weft := v } else { c with pile := v }

/-- Size and WRAP of a dimension. -/
def Dev.dimSize (d : Dev) (dim : Nat) : Nat := d.getB Ent.domainShape dim 1
def Dev.dimWrap (d : Dev) (dim : Nat) : Bool := bitOf (d.get Ent.domainShape) (24 + dim)

/-- 0x4001:00 COORDINATE as a coordinate. -/
def Dev.coord (d : Dev) : Coord :=
  let c := d.get Ent.coordinate
  ⟨fieldOf c 5 0, fieldOf c 12 8, fieldOf c 20 16⟩

/-- 0x4004:00 DEVICE_ID. -/
def Dev.deviceId (d : Dev) : Nat := d.coord.id

/-- A coordinate lies in the shape in force. -/
def Dev.inShape (d : Dev) (c : Coord) : Bool :=
  decide (c.warp < d.dimSize 0) && decide (c.weft < d.dimSize 1) && decide (c.pile < d.dimSize 2)

/-! ### Directions and ports (R296, R299, R304, R331) -/

/-- The port a direction uses. -/
def Dev.portOf (d : Dev) (dir : Nat) : Nat := fieldOf (d.get Ent.portMap) (4 * dir + 3) (4 * dir)

/-- The direction a port carries. -/
def Dev.dirOf (d : Dev) (port : Nat) : Option Nat := (upTo 6).find? fun k => d.portOf k == port

/-- The neighbour's coordinate in a direction, where the shape gives one. -/
def Dev.neighbourAt (d : Dev) (dir : Nat) : Option Coord :=
  let dim := dir / 2
  let n := d.dimSize dim
  let x := d.coord.get dim
  if n < 2 then none
  else if d.dimWrap dim then some (d.coord.set dim (if dir % 2 = 0 then (x + 1) % n else (x + n - 1) % n))
  else if dir % 2 = 0 then (if x + 1 < n then some (d.coord.set dim (x + 1)) else none)
  else if 0 < x then some (d.coord.set dim (x - 1))
  else none

/-! Port states (R303) -/
namespace PortSt
def disabled : Nat := 0
def training : Nat := 1
def up : Nat := 2
def lpi : Nat := 3
def down : Nat := 4
def failed : Nat := 5
end PortSt

def Dev.portState (d : Dev) (i : Nat) : Nat := d.getB Ent.portState i 1
def Dev.setPortState (d : Dev) (i s : Nat) : Dev := d.putB Ent.portState i 1 s
def Dev.portUp (d : Dev) (i : Nat) : Bool := decide (i < 8) && d.portState i == PortSt.up

def Dev.link (d : Dev) (i : Nat) : Link := sget Link.reset d.weave.ports i
def Dev.modLink (d : Dev) (i : Nat) (f : Link → Link) : Dev :=
  { d with weave := { d.weave with ports := smod Link.reset d.weave.ports i f } }

/-- NEIGHBOUR: device ID and the matched bit of a port. -/
def Dev.neighbourId (d : Dev) (i : Nat) : Nat := d.getB Ent.neighbour (8 * i) 2
def Dev.matched (d : Dev) (i : Nat) : Bool := bitOf (d.getB Ent.neighbour (8 * i + 7) 1) 0

/-- The port is required (R331). -/
def Dev.requiredPort (d : Dev) (i : Nat) : Bool :=
  match d.dirOf i with
  | some dir => (d.neighbourAt dir).isSome
  | none => false

/-- UP ports that carry traffic: UP and, where they carry a direction, matched. -/
def Dev.carries (d : Dev) (i : Nat) : Bool := d.portUp i && (d.dirOf i).isSome && d.matched i

/-- LINK flits pass: the port is UP, or it was lost, has trained again and waits for R304 to hold (R303). -/
def Dev.linkOpen (d : Dev) (i : Nat) : Bool :=
  d.portUp i || (decide (i < 8) && d.portState i == PortSt.training && (d.link i).trained)

/-! ### Routing (R307–R309) -/

/-- The dimension order of an order code. -/
def orderOf : Nat → List Nat
  | 0 => [0, 1, 2]
  | 1 => [0, 2, 1]
  | 2 => [1, 0, 2]
  | 3 => [1, 2, 0]
  | 4 => [2, 0, 1]
  | _ => [2, 1, 0]

def Dev.orderFor (d : Dev) (cls : Nat) : List Nat :=
  if cls < 3 then orderOf (fieldOf (d.get Ent.routeOverride) (4 * cls + 2) (4 * cls)) else orderOf 0
def Dev.tieMinus (d : Dev) (cls : Nat) : Bool := decide (cls < 3) && bitOf (d.get Ent.routeOverride) (4 * cls + 3)

/-- direction(src, dst, cls): none is LOCAL. -/
def Dev.direction (d : Dev) (src dst : Coord) (cls : Nat) : Option Nat :=
  match (d.orderFor cls).find? fun dim => src.get dim != dst.get dim with
  | none => none
  | some dim =>
    let a := src.get dim
    let b := dst.get dim
    let n := d.dimSize dim
    let plus := 2 * dim
    if !d.dimWrap dim then some (if a < b then plus else plus + 1)
    else
      let f := (b + n - a) % n
      if f < n - f then some plus
      else if n - f < f then some (plus + 1)
      else some (if d.tieMinus cls then plus + 1 else plus)

/-- The link of a direction is its ring's dateline link. -/
def Dev.dateline (d : Dev) (dir : Nat) : Bool :=
  let dim := dir / 2
  let x := d.coord.get dim
  d.dimWrap dim && (if dir % 2 = 0 then x + 1 == d.dimSize dim else x == 0)

/-- The virtual channel on the link that a flit takes, given the dimension and channel it came by (R308). -/
def Dev.vcFor (d : Dev) (dir : Nat) (came : Option (Nat × Nat)) : Nat :=
  let vc := match came with
    | some (dim, vc) => if dim = dir / 2 then vc else 0
    | none => 0
  if d.dateline dir then 1 else vc

/-! ### Flits (R300) -/

namespace FlitType
def link : Nat := 0
def put : Nat := 1
def getReq : Nat := 2
def getRsp : Nat := 3
def atomic : Nat := 4
def mcast : Nat := 5
def reduce : Nat := 6
def credit : Nat := 7
def completion : Nat := 8
def control : Nat := 9
end FlitType

/-- A flit header. -/
structure FlitHdr where
  type : Nat
  cls : Nat
  vc : Nat
  dest : Nat
  src : Nat
  tag : Nat
  first : Bool
  last : Bool
  late : Bool
  reserved : Nat
  len : Nat
deriving DecidableEq, Repr

def FlitHdr.word (h : FlitHdr) : Nat :=
  h.type <<< 60 + h.cls <<< 58 + h.vc <<< 57 + (h.dest % 65536) <<< 41 + (h.src % 65536) <<< 25 + (h.tag % 4096) <<< 13
    + bitNat h.first <<< 12 + bitNat h.last <<< 11 + bitNat h.late <<< 10 + h.reserved <<< 8 + h.len

def FlitHdr.ofWord (w : Nat) : FlitHdr :=
  { type := fieldOf w 63 60, cls := fieldOf w 59 58, vc := fieldOf w 57 57, dest := fieldOf w 56 41,
    src := fieldOf w 40 25, tag := fieldOf w 24 13, first := bitOf w 12, last := bitOf w 11, late := bitOf w 10,
    reserved := fieldOf w 9 8, len := fieldOf w 7 0 }

/-- The 256 bytes of a flit: trailer fields as R300 gives them. -/
def flitBytes (hdr : Nat) (payload : List Byte) (seq ack : Nat) (unseq resent nak ackValid : Bool) : List Byte :=
  let body := leBytes 8 hdr ++ (payload ++ List.replicate (240 - payload.length) 0#8).take 240
  let low := seq <<< 20 + ack <<< 8 + bitNat unseq <<< 3 + bitNat resent <<< 2 + bitNat nak <<< 1 + bitNat ackValid
  let body := body ++ leBytes 4 low
  body ++ leBytes 4 (crc32c body)

/-- A message cut into flits of 240 payload bytes. -/
def cutFlits (h : FlitHdr) (payload : List Byte) : List Piece :=
  let parts := chunksOf (payload.length + 1) 240 payload
  let parts := if parts.isEmpty then [[0#8]] else parts
  (parts.zip (upTo parts.length)).map fun q =>
    { hdr := { h with first := q.2 == 0, last := q.2 + 1 == parts.length, len := q.1.length }.word, payload := q.1 }

/-! ### Sending -/

/-- Pieces enter an output port's queue; a port that is not UP discards them (R333). -/
def Dev.enqueue (d : Dev) (port : Nat) (r : OutReq) : Dev :=
  if d.portUp port then
    d.modLink port fun l =>
      match r.source with
      | some q =>
        if l.out.any (fun o => o.source == some q && !o.closed) then
          { l with out := l.out.map fun o =>
              if o.source == some q && !o.closed then { o with pieces := o.pieces ++ r.pieces, closed := r.closed } else o }
        else { l with out := l.out ++ [r] }
      | none => { l with out := l.out ++ [r] }
  else d.faultOnce 0x040C (Unit.port port) 0

/-- A message of this device routed to a destination device. -/
def Dev.sendRouted (d : Dev) (type cls tag dest : Nat) (late : Bool) (payload : List Byte) : Dev :=
  match d.direction d.coord (Coord.ofId dest) cls with
  | none => d
  | some dir =>
    let vc := d.vcFor dir none
    let h : FlitHdr := ⟨type, cls, vc, dest, d.deviceId, tag, true, true, late, 0, 0⟩
    d.enqueue (d.portOf dir) ⟨cls, vc, none, cutFlits h payload, true⟩

/-- A message sent by a given port, on VC 0 (multicast copies, completions up a tree, one-hop and flooded
control). -/
def Dev.sendBy (d : Dev) (port type cls tag dest src : Nat) (payload : List Byte) : Dev :=
  let h : FlitHdr := ⟨type, cls, 0, dest, src, tag, true, true, false, 0, 0⟩
  d.enqueue port ⟨cls, 0, none, cutFlits h payload, true⟩

/-- A control message, routed (R330). -/
def Dev.sendControl (d : Dev) (dest : Nat) (payload : List Byte) : Dev :=
  d.sendRouted FlitType.control 3 0 dest false payload

/-- A control message to the neighbour on a port. -/
def Dev.sendHop (d : Dev) (port : Nat) (payload : List Byte) : Dev :=
  d.sendBy port FlitType.control 3 0 (d.neighbourId port) d.deviceId payload

/-- Every UP port but one. -/
def Dev.floodPorts (d : Dev) (but : Option Nat) : List Nat :=
  (upTo 8).filter fun p => d.portUp p && some p != but

/-- A flooded control message, whose DEST names its originator (R330). -/
def Dev.flood (d : Dev) (but : Option Nat) (origin : Nat) (payload : List Byte) : Dev :=
  (d.floodPorts but).foldl (fun d p => d.sendBy p FlitType.control 3 0 origin d.deviceId payload) d

/-- The head of a request (R311). -/
def reqHead (addr bytes reqId op stream token : Nat) : List Byte :=
  leBytes 8 addr ++ leBytes 4 (bytes - 1) ++ leBytes 2 reqId ++ leBytes 1 op ++ leBytes 1 stream
    ++ leBytes 4 token ++ leBytes 12 0

/-- A COMPLETION flit (R313). -/
def completionPayload (reqId status : Nat) (group : Option Nat) : List Byte :=
  leBytes 2 reqId ++ leBytes 1 status ++ leBytes 1 0 ++ leBytes 2 (group.getD 0) ++ List.replicate 234 0#8

/-! ### The transmitter (R301, R302, R310) -/

/-- Credits held for a receive queue. -/
def Link.credits (l : Link) (q : Nat) : Nat :=
  512 - (sget 0 l.sent q + 65536 - sget 0 l.peerFreed q) % 65536

/-- The first request of a class and channel that has a flit ready and a credit (R310). -/
def Link.ready (l : Link) (cls : Nat) : Option OutReq :=
  [0, 1].findSome? fun vc =>
    match l.out.find? fun o => o.cls == cls && o.vc == vc with
    | some o => if o.pieces.isEmpty || l.credits (2 * cls + vc) == 0 then none else some o
    | none => none

/-- The next class of the weighted round robin: the class being served while its weight lasts, then the next
ones in order. -/
def Dev.nextClass (d : Dev) (l : Link) : Option (Nat × Nat) :=
  if (l.ready 3).isSome then some (3, l.wrrLeft)
  else
    let weight (c : Nat) : Nat := d.getB Ent.classWeights c 1
    if 0 < l.wrrLeft && (l.ready l.wrrClass).isSome then some (l.wrrClass, l.wrrLeft - 1)
    else
      (([1, 2, 3].map fun k => (l.wrrClass + k) % 3).find? fun c => (l.ready c).isSome).map fun c => (c, weight c - 1)

/-- A request's first flit leaves: its timer starts (R316). -/
def Dev.startTimer (d : Dev) (p : Piece) : Dev :=
  let h := FlitHdr.ofWord p.hdr
  if h.first && h.src == d.deviceId && (h.type == FlitType.put || h.type == FlitType.getReq || h.type == FlitType.atomic
      || h.type == FlitType.mcast) then
    let id := leAt p.payload 12 2
    { d with weave := { d.weave with pends := d.weave.pends.map fun q =>
        if q.shuttle * 2048 + q.num == id && q.sentAt.isNone then { q with sentAt := some d.time.clock, leftAt := d.measured } else q } }
  else d

/-- The payload of this device's LINK flits on a port (R302). -/
def Dev.linkPayload (d : Dev) (port : Nat) : List Byte :=
  let l := d.link port
  let c := d.coord
  ((upTo 8).flatMap fun q => leBytes 2 (sget 0 l.freed q)) ++ leBytes 2 d.deviceId ++ leBytes 1 c.warp ++ leBytes 1 c.weft
    ++ leBytes 1 c.pile ++ leBytes 1 d.devState ++ leBytes 1 (d.get Ent.powerZone) ++ leBytes 1 port
    ++ leBytes 2 (d.get Ent.jobTag)

/-- A flit goes out on a port: it acknowledges, or names a missing flit (R300). -/
def Dev.emit (d : Dev) (port hdr : Nat) (payload : List Byte) (seq : Option Nat) (resent : Bool) : Dev :=
  let l := d.link port
  let bytes := match l.naks with
    | m :: _ => flitBytes hdr payload (seq.getD 0) m seq.isNone resent true false
    | [] => flitBytes hdr payload (seq.getD 0) l.rxSeq seq.isNone resent false true
  let d := d.modLink port fun l => { l with
    naks := l.naks.drop 1, wire := l.wire ++ [bytes], sinceLink := if seq.isNone then 0 else l.sinceLink + 1 }
  let d := (d.count (0x580 + 16 * port) 1).count (0x580 + 16 * port + 2) payload.length
  if resent then (d.count (0x580 + 16 * port + 4) 1).bump Ent.linkCounts (32 * port + 16) 8 1 else d

/-- A LINK flit leaves. -/
def Dev.emitLink (d : Dev) (port : Nat) : Dev :=
  let h : FlitHdr := ⟨FlitType.link, 0, 0, 0, d.deviceId, 0, true, true, false, 0, 26⟩
  (d.emit port h.word (d.linkPayload port) none false).count (0x580 + 16 * port + 10) 1

/-- A kept flit is sent again. -/
def Dev.resend (d : Dev) (port : Nat) (r : Replay) : Dev :=
  let d := d.modLink port fun l => { l with replay := l.replay.map fun x =>
    if x.seq == r.seq then { x with resends := x.resends + 1, wanted := false } else x }
  d.emit port r.piece.hdr r.piece.payload (some r.seq) true

/-- The next flit of a class leaves, numbered and kept. -/
def Dev.emitNew (d : Dev) (port cls left : Nat) (o : OutReq) : Dev :=
  match o.pieces with
  | [] => d
  | p :: ps =>
    let l := d.link port
    let q := 2 * cls + o.vc
    let out := if ps.isEmpty && o.closed then l.out.erase o
      else l.out.map fun x => if x == o then { x with pieces := ps } else x
    let d := d.modLink port fun l => { l with
      out := out, txSeq := (l.txSeq + 1) % 4096, replay := l.replay ++ [⟨l.txSeq, p, 0, false⟩]
      sent := sset 0 l.sent q ((sget 0 l.sent q + 1) % 65536)
      wrrClass := if cls = 3 then l.wrrClass else cls, wrrLeft := left }
    (d.startTimer p).emit port p.hdr p.payload (some l.txSeq) false

/-- One flit leaves an open port (R301, R302, R310): a LINK flit when 127 others have left since the last one or
when nothing else can go, wanted flits before new ones, at most 2,048 unacknowledged. A port that carries no
direction, or has no matched neighbour, sends LINK flits only (R299, R304). -/
def Dev.transmit (d : Dev) (port : Nat) : Dev :=
  if !d.linkOpen port then d
  else
    let l := d.link port
    if 127 ≤ l.sinceLink || !d.carries port then d.emitLink port
    else match l.replay.find? fun r => r.wanted with
      | some r => d.resend port r
      | none =>
        if 2048 ≤ l.replay.length then d.emitLink port
        else match d.nextClass l with
          | none => d.emitLink port
          | some (c, left) =>
            match l.ready c with
            | some o => d.emitNew port c left o
            | none => d.emitLink port

/-! ### Acknowledgements (R301) -/

/-- Distance of a SEQ ahead of another. -/
def seqAhead (a b : Nat) : Nat := (a + 4096 - b % 4096) % 4096

/-- The ACK or NAK of a received trailer. -/
def Dev.takeAck (d : Dev) (port ack : Nat) (nak valid : Bool) : Dev :=
  d.modLink port fun l =>
    if nak then { l with replay := l.replay.map fun r => if r.seq == ack then { r with wanted := true } else r }
    else if valid then
      match l.replay with
      | [] => l
      | r :: _ =>
        let n := seqAhead ack r.seq
        if n ≤ l.replay.length then { l with replay := l.replay.drop n } else l
    else l

/-- The oldest unacknowledged flit is sent again (R301); after 16 re-sends the port is lost, which the caller
sees. -/
def Dev.resendOldest (d : Dev) (port : Nat) : Dev :=
  if d.carries port then
    match (d.link port).replay with
    | [] => d
    | r :: _ => d.resend port r
  else d

/-! ### Port states (R303) -/

/-- The link layer of a port starts afresh; whether the port was lost stands. -/
def Dev.freshLink (d : Dev) (port : Nat) (lost : Bool) : Dev :=
  d.modLink port fun l => { Link.reset with wire := l.wire, lost := lost }

/-- A port starts to train: its link layer starts afresh. -/
def Dev.trainPort (d : Dev) (port : Nat) : Dev :=
  (d.freshLink port (d.link port).lost).setPortState port PortSt.training

/-- A port that has trained is UP. -/
def Dev.portRises (d : Dev) (port : Nat) : Dev :=
  (d.modLink port fun l => { l with lost := false, trained := false }).setPortState port PortSt.up

/-- Training completes. A port that was lost and carries a direction is UP again only once R304 holds (R303): it
waits in TRAINING for its neighbour's LINK flits. -/
def Dev.portTrained (d : Dev) (port : Nat) : Dev :=
  if decide (port < 8) && d.portState port == PortSt.training && bitOf (d.get Ent.portEnable) port then
    if (d.link port).lost && (d.dirOf port).isSome then d.modLink port fun l => { l with trained := true }
    else d.portRises port
  else d

def Dev.trainingTimeout (d : Dev) (port : Nat) : Dev :=
  if decide (port < 8) && d.portState port == PortSt.training then
    ((d.freshLink port true).setPortState port PortSt.failed).fault 0x0403 (Unit.port port) 0
  else d

def Dev.retrain (d : Dev) (port : Nat) : Dev :=
  if decide (port < 8) && (d.portState port == PortSt.down || d.portState port == PortSt.failed)
      && bitOf (d.get Ent.portEnable) port then d.trainPort port
  else d

/-- The link is lost: queues and replay buffer are discarded (R303, R333). HOLD is its caller's. -/
def Dev.dropLink (d : Dev) (port : Nat) : Dev :=
  let d := (d.setPortState port PortSt.down).bump Ent.linkCounts (32 * port + 28) 4 1
  let d := d.freshLink port true
  let d := d.putB Ent.neighbour (8 * port + 7) 1 0
  d.fault 0x0402 (Unit.port port) 0

/-- The Selvage of a port, and whether its core and PHY domains are on (R456, R552). -/
def selvageOfPort (port : Nat) : Nat := if [0, 1, 2, 6].contains port then 0 else 1
def Dev.portPowered (d : Dev) (port : Nat) : Bool :=
  d.getB Ent.domainStatus (64 + 2 * selvageOfPort port) 1 == 1 && d.getB Ent.domainStatus (65 + 2 * selvageOfPort port) 1 == 1

/-- PORT_ENABLE takes effect: newly enabled ports train, disabled ones idle (R299, R303). -/
def Dev.applyPortEnable (d : Dev) : Dev :=
  (upTo 8).foldl (fun d i =>
    if bitOf (d.get Ent.portEnable) i then (if d.portState i == PortSt.disabled && d.portPowered i then d.trainPort i else d)
    else (d.freshLink i false).setPortState i PortSt.disabled) d

/-- A LINK flit's credits and identity (R302, R304). A port that was lost is UP when the identity matches (R303);
an UP port records 0x0401 once for a neighbour that does not. -/
def Dev.linkFlit (d : Dev) (port : Nat) (f : LinkF) : Dev :=
  if !d.linkOpen port then d
  else
    let d := d.modLink port fun l => { l with
      peerFreed := (upTo 8).foldl (fun m q => sset 0 m q (nth 0 f.freed q % 65536)) l.peerFreed }
    let ok := match d.dirOf port with
      | some dir => d.neighbourAt dir == some ⟨f.warp, f.weft, f.pile⟩
      | none => true
    let word := f.device + f.warp <<< 16 + f.weft <<< 24 + f.pile <<< 32 + f.state <<< 40 + f.zone <<< 48 + bitNat ok <<< 56
    let was := d.getB Ent.neighbour (8 * port) 8
    let d := d.putB Ent.neighbour (8 * port) 8 word
    if ok then
      let d := d.modLink port fun l => { l with told := false }
      if d.portUp port then d else d.portRises port
    else if d.portUp port && (!(d.link port).told || was % 2 ^ 40 != word % 2 ^ 40) then
      (d.modLink port fun l => { l with told := true }).fault 0x0401 (Unit.port port) f.device
    else d

end Sys2Proof.Machine
end

