-- ==== Sys2Proof/Machine/Reduce.lean ====
section
/-!
DEFINITION. Reduction trees and fingerprints (*Collectives, deadlines and late contributions*, R337–R360,
R369, R370): section 0x000B, summation at a node, reduce requests, deadlines and late contributions,
withheld contributions, fingerprint sets. The vote is in Vote.
-/
namespace Sys2Proof.Machine
open Sys2Proof

/-! ### Section 0x000B (R340) -/

/-- The bytes of a section of the loaded Pattern. -/
def Dev.section (d : Dev) (type : Nat) : List Byte :=
  match d.pat.sections.find? fun s => s.1 == type with
  | some s => s.2
  | none => []

/-- The head and list block. -/
structure CollHead where
  nodes : Nat
  roundRecs : Nat
  gathers : Nat
  stage : Nat
  stages : Nat
  leaves : Nat
  leaf : Nat
  scaleLag : Nat
  voteChildren : List Nat
  voteParent : Nat
  voteDeadline : Nat
  replica : List Nat
  foldBase : Nat
  foldBytes : Nat
  journalBase : Nat
  journalRecs : Nat
deriving DecidableEq, Repr

def CollHead.ofBytes (bs : List Byte) : CollHead :=
  { nodes := leAt bs 0 2, roundRecs := leAt bs 2 2, gathers := leAt bs 4 2, stage := leAt bs 6 1,
    stages := leAt bs 7 1, leaves := leAt bs 8 2, leaf := leAt bs 10 2, scaleLag := leAt bs 12 1,
    voteChildren := (upTo (leAt bs 13 1)).map fun k => leAt bs (64 + 2 * k) 2
    voteParent := leAt bs 14 2, voteDeadline := leAt bs 16 4,
    replica := (upTo (leAt bs 20 1)).map fun k => leAt bs (128 + 2 * k) 2
    foldBase := leAt bs 24 8, foldBytes := leAt bs 32 8, journalBase := leAt bs 40 8, journalRecs := leAt bs 48 4 }

/-- MB of R347. -/
def CollHead.maskBytes (h : CollHead) : Nat := 8 * ceilDiv h.leaves 64

structure NodeRec where
  tree : Nat
  level : Nat
  children : Nat
  parent : Nat
  parentSlot : Nat
  rounds : Nat
  ring : Nat
  maxb : Nat
  firstRound : Nat
  staging : Nat
  keep : Nat
  child : List Nat
deriving DecidableEq, Repr

def NodeRec.ofBytes (bs : List Byte) : NodeRec :=
  { tree := leAt bs 0 2, level := leAt bs 2 1, children := leAt bs 3 1, parent := leAt bs 4 2,
    parentSlot := leAt bs 6 1, rounds := leAt bs 7 1, ring := leAt bs 8 1, maxb := leAt bs 12 4,
    firstRound := leAt bs 16 4, staging := leAt bs 24 8, keep := leAt bs 32 8,
    child := (upTo 32).map fun k => leAt bs (64 + 2 * k) 2 }

def NodeRec.isRoot (n : NodeRec) : Bool := n.parent == 0xFFFF

structure RoundRec where
  tree : Nat
  round : Nat
  blocks : Nat
  elements : Nat
  deadline : Nat
  own : Nat
  rootOut : Nat
deriving DecidableEq, Repr

def RoundRec.ofBytes (bs : List Byte) : RoundRec :=
  { tree := leAt bs 0 2, round := leAt bs 2 1, blocks := leAt bs 4 4, elements := leAt bs 8 4,
    deadline := leAt bs 12 4, own := leAt bs 16 8, rootOut := leAt bs 24 8 }

structure GatherRec where
  group : Nat
  copy : Nat
  elements : Nat
  elementBase : Nat
  data : Nat
  sealAt : Nat
deriving DecidableEq, Repr

def GatherRec.ofBytes (bs : List Byte) : GatherRec :=
  { group := leAt bs 0 2, copy := leAt bs 2 1, elements := leAt bs 4 4, elementBase := leAt bs 8 8,
    data := leAt bs 16 8, sealAt := leAt bs 24 8 }

def Dev.collHead (d : Dev) : CollHead := CollHead.ofBytes (d.section 0x000B)
/-- The Pattern holds collectives. -/
def Dev.hasColl (d : Dev) : Bool := !(d.section 0x000B).isEmpty

def Dev.nodeRec (d : Dev) (i : Nat) : NodeRec := NodeRec.ofBytes (((d.section 0x000B).drop (256 + 128 * i)).take 128)
def Dev.roundRecAt (d : Dev) (i : Nat) : RoundRec :=
  RoundRec.ofBytes (((d.section 0x000B).drop (256 + 128 * d.collHead.nodes + 32 * i)).take 32)
def Dev.gatherRec (d : Dev) (i : Nat) : GatherRec :=
  let h := d.collHead
  GatherRec.ofBytes (((d.section 0x000B).drop (256 + 128 * h.nodes + 32 * h.roundRecs + 32 * i)).take 32)

/-- The round record of round r of node i. -/
def Dev.roundRec (d : Dev) (i r : Nat) : RoundRec := d.roundRecAt ((d.nodeRec i).firstRound + r)

/-- The node record of a tree. -/
def Dev.nodeOf (d : Dev) (tree : Nat) : Option Nat :=
  if d.hasColl then (upTo d.collHead.nodes).find? fun i => (d.nodeRec i).tree == tree else none

/-- The start beat of a step (R210). -/
def Dev.startBeatOf (d : Dev) (k : Nat) : Nat :=
  d.pat.startBeat + (k + d.pat.rebased - d.pat.firstStep) * d.pat.stepBeats

/-! ### Rounds -/

def Dev.round (d : Dev) (i r : Nat) : Option RoundState := d.coll.rounds.find? fun x => x.node == i && x.round == r

def Dev.modRound (d : Dev) (i r : Nat) (f : RoundState → RoundState) : Dev :=
  { d with coll := { d.coll with rounds := d.coll.rounds.map fun x => if x.node == i && x.round == r then f x else x } }

/-- Every round of every node record at the first step of a run (R350), or at a step an adoption joins (R370). -/
def Dev.openRounds (d : Dev) (step : Nat) : Dev :=
  if d.hasColl then
    { d with coll := { d.coll with rounds := (upTo d.collHead.nodes).flatMap fun i =>
        (upTo (d.nodeRec i).rounds).map fun r => ⟨i, r, step, 0, [], none, []⟩ } }
  else d

def RoundState.term (x : RoundState) (slot : Nat) : ChildTerm :=
  (x.terms.find? fun t => t.slot == slot).getD ⟨slot, 0, [], 0, 0⟩

def RoundState.setTerm (x : RoundState) (t : ChildTerm) : RoundState :=
  { x with terms := t :: x.terms.filter fun u => u.slot != t.slot }

/-- The device has a leaf of its own in a round. -/
def RoundRec.hasOwn (q : RoundRec) : Bool := q.own != 0

/-- Where child slot c's block j of round r lies, and the node's output block (R340). -/
def NodeRec.stageAddr (n : NodeRec) (r c j : Nat) : Nat :=
  n.staging + (r % n.ring * n.children + c) * n.maxb * 516 + 516 * j
def NodeRec.keepAddr (n : NodeRec) (r j : Nat) : Nat := n.keep + (r * n.maxb + j) * 516

/-- log₂ of a power of two held as FP32. -/
def log2Scale (s : Nat) : Int :=
  if fieldOf s 30 23 = 0 then (Nat.log2 (fieldOf s 22 0) : Int) - 149 else ((fieldOf s 30 23 : Nat) : Int) - 127

/-! ### Summation at a node (R342–R344) -/

/-- A term's block with its exponent after fold adjustment. -/
structure Term where
  exp : Int
  block : GradBlock
  fold : Bool
deriving DecidableEq, Repr

/-- An overflow term (R342). -/
def Term.overflow (t : Term) : Bool :=
  t.block.overflow || t.block.vals.any fun v => !(Fmt.fp16.decode v).isFinite

def Term.nonZero (t : Term) : Bool := t.block.vals.any fun v => !(Fmt.fp16.decode v).isZero

/-- m × 2^sh as an integer, ties to even where bits are lost. -/
def shiftRne (m : Int) (sh : Int) : Int :=
  if 0 ≤ sh then m * ((2 ^ sh.toNat : Nat) : Int)
  else
    let q : Int := (rneShift m.natAbs (-sh).toNat : Nat)
    if m < 0 then -q else q

/-- E_hi: the largest exponent among non-overflow terms with a non-zero element. -/
def highExp (ts : List Term) : Int :=
  match (ts.filter fun t => !t.overflow && t.nonZero).map Term.exp with
  | [] => 0
  | e :: es => es.foldl max e

/-- One element of one term in units of 2^(E_hi − 98). -/
def Term.units (t : Term) (hi : Int) (k : Nat) : Int :=
  match Fmt.fp16.decode (nth 0 t.block.vals k) with
  | .fin s m e => shiftRne (if s then -(m : Int) else (m : Int)) (e + t.exp - hi + 98)
  | .inf _ => 0
  | .nan _ => 0

/-- S of every element, in those units. -/
def sumUnits (ts : List Term) (hi : Int) : List Int :=
  (upTo 256).map fun k => (ts.map fun t => t.units hi k).foldl (· + ·) 0

def intNum (s : Int) (e : Int) : Num := .fin (decide (s < 0)) s.natAbs e

/-- The node's output block (R343). -/
def outBlock (ts : List Term) : GradBlock :=
  let count := (ts.map fun t => t.block.count).foldl (· + ·) 0
  let late := ts.any fun t => t.fold || t.block.lateFold
  let over_ : GradBlock := ⟨0, true, late, false, count, List.replicate 256 0x7E00⟩
  if ts.any Term.overflow then over_
  else
    let hi := highExp ts
    let s := sumUnits ts hi
    let m := s.foldl (fun a x => max a x.natAbs) 0
    if m = 0 then ⟨0, false, late, false, count, List.replicate 256 0⟩
    else
      let e := min (max ((Nat.log2 m : Int) + hi - 98 - 14) (-128)) 127
      let vals := s.map fun x => (Fmt.fp16.round (intNum x (hi - 98 - e))).1
      if vals.any fun v => !(Fmt.fp16.decode v).isFinite then over_ else ⟨e, false, late, false, count, vals⟩

/-- num × 2^e ÷ den rounded once to FP32. -/
def ratioF32 (num : Int) (e : Int) (den : Nat) : F32 :=
  let k := 64 + Nat.log2 (den + 1)
  let n := num.natAbs * 2 ^ k
  let q := n / den
  let sticky := bitNat (n % den != 0)
  (f32Of (.fin (decide (num < 0)) (2 * q + sticky) (e - k - 1))).1

/-- The root's FP32 gradients of one block, and whether a quotient rounded to an infinity (R344). -/
def rootBlock (ts : List Term) (scale : Nat) : List F32 × Bool × Bool :=
  if ts.any Term.overflow then (List.replicate 256 f32Nan, true, false)
  else
    let count := (ts.map fun t => t.block.count).foldl (· + ·) 0
    let hi := highExp ts
    let gs := (sumUnits ts hi).map fun x => if count = 0 then f32Zero else ratioF32 x (hi - 98 - log2Scale scale) count
    let inf := gs.any f32IsInf
    (gs, inf, inf)

/-! ### Sending rounds to the parent (R347, R348) -/

/-- A reduce request's head. -/
def reduceHead (tree round kind step first blocks slot : Nat) (replay : Bool) (beat : Nat) : List Byte :=
  leBytes 2 tree ++ leBytes 1 round ++ leBytes 1 kind ++ leBytes 4 step ++ leBytes 4 first ++ leBytes 4 blocks
    ++ leBytes 1 slot ++ leBytes 1 (bitNat replay) ++ leBytes 2 0 ++ leBytes 4 beat ++ leBytes 8 0

/-- Indices cut into contiguous runs of at most 32,512. -/
def blockRuns : Nat → List Nat → List (Nat × Nat)
  | _, [] => []
  | 0, _ => []
  | k + 1, j :: js =>
    let n := (upTo (js.length + 1)).takeWhile (fun i => nth 0 (j :: js) i == j + i) |>.length
    let n := min n 32512
    (j, n) :: blockRuns k ((j :: js).drop n)

/-- A request of the reduce unit; while counting is frozen it waits, unless it is a replay (R369, R370). -/
def Dev.sendReduce (d : Dev) (i r step : Nat) (kind first blocks : Nat) (replay : Bool) (beat : Nat) (body : List Byte) : Dev :=
  let n := d.nodeRec i
  let payload := reduceHead n.tree r kind step first blocks n.parentSlot replay beat ++ body
  let d := if d.frozen && !replay then { d with weave := { d.weave with outHeld := d.weave.outHeld ++ [(n.parent, payload)] } }
    else d.sendRouted FlitType.reduce 2 d.pat.jobTag n.parent false payload
  { d with weave := { d.weave with waits := d.weave.waits ++ [⟨n.parent, i, r, step, kind == 1⟩] } }

/-- Beats after the start beat of a step. -/
def Dev.beatIn (d : Dev) (step : Nat) : Nat := d.get Ent.logicalBeat - d.startBeatOf step

def Dev.keepSent (d : Dev) (x : SentRound) : Dev :=
  { d with coll := { d.coll with sent := x :: d.coll.sent.filter fun y => !(y.node == x.node && y.round == x.round && y.step == x.step) } }

/-- The CLOSE of a round, or a VOID where a DATA failed. -/
def Dev.sendClose (d : Dev) (s : RoundSend) : Dev :=
  let mb := d.collHead.maskBytes
  let beat := s.beat.getD (d.beatIn s.step)
  let d := { d with weave := { d.weave with sends := d.weave.sends.erase s } }
  if s.failed then d.sendReduce s.node s.round s.step 3 0 0 s.replay beat []
  else d.sendReduce s.node s.round s.step 2 0 0 s.replay beat (leBytes mb s.on ++ leBytes mb s.fold)

/-- A round's blocks go to the parent as DATA, then its CLOSE once they have completed. Blocks are given by
index and address. -/
def Dev.sendRound (d : Dev) (i r step : Nat) (blocks : List (Nat × Nat)) (on fold : Nat) (replay : Bool) (beat : Option Nat) : Dev :=
  let runs := blockRuns (blocks.length + 1) (blocks.map Prod.fst)
  let addr (j : Nat) : Nat := ((blocks.find? fun b => b.1 == j).map Prod.snd).getD 0
  let d := runs.foldl (fun d q =>
    d.sendReduce i r step 1 q.1 q.2 replay 0 ((upTo q.2).flatMap fun k => d.read (addr (q.1 + k)) 516)) d
  let s : RoundSend := ⟨i, r, step, runs.length, false, on, fold, replay, beat⟩
  let d := { d with weave := { d.weave with sends := d.weave.sends ++ [s] } }
  let d := if replay then d else d.keepSent ⟨i, r, step, 2, blocks, on, fold, d.beatIn step⟩
  if runs.isEmpty then d.sendClose s else d

/-- The round's VOID. -/
def Dev.sendVoid (d : Dev) (i r step : Nat) : Dev :=
  let d := d.keepSent ⟨i, r, step, 3, [], 0, 0, d.beatIn step⟩
  d.sendReduce i r step 3 0 0 false (d.beatIn step) []

/-- What waited for resume goes out. -/
def Dev.flushReduce (d : Dev) : Dev :=
  let q := d.weave.outHeld
  q.foldl (fun d m => d.sendRouted FlitType.reduce 2 d.pat.jobTag m.1 false m.2) { d with weave := { d.weave with outHeld := [] } }

/-- 0x4013:00 E2E_STATUS_COUNT. -/
def Dev.countStatus (d : Dev) (status : Nat) : Dev := d.bump Ent.e2eStatusCount (4 * status) 4 1

/-- A COMPLETION of a reduce request: requests to one target complete in the order they went (R315, R348). -/
def Dev.reduceCompleted (d : Dev) (src status : Nat) : Dev :=
  match d.weave.waits.find? fun w => w.target == src with
  | none => d
  | some w =>
    let d := ({ d with weave := { d.weave with waits := d.weave.waits.erase w } }).countStatus status
    if !w.data then d
    else match d.weave.sends.find? fun s => s.node == w.node && s.round == w.round && s.step == w.step with
      | none => d
      | some s =>
        let s' := { s with left := s.left - 1, failed := s.failed || status != 0 }
        let d := { d with weave := { d.weave with sends := d.weave.sends.map fun x => if x == s then s' else x } }
        if s'.left = 0 then d.sendClose s' else d

/-! ### Late contributions (R352) -/

/-- Fold-pool bytes in use. -/
def Dev.foldUsed (d : Dev) : Nat := 516 * (d.coll.folds.map fun f => f.blocks.length).foldl (· + ·) 0

/-- A contribution of a round already closed is discarded (R352). -/
def Dev.discardLate (d : Dev) : Dev :=
  (((d.bump Ent.lateCounts 16 8 1).count 0x543 1)).faultOnce 0x0704 Unit.device 0

/-- The entry is the contribution of a slot to a round of a step. -/
def FoldEntry.isOf (f : FoldEntry) (i r slot step : Nat) : Bool := f.node == i && f.round == r && f.slot == slot && f.step == step

def Dev.setFold (d : Dev) (e : FoldEntry) : Dev :=
  { d with coll := { d.coll with folds := e :: d.coll.folds.filter fun f => !f.isOf e.node e.round e.slot e.step } }

/-- The late contribution of a slot is discarded whole, and counted once: what comes of it afterwards goes with it. -/
def Dev.loseTerm (d : Dev) (i r slot step : Nat) : Dev :=
  if d.coll.folds.any fun f => f.isOf i r slot step && f.lost then d.faultOnce 0x0704 Unit.device 0
  else (d.setFold ⟨i, r, slot, step, [], false, 0, 0, true⟩).discardLate

/-- Blocks join a fold entry with STALE set, in place of blocks of the same index. -/
def FoldEntry.addBlocks (e : FoldEntry) (blocks : List (Nat × List Byte)) : FoldEntry :=
  let stale := blocks.map fun b => (b.1, ({ GradBlock.ofBytes b.2 with stale := true }).bytes)
  { e with blocks := e.blocks.filter (fun b => !stale.any fun c => c.1 == b.1) ++ stale }

/-- Late blocks, or a late CLOSE with its masks, for the round before the expected step. The blocks that were staged
before the close left the child out belong to its contribution (DEDUCED, log 114). -/
def Dev.lateTerm (d : Dev) (i r slot step : Nat) (blocks : List (Nat × List Byte)) (close : Option (Nat × Nat)) : Dev :=
  match d.round i r with
  | none => d
  | some x =>
    let known := d.coll.folds.find? fun f => f.isOf i r slot step
    let staged := (d.coll.leftovers.find? fun f => f.isOf i r slot step).getD ⟨i, r, slot, step, [], false, 0, 0, false⟩
    let base := known.getD (FoldEntry.addBlocks { staged with blocks := [] } staged.blocks)
    let e := base.addBlocks blocks
    let e := match close with
      | some m => { e with closed := true, on := m.1, fold := m.2 }
      | none => e
    let more := 516 * (e.blocks.length - (match known with | some f => f.blocks.length | none => 0))
    if base.lost || d.get Ent.latePolicy != 0 || x.expected != step + 1 || decide (d.collHead.foldBytes < d.foldUsed + more) then
      d.loseTerm i r slot step
    else
      let d := d.setFold e
      let d := if known.isNone then d.bump Ent.lateCounts 0 8 1 else d
      d.faultOnce 0x0703 Unit.device 0

/-! ### Closing a round (R351) -/

/-- A fold entry that the closing round includes (R352). -/
def FoldEntry.usable (f : FoldEntry) : Bool := f.closed && !f.lost && !f.blocks.any fun b => (GradBlock.ofBytes b.2).overflow

/-- The terms that hold block j of a closing round. -/
def Dev.termsOf (d : Dev) (i : Nat) (x : RoundState) (folds : List FoldEntry) (j : Nat) : List Term :=
  let n := d.nodeRec i
  let q := d.roundRec i x.round
  let plain (a : Nat) : Term := let b := GradBlock.ofBytes (d.read a 516); ⟨b.exp, b, false⟩
  let own := if x.own = 1 && q.hasOwn then [plain (q.own + 516 * j)] else []
  let kids := (x.terms.filter fun t => t.status == 1 && t.blocks.contains j).map fun t => plain (n.stageAddr x.round t.slot j)
  let shift := log2Scale (d.scaleOf x.expected) - log2Scale (d.scaleOf (x.expected - 1))
  let late := folds.filterMap fun f => (f.blocks.find? fun b => b.1 == j).map fun b =>
    let g := GradBlock.ofBytes b.2
    (⟨g.exp + shift, g, true⟩ : Term)
  own ++ kids ++ late

/-- The step's overflow outcome for the vote (R344, R362). -/
def Dev.markOverflow (d : Dev) : Dev := { d with coll := { d.coll with overflow := true } }

/-- The root writes the gradients of block j (R344). An overflow of a step already voted, whose gradient an adoption
rebuilds, is recorded and enters no vote (R421). -/
def Dev.writeRoot (d : Dev) (q : RoundRec) (scale step j : Nat) (ts : List Term) : Dev :=
  let res := if ts.isEmpty then (List.replicate 256 f32Zero, false, false) else rootBlock ts scale
  let n := min 256 (q.elements - 256 * j)
  let rebuilt := decide (step < d.coll.voteStep)
  let d := d.stackWrite (q.rootOut + 1024 * j) (wordBytes (res.1.take n))
  let d := if res.2.1 && !rebuilt then d.markOverflow else d
  if res.2.2 || (res.2.1 && rebuilt) then d.fault 0x070A Unit.device j else d

/-- The staged blocks of the children that the close leaves open. -/
def Dev.leftoversOf (d : Dev) (i : Nat) (x : RoundState) : List FoldEntry :=
  (x.terms.filter fun t => t.status == 0 && !t.blocks.isEmpty).map fun t =>
    ⟨i, x.round, t.slot, x.expected, t.blocks.map fun j => (j, d.read ((d.nodeRec i).stageAddr x.round t.slot j) 516),
      false, 0, 0, false⟩

/-- The masks of a round for a step. -/
def RoundState.maskOf (x : RoundState) (step : Nat) : StepMask := (x.masks.find? fun m => m.step == step).getD ⟨step, 0, 0⟩

/-- A node closes a round with the terms it has, sends or writes its output, and expects the next step. -/
def Dev.closeRound (d : Dev) (i r : Nat) : Dev :=
  match d.round i r with
  | none => d
  | some x =>
    let n := d.nodeRec i
    let q := d.roundRec i r
    let mine := d.coll.folds.filter fun f => f.node == i && f.round == r && f.step + 1 == x.expected
    let used := mine.filter FoldEntry.usable
    let d := { d with coll := { d.coll with
      folds := d.coll.folds.filter fun f => !(f.node == i && f.round == r)
      leftovers := d.leftoversOf i x ++ d.coll.leftovers.filter fun (f : FoldEntry) => !(f.node == i && f.round == r) } }
    let d := (mine.filter fun f => !f.usable && !f.lost).foldl (fun d _ => d.discardLate) d
    let d := (d.bump Ent.lateCounts 8 8 used.length).count 0x542 used.length
    let h := d.collHead
    let kids := x.terms.filter fun t => t.status == 1
    let ownBit := if x.own = 1 && q.hasOwn then 2 ^ h.leaf else 0
    let on := kids.foldl (fun m t => m ||| t.on) ownBit
    let fold := used.foldl (fun m f => m ||| f.on ||| f.fold) (kids.foldl (fun m t => m ||| t.fold) 0)
    let work := (upTo q.blocks).map fun j => (j, d.termsOf i x used j)
    let d := (d.count 0x540 (256 * (work.map fun w => w.2.length).foldl (· + ·) 0)).count 0x541 1
    let d := match x.firstAt with
      | some t => d.hist 4 ((d.measured - t) / 65536)
      | none => d
    let step := x.expected
    let d :=
      if n.isRoot then
        work.foldl (fun d w => d.writeRoot q (d.scaleOf step) step w.1 w.2) d
      else
        let out := work.filter fun w => !w.2.isEmpty
        let d := out.foldl (fun d w => d.stackWrite (n.keepAddr r w.1) (outBlock w.2).bytes) d
        d.sendRound i r step (out.map fun w => (w.1, n.keepAddr r w.1)) on fold false none
    d.modRound i r fun y => { y with
      expected := step + 1, own := 0, terms := [], firstAt := none, masks := (⟨step, on, fold⟩ :: y.masks).take 8 }

/-- Every term is closed or void; the own leaf of a device that adopts a position is void (R418). -/
def Dev.roundComplete (d : Dev) (i : Nat) (x : RoundState) : Bool :=
  let n := d.nodeRec i
  (x.own != 0 || !(d.roundRec i x.round).hasOwn || d.devState == St.adopting) && (upTo n.children).all fun c => (x.term c).status != 0

/-- The round closes if it can (R351), unless the device is HELD (R369). -/
def Dev.tryClose (d : Dev) (i r : Nat) : Dev :=
  match d.round i r with
  | none => d
  | some x => if (d.nodeRec i).level != 0 && d.roundComplete i x && !d.frozen then d.closeRound i r else d

/-- The reduce unit, the vote and the Burnishers act as in a run (R418, R463). -/
def Dev.inRun (d : Dev) : Bool :=
  d.inState [St.running, St.held, St.braced] || (d.devState == St.adopting && decide (5 ≤ d.getB Ent.adoptStatus 0 1))

/-- The deadline beat of a round is observed. -/
def Dev.roundDeadline (d : Dev) (i r : Nat) : Dev :=
  match d.round i r with
  | none => d
  | some x =>
    if (d.nodeRec i).level != 0 && d.inRun && !d.frozen
        && decide (d.startBeatOf x.expected + (d.roundRec i r).deadline ≤ d.get Ent.logicalBeat) then d.closeRound i r
    else d

/-! ### The own leaf (R349, R352, R355, R360) -/

/-- The own leaf of a round is closed for a step. -/
def Dev.leafNow (d : Dev) (i r step : Nat) : Dev :=
  let n := d.nodeRec i
  let q := d.roundRec i r
  let blocks := (upTo q.blocks).map fun j => (j, q.own + 516 * j)
  match d.round i r with
  | none => d
  | some x =>
    if n.level = 0 then
      if x.own != 0 && x.expected == step then d
      else (d.modRound i r fun y => { y with own := 1, expected := step }).sendRound i r step blocks
        (2 ^ d.collHead.leaf) 0 false none
    else if step < x.expected then
      d.lateTerm i r 32 step (blocks.map fun b => (b.1, d.read b.2 516)) (some (2 ^ d.collHead.leaf, 0))
    else
      (d.modRound i r fun y => { y with own := 1, firstAt := some (y.firstAt.getD d.measured) }).tryClose i r

/-- The own leaf of a round is void for a step (R355). -/
def Dev.leafVoid (d : Dev) (i r step : Nat) : Dev :=
  match d.round i r with
  | none => d
  | some x =>
    if (d.nodeRec i).level = 0 then
      if x.own != 0 && x.expected == step then d
      else if (d.roundRec i r).hasOwn then (d.modRound i r fun y => { y with own := 2, expected := step }).sendVoid i r step
      else d
    else if x.expected = step && x.own = 0 then (d.modRound i r fun y => { y with own := 2 }).tryClose i r
    else d

/-- A fingerprint set opened in the current step is still unchecked (R360). -/
def Dev.unchecked (d : Dev) : Bool := d.coll.fpSets.any fun e => e.2.opened == some d.step && !e.2.checked

/-- LEAF_CLOSE (R349): held while a set is unchecked; refused with 0x0707. -/
def Dev.leafClose (d : Dev) (tree r step : Nat) : Dev :=
  match d.nodeOf tree with
  | none => d.fault 0x0707 Unit.device tree
  | some i =>
    if (d.nodeRec i).rounds ≤ r || !(d.roundRec i r).hasOwn then d.fault 0x0707 Unit.device tree
    else if d.unchecked then { d with coll := { d.coll with heldCloses := d.coll.heldCloses ++ [(i, r)] } }
    else if d.withheld && d.coll.ownVoid then d
    else d.leafNow i r step

/-- R355 step 2: every round whose own leaf is not yet closed becomes void. -/
def Dev.voidLeaves (d : Dev) (step : Nat) : Dev :=
  let d := { d with coll := { d.coll with ownVoid := true, heldCloses := [] } }
  d.coll.rounds.foldl (fun d x => d.leafVoid x.node x.round step) d

/-- R355: REPLICA_VOID to the other devices of the replica, and void leaves. -/
def Dev.sendVoids (d : Dev) (tell : Bool) : Dev :=
  if d.hasColl then
    let h := d.collHead
    let others := if tell then h.replica.filter fun p => p != d.deviceId else []
    let msg := leBytes 1 0x22 ++ leBytes 3 0 ++ leBytes 4 d.step ++ List.replicate 232 0#8
    let d := others.foldl (fun d p => (d.sendControl p msg).count 0x408 1) d
    d.voidLeaves d.step
  else d

/-! ### Reduce requests at a node (R350) -/

/-- The target's answer to a reduce request. -/
def Dev.answerReduce (d : Dev) (src status : Nat) : Dev :=
  d.sendRouted FlitType.completion 3 0 src false (completionPayload 0xFFFF status none)

/-- Job tag and state (R314): the status that refuses, if one does. -/
def Dev.gate (d : Dev) (tag : Nat) : Option Nat :=
  if !d.pat.loaded then some 0x05
  else if tag != d.pat.jobTag then some 0x01
  else if d.inState [St.loaded, St.running, St.held, St.braced, St.stowed, St.adopting] then none
  else some 0x05

/-- A request with a foreign tag is counted and logged (R313). -/
def Dev.foreignTag (d : Dev) : Dev := (d.bump Ent.foreignTagCount 0 8 1).faultOnce 0x0405 Unit.device 0

/-- The fields of a reduce request fit the device's records; blocks and first are 0 but for DATA. -/
def Dev.reduceFits (d : Dev) (f : ReduceF) (first blocks : Nat) : Option Nat :=
  match d.nodeOf f.tree with
  | none => none
  | some i =>
    let n := d.nodeRec i
    if f.slot < n.children && nth 0xFFFF n.child f.slot == f.src && decide (f.round < n.rounds)
        && decide (first + blocks ≤ (d.roundRec i f.round).blocks) then some i else none

/-- The buffer of a round is held by an unclosed other round (R350). -/
def Dev.ringBusy (d : Dev) (i r : Nat) : Bool :=
  let n := d.nodeRec i
  d.coll.rounds.any fun x => x.node == i && x.round != r && x.round % n.ring == r % n.ring && x.terms.any fun t => !t.blocks.isEmpty

/-- The checks shared by DATA, CLOSE and VOID: what to do with the request at node i. During a witness run it is
discarded (R426). -/
inductive ReduceWay where
  | refuse (status : Nat) | bad | onTime (i : Nat) | late (i : Nat) | drop
deriving DecidableEq, Repr

def Dev.reduceWay (d : Dev) (f : ReduceF) (first blocks : Nat) : ReduceWay :=
  match d.gate f.tag with
  | some s => .refuse s
  | none =>
    if !d.power.stackUp then .refuse 0x03
    else match d.reduceFits f first blocks with
    | none => .bad
    | some i =>
      match d.round i f.round with
      | none => .bad
      | some x =>
        if x.expected < f.step then .bad
        else if d.resil.witnessFrom.isSome then .drop
        else if f.step = x.expected then
          if blocks != 0 && d.ringBusy i f.round then .bad else .onTime i
        else if f.replay then .drop
        else .late i

/-- A refused or discarded request is answered. -/
def Dev.reduceRefused (d : Dev) (f : ReduceF) : ReduceWay → Dev
  | .refuse s => (if s = 1 then d.foreignTag else d).answerReduce f.src s
  | .bad => (d.fault 0x0707 Unit.device f.tree).answerReduce f.src 0x02
  | .drop => d.answerReduce f.src 0
  | .onTime _ => d
  | .late _ => d

/-- DATA: blocks to staging, or late. -/
def Dev.reduceData (d : Dev) (f : ReduceF) (first blocks : Nat) (data : List Byte) : Dev :=
  let block (k : Nat) : List Byte := (data.drop (516 * k)).take 516
  if d.holdsMsgs then d.holdMsg (.reduce 0 f first blocks data)
  else match d.reduceWay f first blocks with
  | .onTime i =>
    let n := d.nodeRec i
    let d := (d.countBlocks (n.stageAddr f.round f.slot first) (516 * blocks) true false).stackWrite (n.stageAddr f.round f.slot first) (data.take (516 * blocks))
    let d := d.modRound i f.round fun x =>
      let t := x.term f.slot
      { x.setTerm { t with blocks := t.blocks ++ (upTo blocks).map (first + ·) } with
        firstAt := some (x.firstAt.getD d.measured) }
    d.answerReduce f.src 0
  | .late i =>
    (d.lateTerm i f.round f.slot f.step ((upTo blocks).map fun k => (first + k, block k)) none).answerReduce f.src 0
  | w => d.reduceRefused f w

/-- A replayed CLOSE counts as arriving at its SENT_BEAT: after the deadline it does not make the round
(R370). -/
def Dev.replayTooLate (d : Dev) (i : Nat) (f : ReduceF) : Bool :=
  f.replay && decide ((d.roundRec i f.round).deadline < f.sentBeat)

/-- The child's term is void; its request is the round's first term where none came before (R587). -/
def Dev.voidTerm (d : Dev) (i : Nat) (f : ReduceF) : Dev :=
  d.modRound i f.round fun x =>
    { x.setTerm { x.term f.slot with status := 2 } with firstAt := some (x.firstAt.getD d.measured) }

/-- CLOSE: the child is closed; the round closes when every term is in. -/
def Dev.reduceClose (d : Dev) (f : ReduceF) (on fold : Nat) : Dev :=
  if d.holdsMsgs then d.holdMsg (.reduce 1 f on fold [])
  else match d.reduceWay f 0 0 with
  | .onTime i =>
    if d.replayTooLate i f then
      ((d.voidTerm i f).answerReduce f.src 0).tryClose i f.round
    else
      let d := d.modRound i f.round fun x =>
        { x.setTerm { x.term f.slot with status := 1, on := on, fold := fold } with
          firstAt := some (x.firstAt.getD d.measured) }
      (d.answerReduce f.src 0).tryClose i f.round
  | .late i => (d.lateTerm i f.round f.slot f.step [] (some (on, fold))).answerReduce f.src 0
  | w => d.reduceRefused f w

/-- VOID: the child is void; late, it is ignored (R352). -/
def Dev.reduceVoid (d : Dev) (f : ReduceF) : Dev :=
  if d.holdsMsgs then d.holdMsg (.reduce 2 f 0 0 [])
  else match d.reduceWay f 0 0 with
  | .onTime i =>
    ((d.voidTerm i f).answerReduce f.src 0).tryClose i f.round
  | .late _ => d.answerReduce f.src 0
  | w => d.reduceRefused f w

/-- A stack reset abandons the open rounds and fold entries (R369). -/
def Dev.abandonRounds (d : Dev) : Dev :=
  { d with coll := { d.coll with
      folds := [], leftovers := [], rounds := d.coll.rounds.map fun x => { x with terms := [], own := 0, firstAt := none } } }

/-! ### Fingerprints (R357–R360) -/

def fpK : Nat := 0x5D1AC47E0B9326F1
def fpM : Nat := 0xA3B195C64E87D2F5

/-- elem_hash(i, x). -/
def elemHash (i x : Nat) : Nat :=
  let z := ((i <<< 16) ||| x) ^^^ fpK
  let z := ((z ^^^ (z >>> 30)) * fpM) % 2 ^ 64
  let z := ((z ^^^ (z >>> 27)) * fpM) % 2 ^ 64
  z ^^^ (z >>> 31)

def Dev.fpSet (d : Dev) (i : Nat) : FpSet := sget FpSet.reset d.coll.fpSets i
def Dev.modFp (d : Dev) (i : Nat) (f : FpSet → FpSet) : Dev :=
  { d with coll := { d.coll with fpSets := smod FpSet.reset d.coll.fpSets i f } }

/-- 0x7014:00 FP_SETS. -/
def Dev.fpBlob (d : Dev) : Nat :=
  leNat ((upTo 4).flatMap fun i =>
    let s := d.fpSet i
    s.refs.flatMap (leBytes 8) ++ s.copies.flatMap (leBytes 8) ++ leBytes 1 s.seen
      ++ leBytes 1 (bitNat s.failed + 2 * bitNat s.checked + 4 * bitNat s.passed) ++ leBytes 6 0)

/-- FP_OPEN. -/
def Dev.fpOpen (d : Dev) (tag : Nat) : Dev :=
  let d := d.modFp (tag % 4) fun _ => { FpSet.reset with tag := tag, opened := some d.step }
  { d with coll := { d.coll with receiving := some (tag % 4) } }

/-- A delivery that breaks R358. -/
def Dev.fpBad (d : Dev) : Dev :=
  match d.coll.receiving with
  | some i => (d.modFp i fun s => { s with failed := true }).fault 0x070B Unit.device 0
  | none => d.bump Ent.faultClassCounts 24 4 1

/-- A delivered gather element, or seal, enters the receiving set (R358). -/
def Dev.fpDeliver (d : Dev) (group a : Nat) (bs : List Byte) : Dev :=
  let recs := if d.hasColl then ((upTo d.collHead.gathers).map d.gatherRec).filter fun g => g.group == group else []
  recs.foldl (fun d g =>
    let lo := max a g.data
    let hi := min (a + bs.length) (g.data + 2 * g.elements)
    let d :=
      if hi ≤ lo then d
      else if a % 2 = 1 || bs.length % 2 = 1 then d.fpBad
      else match d.coll.receiving with
        | none => d
        | some i =>
          let sum := ((upTo ((hi - lo) / 2)).map fun k =>
            elemHash (g.elementBase + (lo - g.data) / 2 + k) (leAt bs (lo - a + 2 * k) 2)).foldl (· + ·) 0
          d.modFp i fun s => { s with
            copies := setNth s.copies g.copy ((nth 0 s.copies g.copy + sum) % 2 ^ 64), seen := setBit s.seen g.copy true }
    if meets a bs.length g.sealAt 8 then
      if a = g.sealAt && bs.length = 8 then
        match d.coll.receiving with
        | none => d
        | some i => d.modFp i fun s => { s with
            refs := setNth s.refs g.copy ((nth 0 s.refs g.copy + leNat bs) % 2 ^ 64)
            sealed0 := s.sealed0 || g.copy == 0 }
      else d.fpBad
    else d) d

/-- FP_CHECK (R359, R360). -/
def Dev.fpCheck (d : Dev) (tag : Nat) : Dev :=
  let i := tag % 4
  let s := d.fpSet i
  let r0 := nth 0 s.refs 0
  let ok := !s.failed && (r0 != 0 || s.sealed0) && (upTo 4).all fun c =>
    !bitOf s.seen c || (nth 0 s.copies c == nth 0 s.refs c && nth 0 s.refs c == r0)
  let d := d.modFp i fun s => { s with checked := true, passed := ok }
  let held := d.coll.heldCloses
  let d := { d with coll := { d.coll with heldCloses := [] } }
  if ok then
    held.foldl (fun d c => d.leafNow c.1 c.2 d.step) d
  else
    let again := within1000 d.coll.lastFpFail d.faultStep
    let d := { d with coll := { d.coll with lastFpFail := some d.faultStep } }
    let d := ((d.bump Ent.fpStatus 0 4 1).putB Ent.fpStatus 4 4 d.step).fault 0x0710 Unit.device tag
    let d := if again then (d.putB Ent.fpStatus 8 1 1).fault 0x0711 Unit.device tag else d
    d.withhold

/-! ### Replay (R370) -/

/-- A child re-sends its kept rounds of a step to the adopting parent. -/
def Dev.replayRounds (d : Dev) (src step : Nat) : Dev :=
  d.coll.sent.reverse.foldl (fun d s =>
    if s.step = step && (d.nodeRec s.node).parent == src then
      if s.kind = 3 then d.sendReduce s.node s.round step 3 0 0 true s.beat []
      else d.sendRound s.node s.round step s.blocks s.on s.fold true (some s.beat)
    else d) d

/-- REDUCE_REPLAY to each child of each node record and each vote child. -/
def Dev.askReplay (d : Dev) (step : Nat) : Dev :=
  if d.hasColl then
    let kids := (upTo d.collHead.nodes).flatMap fun i => ((d.nodeRec i).child.take (d.nodeRec i).children)
    let all := (kids ++ d.collHead.voteChildren).eraseDups
    let msg := leBytes 1 0x23 ++ leBytes 3 0 ++ leBytes 4 step ++ List.replicate 232 0#8
    all.foldl (fun d p => d.sendControl p msg) d
  else d

end Sys2Proof.Machine
end

