-- ==== Sys2Proof/Machine/Weave.lean ====
section
/-!
DEFINITION. Requests at their target, multicast, stream credits and the Loom map (*Weave fabric and the
global memory space*, R311–R329).
-/
namespace Sys2Proof.Machine
open Sys2Proof

/-! ### Requests at the target (R311–R315) -/

/-- What a request does to its bytes. -/
inductive ReqKind where
  | write | read | add (op : Nat)
deriving DecidableEq, Repr

/-- Every bank group of [a, a + n) is in service (R196, R454). -/
def Dev.feltWhole (d : Dev) (a n : Nat) : Bool :=
  (upTo ((a + n - 1) / 0x400000 + 1 - a / 0x400000)).all fun k => !bitOf (d.get Ent.feltBgFenced) (a / 0x400000 + k)

/-- The address check: the status that refuses, if one does. -/
def Dev.addressStatus (d : Dev) (a n : Nat) (k : ReqKind) : Option Nat :=
  if !d.power.stackUp then some 0x03
  else match d.region a with
    | .felt =>
      let use : WbUse := match k with | .read => .read | .write => .write | .add _ => .write
      if feltSize < a + n || !d.feltWhole a n || !d.wbRangeAllowed a n use then some 0x02
      else match k with
        | .add op => if op = 0 then none else some 0x02
        | .write => none
        | .read => none
    | .near m =>
      if nearBase m + nearSize < a + n || inStow a || inStow (a + n - 1) || d.inDumpRing a n || d.inSampleRing a n then some 0x02
      else match k with
        | .add op => if 2 < op then some 0x02 else if d.partialLost a n then some 0x04 else none
        | .read => if (d.lostIn a n).isEmpty then none else some 0x04
        | .write => if d.partialLost a n then some 0x04 else none
    | .deep m =>
      if deepBase m + 0x1000000000 < a + n then some 0x02
      else match k with
        | .add op => if 2 < op then some 0x02 else if d.partialLost a n then some 0x04 else none
        | .read => if (d.lostIn a n).isEmpty then none else some 0x04
        | .write => if d.partialLost a n then some 0x04 else none
    | .scratch _ => some 0x02
    | .acc _ => some 0x02
    | .side _ => some 0x02
    | .bundle _ => some 0x02
    | .control => some 0x02
    | .hole => some 0x02

/-- Faults that go with a refusal: a foreign tag, a wide-buffer tile, a lost block. -/
def Dev.refusalFault (d : Dev) (a n status : Nat) (k : ReqKind) : Dev :=
  if status = 0x01 then d.foreignTag
  else if status = 0x02 && decide (a < feltSize) && !d.wbRangeAllowed a n (if k = .read then .read else .write) then
    d.tileRefuses a .offTree
  else if status = 0x04 && k != .read then d.fault 0x0312 (Unit.billet (billetOf (stackIndex a))) a
  else d

/-- The status a request meets at this device. -/
def Dev.requestStatus (d : Dev) (tag a n : Nat) (k : ReqKind) : Nat :=
  match d.gate tag with
  | some s => s
  | none => (d.addressStatus a n k).getD 0

/-- An AT_DEST token (R237, R311). -/
def Dev.destToken (d : Dev) (token : Nat) : Dev :=
  if bitOf token 31 then d.sendToken true (fieldOf token 30 27) (fieldOf token 26 18) (fieldOf token 17 10) none else d

/-- A class-1 request marked LATE is counted and makes its receiver late (R326). -/
def Dev.lateStream (d : Dev) (cls : Nat) (late : Bool) (stream : Nat) : Dev :=
  if cls = 1 && late then (d.bump Ent.streamState (256 + 4 * (stream % 64) + 2) 2 1).enterLate else d

/-- A write or add performed at this device, with its token. -/
def Dev.performWrite (d : Dev) (r : ReqF) (k : ReqKind) : Dev :=
  let d := match k with
    | .add op =>
      match AddOp.ofCode op with
      | some o => Dev.addRun o (r.data.length + 1) d r.addr r.data
      | none => d
    | .write => d.store r.addr r.data
    | .read => d
  (d.lateStream r.cls r.late r.stream).destToken r.token

/-- The COMPLETION of a request to its source (R313). -/
def Dev.complete (d : Dev) (dest reqId status : Nat) (group : Option Nat) : Dev :=
  d.sendRouted FlitType.completion 3 0 dest false (completionPayload reqId status group)

/-- A request refused at this device is answered with its status. -/
def Dev.refuse (d : Dev) (r : ReqF) (n status : Nat) (k : ReqKind) : Dev :=
  (d.refusalFault r.addr n status k).complete r.src r.reqId status none

/-- PUT, or ATOMIC with its operation: job tag, state and address are checked in that order (R314); then it is
performed and answered. A STOWED device, or one in L1, keeps it for later (R313, R475, R488). -/
def Dev.putAt (d : Dev) (type : Nat) (r : ReqF) (k : ReqKind) : Dev :=
  if d.holdsMsgs then d.holdMsg (.req type r)
  else match d.gate r.tag with
    | some s => d.refuse r r.data.length s k
    | none => match d.addressStatus r.addr r.data.length k with
      | some s => d.refuse r r.data.length s k
      | none => (d.performWrite r k).complete r.src r.reqId 0 none

/-- GET_REQ: the bytes go back as GET_RSP, or the refusal as a COMPLETION. Poisoned Felt words are
delivered as stored, with 0x0301 (DESIGN CHOICE, log 20). -/
def Dev.getAt (d : Dev) (r : ReqF) : Dev :=
  if d.holdsMsgs then d.holdMsg (.req FlitType.getReq r)
  else match d.gate r.tag with
  | some s => d.refuse r r.len s .read
  | none =>
    match d.addressStatus r.addr r.len .read with
      | some s => d.refuse r r.len s .read
      | none =>
        let d := (d.poisonIn r.addr r.len).foldl (fun d w => d.poisonFault w Unit.felt) d
        let d := d.countBlocks r.addr r.len false false
        d.sendRouted FlitType.getRsp r.cls d.pat.jobTag r.src false
          (reqHead 0 r.len r.reqId 0 0 0 ++ d.read r.addr r.len)

/-! ### The Loom map (R317–R320) -/

/-- The fields of a Loom entry. -/
structure LoomEnt where
  valid : Bool
  read : Bool
  write : Bool
  atomic : Bool
  tag : Nat
  target : Nat
  segment : Nat
  multicast : Bool
  stream : Bool
  streamId : Nat
deriving DecidableEq, Repr

def LoomEnt.ofWord (w : Nat) : LoomEnt :=
  { valid := bitOf w 127, read := bitOf w 126, write := bitOf w 125, atomic := bitOf w 124, tag := fieldOf w 123 112,
    target := fieldOf w 111 96, segment := fieldOf w 95 81, multicast := bitOf w 80, stream := bitOf w 79,
    streamId := fieldOf w 78 73 }

def loomSize : Nat := 2097152

def Dev.loomWord (d : Dev) (i : Nat) : Nat := sget 0 d.weave.loom i

/-- 0x4102:00 LOOM_VALID. -/
def Dev.loomValid (d : Dev) : Nat := (d.weave.loom.filter fun e => bitOf e.2 127).length

/-- An entry is written and drops out of every Shuttle's cache (R256, R320). -/
def Dev.setLoom (d : Dev) (i w : Nat) : Dev :=
  { d with
    weave := { d.weave with loom := sset 0 d.weave.loom i w }
    shuttles := smapv Shuttle.reset d.shuttles fun _ (x : Shuttle) => { x with cache := x.cache.filter fun k => k != i } }

/-- An update that R320 refuses; an entry with MULTICAST and STREAM, which R317 forbids, is refused with it (DEDUCED,
log 104). -/
def Dev.loomRefused (d : Dev) (i w : Nat) : Bool :=
  let e := LoomEnt.ofWord w
  decide (loomSize ≤ i) || fieldOf w 72 0 != 0 || !d.pat.loaded || e.tag != d.pat.jobTag || (e.multicast && e.stream)

/-- An update record: U32 INDEX, 4 reserved bytes, the entry, 8 reserved bytes. -/
def Dev.loomUpdate (d : Dev) (index reserved0 entry reserved1 : Nat) (unit : Nat) : Dev :=
  if reserved0 != 0 || reserved1 != 0 || d.loomRefused index entry then d.fault 0x0408 unit index else d.setLoom index entry

def Dev.loomRecord (d : Dev) (bs : List Byte) (unit : Nat) : Dev :=
  d.loomUpdate (leAt bs 0 4) (leAt bs 4 4) (leAt bs 8 16) (leAt bs 24 8) unit

/-! ### Streams (R322–R326) -/

/-- A stream entry's fields. -/
structure StreamEnt where
  valid : Bool
  peer : Nat
  peerStream : Nat
  bufLog : Nat
  bufs : Nat
deriving DecidableEq, Repr

def StreamEnt.ofWord (w : Nat) : StreamEnt :=
  { valid := bitOf w 127, peer := fieldOf w 126 111, peerStream := fieldOf w 110 105, bufLog := fieldOf w 104 101,
    bufs := fieldOf w 100 85 }

def streamBase : Nat := 0x200A00000
def Dev.outStream (d : Dev) (s : Nat) : StreamEnt := StreamEnt.ofWord (d.readNat (streamBase + 16 * s) 16)
def Dev.inStream (d : Dev) (s : Nat) : StreamEnt := StreamEnt.ofWord (d.readNat (streamBase + 0x400 + 16 * s) 16)

def Dev.creditsHeld (d : Dev) (s : Nat) : Nat := d.getB Ent.streamState (4 * s) 2
def Dev.setCredits (d : Dev) (s n : Nat) : Dev := d.putB Ent.streamState (4 * s) 2 n

/-- A CREDIT flit of an inbound stream to its peer. -/
def Dev.sendCredit (d : Dev) (s kind count : Nat) : Dev :=
  let e := d.inStream s
  if e.valid then
    d.sendRouted FlitType.credit 3 0 e.peer false
      (leBytes 1 s ++ leBytes 1 e.peerStream ++ leBytes 1 kind ++ leBytes 1 e.bufLog ++ leBytes 2 count ++ List.replicate 234 0#8)
  else d

/-- On entry to RUNNING every inbound stream sends INIT (R325). -/
def Dev.sendInits (d : Dev) : Dev := (upTo 64).foldl (fun d s => d.sendCredit s 1 (d.inStream s).bufs) d

/-- A CREDIT flit comes from the peer of the outbound stream it names, for the inbound stream that faces it (R325). -/
def Dev.creditFits (d : Dev) (f : CreditF) : Bool :=
  let e := d.outStream f.outbound
  decide (f.outbound < 64) && e.valid && e.peer == f.src && e.peerStream == f.inbound

/-- An INIT credit flit; one that is not the peer's moves nothing and is recorded with 0x0406 (DESIGN CHOICE, log 103). -/
def Dev.creditInit (d : Dev) (f : CreditF) : Dev :=
  let e := d.outStream f.outbound
  if !d.creditFits f || e.bufLog != f.bufLog || e.bufs != f.count then
    d.fault 0x0406 Unit.device f.outbound
  else d.setCredits f.outbound (min e.bufs (d.creditsHeld f.outbound + e.bufs))

/-- A RETURN credit flit. -/
def Dev.creditReturn (d : Dev) (f : CreditF) : Dev :=
  let e := d.outStream f.outbound
  let n := d.creditsHeld f.outbound + f.count
  if !d.creditFits f then d.fault 0x0406 Unit.device f.outbound
  else if e.bufs < n then (d.setCredits f.outbound e.bufs).fault 0x0406 Unit.device f.outbound
  else d.setCredits f.outbound n

/-- A write of an inbound stream's release word. -/
def Dev.releaseWrite (d : Dev) (s count : Nat) : Dev :=
  let d := d.writeNat (streamBase + 0x800 + 8 * s) 2 count
  if (d.inStream s).valid then (d.sendCredit s 2 count).bump Ent.streamState (256 + 4 * s) 2 count else d

/-! ### Multicast (R327–R329) -/

/-- A forwarding entry's fields. -/
structure McastEnt where
  valid : Bool
  out : Nat
  deliver : Bool
  inPort : Nat
  tag : Nat
deriving DecidableEq, Repr

def McastEnt.ofWord (w : Nat) : McastEnt :=
  { valid := bitOf w 63, out := fieldOf w 62 55, deliver := bitOf w 54, inPort := fieldOf w 53 50, tag := fieldOf w 49 38 }

def mcastBase : Nat := 0x200B00000
def Dev.mcastEnt (d : Dev) (g : Nat) : McastEnt := McastEnt.ofWord (d.readNat (mcastBase + 8 * g) 8)

def McastEnt.outPorts (e : McastEnt) : List Nat := (upTo 8).filter fun i => bitOf e.out i

/-- The combination is complete: the first status other than OK, own delivery first, then by port. -/
def Combine.status (c : Combine) : Nat := ((c.statuses.find? fun s => s.2 != 0).map Prod.snd).getD 0

/-- A finished combination is answered on the IN port; at the root it is what the request completes with. -/
def Dev.combineStep (d : Dev) (group reqId : Nat) : Dev × Option (Nat × Nat) :=
  match d.weave.combines.find? fun c => c.group == group && c.reqId == reqId with
  | none => (d, none)
  | some c =>
    if c.waiting.isEmpty then
      let e := d.mcastEnt group
      let d := { d with weave := { d.weave with combines := d.weave.combines.erase c } }
      if e.inPort = 0xF then (d, some (reqId, c.status))
      else (d.sendBy e.inPort FlitType.completion 3 0 (d.neighbourId e.inPort) d.deviceId
        (completionPayload reqId c.status (some group)), none)
    else (d, none)

/-- The request's local delivery at a member (R328 step 3, R358). -/
def Dev.mcastDeliver (d : Dev) (group : Nat) (r : ReqF) : Dev × Nat :=
  let status := d.requestStatus r.tag r.addr r.data.length .write
  if status = 0 then ((d.performWrite r .write).fpDeliver group r.addr r.data, 0)
  else (d.refusalFault r.addr r.data.length status .write, status)

/-- A multicast request at a member: arrival port none at the root. The root's combined completion is
returned. -/
def Dev.mcastAt (d : Dev) (port : Option Nat) (group : Nat) (r : ReqF) : Dev × Option (Nat × Nat) :=
  if d.holdsMsgs && port.isSome then (d.holdMsg (.mcast port group r), none)
  else
  let e := d.mcastEnt group
  let arrived := match port with | some p => e.inPort == p | none => e.inPort == 0xF
  if !e.valid || !arrived || e.tag != r.tag || !d.pat.loaded || r.tag != d.pat.jobTag then
    (d.faultOnce 0x0404 (match port with | some p => Unit.port p | none => Unit.device) group, none)
  else
    let payload := reqHead r.addr r.data.length r.reqId 0 0 r.token ++ r.data
    let d := e.outPorts.foldl (fun d p => d.sendBy p FlitType.mcast 2 r.tag group r.src payload) d
    let res := if e.deliver then d.mcastDeliver group r else (d, 0)
    let c : Combine := ⟨group, r.reqId, r.src, e.outPorts, sset 0 [] 0 res.2⟩
    ({ res.1 with weave := { res.1.weave with combines := res.1.weave.combines ++ [c] } }).combineStep group r.reqId

/-- A COMPLETION that comes up the tree of a group on one of its OUT ports (R329). -/
def Dev.mcastCompletion (d : Dev) (port group reqId status : Nat) : Dev × Option (Nat × Nat) :=
  let d := { d with weave := { d.weave with combines := d.weave.combines.map fun (c : Combine) =>
    if c.group == group && c.reqId == reqId && c.waiting.contains port then
      { c with waiting := c.waiting.erase port, statuses := sset 0 c.statuses (port + 1) status }
    else c } }
  d.combineStep group reqId

/-! ### Requests of this device (R311, R316) -/

/-- Requests of a Shuttle not completed; those of its Billet's Burnisher do not count (R398). -/
def Dev.outstanding (d : Dev) (n : Nat) : Nat :=
  (d.weave.pends.filter fun p => p.shuttle == n && decide (p.num < 1024)).length

/-- A request number of a Shuttle or, from 1,024, of a Burnisher that is not in use. -/
def Dev.freeNum (d : Dev) (n base : Nat) : Nat :=
  ((upTo 1024).find? fun k => !d.weave.pends.any fun p => p.shuttle == n && p.num == base + k).map (base + ·) |>.getD base

def Dev.addPend (d : Dev) (p : Pend) : Dev := { d with weave := { d.weave with pends := d.weave.pends ++ [p] } }

/-- With the stack off, a Shuttle or a Burnisher on a Billet does not reach the Selvages (R6): n is the number of a Shuttle, of
the Billet's own for a Burnisher. -/
def Dev.weaveReach (d : Dev) (n : Nat) : Bool := d.power.stackUp || decide (24 ≤ n)

/-- A request of this device goes to another device. Data of an island Shuttle waits in the Felt for its frame
checks (R440), and a get waits behind the puts of its Shuttle to that device in its class (R315). A request that does not
reach the Selvages ends with TIMEOUT (DEDUCED, log 102). -/
def Dev.issue (d : Dev) (type cls dest addr len op stream token : Nat) (data : List Byte) (n num : Nat) (why : Purpose) : Dev :=
  let late := cls == 1 && d.lateMode
  let d := d.addPend ⟨n, num, cls, why, if d.weaveReach n then none else some d.time.clock, d.measured⟩
  let payload := reqHead addr len (n * 2048 + num) op stream token ++ data
  let behind := d.stack.feltHeld.any fun (h : FeltHold) => h.island == n && h.dest == dest && h.cls == cls
  if !d.weaveReach n then d
  else if n < 16 && num < 1024 && (type != FlitType.getReq || behind) then
    { d with stack := { d.stack with feltHeld := d.stack.feltHeld ++ [⟨n, type, cls, d.pat.jobTag, dest, late, payload⟩] } }
  else d.sendRouted type cls d.pat.jobTag dest late payload

end Sys2Proof.Machine
end

