-- ==== Sys2Proof/Machine/Descriptor.lean ====
section
/-!
DEFINITION. What a Shuttle descriptor says: its fields, its load and fetch checks, its traversal and its
addresses (*Shuttle layout engine*, R235–R249, R253–R255).
-/
namespace Sys2Proof.Machine
open Sys2Proof

/-- A descriptor (R238, R239). -/
structure Desc where
  src : Nat
  dst : Nat
  ctrl : Nat
  pad : Nat
  start : Nat
  done : Nat
  size : List Nat
  reserved : Nat
  ss : List Int
  ds : List Int
  lo : List Nat
  hi : List Nat
  scaleSrc : Nat
  scaleDst : Nat
  index : Nat
deriving DecidableEq, Repr

def Desc.ofBytes (bs : List Byte) : Desc :=
  { src := leAt bs 0 8, dst := leAt bs 8 8, ctrl := leAt bs 16 8, pad := leAt bs 24 4, start := leAt bs 28 4,
    done := leAt bs 32 4, size := (upTo 5).map fun i => leAt bs (36 + 3 * i) 3, reserved := leAt bs 51 1
    ss := (upTo 5).map fun i => signExt 32 (leAt bs (52 + 4 * i) 4)
    ds := (upTo 5).map fun i => signExt 32 (leAt bs (72 + 4 * i) 4)
    lo := (upTo 5).map fun i => leAt bs (92 + 4 * i) 2
    hi := (upTo 5).map fun i => leAt bs (94 + 4 * i) 2
    scaleSrc := leAt bs 112 4, scaleDst := leAt bs 116 4, index := leAt bs 120 8 }

namespace Desc
def typeIn (c : Desc) : Option ElemType := ElemType.ofCode (fieldOf c.ctrl 63 60)
def typeOut (c : Desc) : Option ElemType := ElemType.ofCode (fieldOf c.ctrl 59 56)
def perm (c : Desc) : Nat := fieldOf c.ctrl 55 49
def ndim (c : Desc) : Nat := fieldOf c.ctrl 48 46
def sbdim (c : Desc) : Nat := fieldOf c.ctrl 45 43
def dbdim (c : Desc) : Nat := fieldOf c.ctrl 42 40
def padWrite (c : Desc) : Bool := bitOf c.ctrl 39
def accumulate (c : Desc) : Bool := bitOf c.ctrl 38
def broadcastOk (c : Desc) : Bool := bitOf c.ctrl 37
def gather (c : Desc) : Bool := bitOf c.ctrl 36
def guard (c : Desc) : Bool := bitOf c.ctrl 35
def idxLimit (c : Desc) : Nat := fieldOf c.ctrl 34 11
/-- START: mode, and its operands (R235). -/
def startMode (c : Desc) : Nat := fieldOf c.start 31 30
/-- DONE (R237). -/
def tokenEn (c : Desc) : Bool := bitOf c.done 31
def tokenIsland (c : Desc) : Nat := fieldOf c.done 30 27
def tokenCtr (c : Desc) : Nat := fieldOf c.done 26 18
def tokenAmount (c : Desc) : Nat := fieldOf c.done 17 10
def atDest (c : Desc) : Bool := bitOf c.done 9
end Desc

/-- perm_from_code (R241): the Lehmer digits choose from what is left. -/
def permGo : Nat → Nat → List Nat → List Nat
  | 0, _, _ => []
  | k + 1, c, avail =>
    let f := (upTo k).foldl (fun a i => a * (i + 1)) 1
    let x := nth 0 avail (c / f)
    x :: permGo k (c % f) (avail.erase x)

def permOf (c : Nat) : List Nat := permGo 5 c [0, 1, 2, 3, 4]

def Desc.p (c : Desc) (e : Nat) : Nat := nth 0 (permOf c.perm) e

/-- Extent along destination dimension e (R242). -/
def Desc.extent (c : Desc) (e : Nat) : Nat :=
  if e < c.ndim then nth 0 c.lo e + nth 0 c.size (c.p e) + nth 0 c.hi e else 1

def Desc.total (c : Desc) : Nat := (upTo 5).foldl (fun a e => a * c.extent e) 1

/-- Coordinates of position number n: dimension 0 fastest. -/
def Desc.coords (c : Desc) (n : Nat) : List Nat :=
  ((upTo 5).foldl (fun st e => (st.1 ++ [st.2 % c.extent e], st.2 / c.extent e)) (([] : List Nat), n)).1

/-! ### Checks (R240) -/

/-- Conversions that R39 performs. Conversions that its table does not list and no rule names (FP32 pair to gradient block,
gradient block to BF16, BF16 to FP32 pair and the like) are refused too (DESIGN CHOICE, log 98). -/
def convAllowed (a b : ElemType) : Bool :=
  if a = b then true
  else match a, b with
    | .i32, _ => false
    | .u32, _ => false
    | _, .i32 => false
    | _, .u32 => false
    | .gradBlock, .fp32 => true
    | .gradBlock, _ => false
    | .fp32, .gradBlock => true
    | _, .gradBlock => false
    | .fp32, .pair => true
    | _, .pair => false
    | _, _ => true

/-- A descriptor's destination is not the device itself, as far as its address says. -/
def Desc.remote (own : Nat) (c : Desc) : Bool :=
  let s := c.dst >>> 62
  (s == 1 && fieldOf c.dst 56 41 != own) || s == 2

/-- Values out of range (0x0601). -/
def Desc.badFields (own : Nat) (c : Desc) : Bool :=
  let n := c.ndim
  let above := (upTo 5).filter fun k => decide (n ≤ k)
  let isMx (t : Option ElemType) : Bool := match t with | some t => t.isMx | none => false
  let is16 : Bool := match c.typeOut with | some t => t.is16 | none => false
  fieldOf c.ctrl 10 0 != 0 || c.reserved != 0 || n == 0 || decide (5 < n) || decide (120 ≤ c.perm)
    || above.any (fun k => c.p k != k || nth 0 c.size k != 0 || nth 0 c.ss k != 0 || nth 0 c.ds k != 0
        || nth 0 c.lo k != 0 || nth 0 c.hi k != 0)
    || decide (2 ^ 40 < c.total)
    || (c.startMode == 0 && fieldOf c.start 29 0 != 0) || c.startMode == 3
    || (c.startMode == 1 && (fieldOf c.start 8 0 != 0 || fieldOf c.start 16 9 == 0))
    || fieldOf c.done 8 0 != 0 || (c.tokenEn && c.tokenAmount == 0)
    || (c.atDest && !c.remote own)
    || (c.gather && c.idxLimit == 0) || (!c.gather && (c.idxLimit != 0 || c.index != 0))
    || (!isMx c.typeIn && (c.sbdim != 0 || c.scaleSrc != 0)) || (!isMx c.typeOut && (c.dbdim != 0 || c.scaleDst != 0))
    || (c.padWrite && is16 && c.pad >>> 16 != 0)

/-- Packed-layout rules of one MX side (R245): block dimension, extents and strides by dimension. -/
def packedBad (t : ElemType) (n b : Nat) (ext : Nat → Nat) (st : Nat → Int) : Bool :=
  decide (n ≤ b) || ext b % 32 != 0 ||
    (t.bits < 8 && (st 0 != 1 || ext 0 % 4 != 0 || (upTo n).any fun k => k != 0 && st k % 4 != 0))

/-- Layout rules of a gradient-block side (R246). -/
def gradBad (n : Nat) (ext : Nat → Nat) (st : Nat → Int) : Bool :=
  st 0 != 1 || ext 0 % 256 != 0 || (upTo n).any fun k => k != 0 && st k % 256 != 0

/-- Packed-layout rules broken (0x060B). -/
def Desc.badLayout (c : Desc) : Bool :=
  let n := c.ndim
  let noPads := (upTo 5).all fun e => nth 0 c.lo e == 0 && nth 0 c.hi e == 0
  let srcExt (k : Nat) : Nat := nth 0 c.size k
  let srcStr (k : Nat) : Int := nth 0 c.ss k
  let dstStr (k : Nat) : Int := nth 0 c.ds k
  let inBad := match c.typeIn with
    | some .gradBlock => gradBad n srcExt srcStr || (c.typeOut == some .gradBlock && c.p 0 != 0)
    | some t => t.isMx && (packedBad t n c.sbdim srcExt srcStr || !noPads)
    | none => false
  let outBad := match c.typeOut with
    | some .gradBlock => gradBad n c.extent dstStr || !noPads
    | some t => t.isMx && (packedBad t n c.dbdim c.extent dstStr ||
        (!c.padWrite && (nth 0 c.lo c.dbdim % 32 != 0 || nth 0 c.hi c.dbdim % 32 != 0)))
    | none => false
  inBad || outBad

/-- The fault of a descriptor that the loader, or a Shuttle at fetch, refuses (R240). -/
def Desc.refused (own : Nat) (c : Desc) : Option Nat :=
  match c.typeIn, c.typeOut with
  | some a, some b =>
    if !convAllowed a b then some 0x0541
    else if c.badFields own then some 0x0601
    else if !c.accumulate && (upTo c.ndim).any (fun e => decide (1 < c.extent e) && nth 0 c.ds e == 0) then some 0x0602
    else if c.badLayout then some 0x060B
    else if c.accumulate && (AddOp.ofType b).isNone then some 0x060D
    else none
  | _, _ => some 0x0540

/-! ### Addresses (R247, R255) -/

/-- Width of the field of a space in which offsets are added. -/
def fieldWidth (space : Nat) : Nat := if space = 2 then 47 else 41

/-- A base address with a byte offset: none where the addition leaves its field. -/
def addOffset (base : Nat) (off : Int) : Option Nat :=
  let w := fieldWidth (base >>> 62)
  let low : Int := ((base % 2 ^ w : Nat) : Int) + off
  if decide (low < 0) || decide (((2 ^ w : Nat) : Int) ≤ low) then none
  else some ((base >>> w) <<< w + low.toNat)

/-- The first of n bytes at an offset from a base: none where the range leaves the base's field (R247). -/
def addRange (base : Nat) (off : Int) (n : Nat) : Option Nat :=
  match addOffset base off, addOffset base (off + (n : Int) - 1) with
  | some a, some _ => some a
  | _, _ => none

/-- A decoded address (R255). -/
inductive Space where
  | local_ (a : Nat)
  | global (device off : Nat)
  | loom (entry off : Nat)
deriving DecidableEq, Repr

/-- The decode of an address, none for fault 0x0603. -/
def decodeAddr (own a : Nat) : Option Space :=
  let s := a >>> 62
  if s = 0 then (if fieldOf a 61 41 = 0 then some (.local_ (fieldOf a 40 0)) else none)
  else if s = 1 then
    if fieldOf a 61 57 != 0 then none
    else if fieldOf a 56 41 = own then some (.local_ (fieldOf a 40 0))
    else some (.global (fieldOf a 56 41) (fieldOf a 40 0))
  else if s = 2 then (if fieldOf a 61 47 = 0 then some (.loom (fieldOf a 46 26) (fieldOf a 25 0)) else none)
  else none

/-! ### Element places -/

/-- Linear index of an index vector with the block dimension divided by 32 (R245). -/
def scaleIndex (n b : Nat) (ext : Nat → Nat) (i : Nat → Nat) : Nat :=
  ((upTo n).foldl (fun (st : Nat × Nat) k =>
    let e := if k = b then ext k / 32 else ext k
    let x := if k = b then i k / 32 else i k
    (st.1 + x * st.2, st.2 * e)) (0, 1)).1

/-- Element offset along strides. -/
def elemOffset (st : Nat → Int) (i : Nat → Nat) : Int :=
  ((upTo 5).map fun k => ((i k : Nat) : Int) * st k).foldl (· + ·) 0

/-- First byte of an element, and how many bytes it touches. -/
def elemBytes (t : ElemType) (o : Int) : Int × Nat :=
  match t with
  | .gradBlock => (o / 256 * 516 + 4 + o % 256 * 2, 2)
  | t =>
    let w : Int := (t.bits : Nat)
    let lo := o * w / 8
    let hi := (o * w + w - 1) / 8
    (lo, (hi + 1 - lo).toNat)

/-! ### Extents (R253) -/

/-- First and last index along destination dimension e that may be written: pads too with PAD_WRITE. -/
def Desc.firstIndex (c : Desc) (e : Nat) : Nat := if c.padWrite then 0 else nth 0 c.lo e
def Desc.lastIndex (c : Desc) (e : Nat) : Nat :=
  if e < c.ndim then (if c.padWrite then c.extent e else nth 0 c.lo e + nth 0 c.size (c.p e)) - 1 else 0

/-- A descriptor that can write nothing: an empty index space, or pads alone that are skipped (R243). -/
def Desc.writesNothing (c : Desc) : Bool :=
  c.total == 0 || (!c.padWrite && (upTo c.ndim).any fun e => nth 0 c.size (c.p e) == 0)

/-- Lowest and highest destination element offset over the corners of the index space that may be written. -/
def Desc.offsets (c : Desc) : Int × Int :=
  (upTo c.ndim).foldl (fun (st : Int × Int) e =>
    let s := nth 0 c.ds e
    let u := (c.firstIndex e : Int) * s
    let v := (c.lastIndex e : Int) * s
    (st.1 + min u v, st.2 + max u v)) (0, 0)

/-- Space and lowest and highest destination byte: address fields before translation; none where nothing can be written. -/
def Desc.range (c : Desc) : Option (Nat × Int × Int) :=
  let w := fieldWidth (c.dst >>> 62)
  let base : Int := ((c.dst % 2 ^ w : Nat) : Int)
  let o := c.offsets
  if c.writesNothing then none
  else c.typeOut.map fun t =>
    let a := elemBytes t o.1
    let b := elemBytes t o.2
    let lo := base + (if t == .gradBlock then o.1 / 256 * 516 else a.1)
    let hi := base + b.1 + (b.2 : Int) - 1
    let scale (ix : Nat → Nat) : Int := base + ((c.scaleDst + scaleIndex c.ndim c.dbdim c.extent ix : Nat) : Int)
    (c.dst >>> w, (if t.isMx then min lo (scale c.firstIndex) else lo), (if t.isMx then max hi (scale c.lastIndex) else hi))

end Sys2Proof.Machine
end

