-- ==== Sys2Proof/Machine/Shuttle.lean ====
section
/-!
DEFINITION. The Shuttles at work (*Shuttle layout engine*, R232–R237, R242–R260): starting a descriptor,
one traversal position at a time, the requests it makes, and its completion.
-/
namespace Sys2Proof.Machine
open Sys2Proof

def Dev.shuttle (d : Dev) (n : Nat) : Shuttle := sget Shuttle.reset d.shuttles n
def Dev.modShuttle (d : Dev) (n : Nat) (f : Shuttle → Shuttle) : Dev :=
  { d with shuttles := smod Shuttle.reset d.shuttles n f }

/-- The descriptor of a Shuttle that is being worked on: the newest in flight. -/
def Shuttle.current (s : Shuttle) : Option DescRun := s.inFlight.getLast?

/-- The descriptor in flight with an index. -/
def Dev.runOf (d : Dev) (n index : Nat) : Option DescRun := (d.shuttle n).inFlight.find? fun r => r.index == index

/-- A descriptor in flight changed. -/
def Dev.modRun (d : Dev) (n index : Nat) (f : DescRun → DescRun) : Dev :=
  d.modShuttle n fun s => { s with inFlight := s.inFlight.map fun r => if r.index == index then f r else r }

/-- Bytes a Shuttle has written (R584, R585). -/
def Dev.countWritten (d : Dev) (n bytes : Nat) : Dev :=
  if n < 16 then (d.evI n 0x031 bytes).count (64 * n + 27) bytes
  else if n < 24 then d.count (0x440 + 32 * (n - 16) + 5) bytes
  else d.count (0x540 + 32 * ((n - 24) / 2) + 6) bytes

/-! ### Faults (R259, R260) -/

/-- The record of a descriptor fault, its log entry and its count; the device withholds (R259). -/
def Dev.descFault (d : Dev) (n index step code side : Nat) (coords : Option (List Nat)) (addr : Nat) : Dev :=
  let js := match coords with | some c => c | none => List.replicate 5 0xFFFFFFFF
  let rec_ := leBytes 2 code ++ leBytes 1 n ++ leBytes 1 side ++ leBytes 2 index ++ leBytes 2 0 ++ leBytes 4 step
    ++ js.flatMap (leBytes 4) ++ leBytes 8 addr
  let d := d.putB Ent.shuttleFaultLast (40 * n) 40 (leNat rec_)
  ((d.fault code (shuttleUnit n) addr).bump Ent.shuttleFaultCount (4 * n) 4 1).withhold

/-- A descriptor in flight stops with a fault of a position; what it has not issued yet is dropped (R259). -/
def Dev.failRun (d : Dev) (n index code side pos addr : Nat) : Dev :=
  match d.runOf n index with
  | none => d
  | some r =>
    if r.failed then d
    else
      (d.descFault n index r.step code side (some ((Desc.ofBytes r.raw).coords pos)) addr).modRun n index fun x =>
        { x with failed := true, issued := true, run := none, queued := [], block := [], parts := [] }

/-! ### Completion of requests (R313, R316) -/

/-- A request of a descriptor completes with a status. -/
def Dev.shuttleCompleted (d : Dev) (n index pos side addr status : Nat) : Dev :=
  let d := d.modRun n index fun x => { x with open_ := x.open_ - 1, asked := if side = 0 then false else x.asked }
  if status = 0 then d else d.failRun n index (if status = 6 then 0x040B else 0x060A) side pos addr

/-! ### Translation and protection (R255–R257) -/

/-- Where an access goes. -/
inductive Target where
  | here (a : Nat)
  | device (id off : Nat) (stream : Option Nat)
  | group (g off : Nat)
deriving DecidableEq, Repr

/-- A Loom lookup of Shuttle n (R256, R263). -/
def Dev.loomLookup (d : Dev) (n i : Nat) : Dev :=
  let s := d.shuttle n
  let sel := if 26 ≤ n then 1 else 0
  let d := d.count (0x540 + 32 * sel + 4) 1
  let d := if s.cache.contains i then d.bump Ent.loomCacheStats (8 * n) 4 1
    else
      let d := (d.bump Ent.loomCacheStats (8 * n + 4) 4 1).count (0x540 + 32 * sel + 5) 1
      if n < 16 then d.evI n 0x032 1 else d
  d.modShuttle n fun s => { s with cache := (i :: s.cache.filter fun x => x != i).take 256 }

/-- The rights an access needs. -/
inductive Right where
  | read | write | add
deriving DecidableEq, Repr

/-- Checks 1 to 5 of R257; of an entry with MULTICAST only plain writes are made (R317). -/
def Dev.target (d : Dev) (addr : Nat) (need : Right) (broadcastOk : Bool) : Except Nat Target :=
  match decodeAddr d.deviceId addr with
  | none => .error 0x0603
  | some (.local_ a) => .ok (.here a)
  | some (.global dev off) => .ok (.device dev off none)
  | some (.loom i off) =>
    let e := LoomEnt.ofWord (d.loomWord i)
    if !e.valid then .error 0x0604
    else if e.tag != d.pat.jobTag then .error 0x0606
    else if !(match need with | .read => e.read && !e.multicast | .write => e.write | .add => e.atomic && !e.multicast) then .error 0x0605
    else if e.multicast && !broadcastOk then .error 0x060E
    else
      let a := e.segment * 0x4000000 + off
      if e.multicast then .ok (.group e.target a)
      else if e.target = d.deviceId then .ok (.here a)
      else .ok (.device e.target a (if e.stream then some e.streamId else none))

/-- An access translated, its Loom lookup counted. An uncorrectable error in the entry makes the lookup fail, and the copy
is repaired from the other one (R318). -/
def Dev.translate (d : Dev) (n addr : Nat) (need : Right) (broadcastOk : Bool) (u : Upset) : Dev × Except Nat Target :=
  match decodeAddr d.deviceId addr with
  | some (.loom i _) =>
    let d := d.loomLookup n i
    (d, if u = .loomEntry then .error 0x0604 else d.target addr need broadcastOk)
  | _ => (d, d.target addr need broadcastOk)

/-! ### Requests out (R311, R237) -/

/-- The TOKEN word of a descriptor's AT_DEST post: the DONE word's fields (R311); 0 where it makes none. -/
def Desc.tokenWord (c : Desc) : Nat :=
  if c.atDest && c.tokenEn then 2 ^ 31 + c.tokenIsland <<< 27 + c.tokenCtr <<< 18 + c.tokenAmount <<< 10 else 0

/-- The address-table writes wait for the descriptor's completion (R162). -/
def Dev.stage (d : Dev) (n index a : Nat) (bs : List Byte) : Dev :=
  d.modRun n index fun x => { x with staged := x.staged ++ [(a, bs)] }

/-- Aligned pieces of a run: address and bytes, each of size k with what it does not cover taken from memory. -/
def Dev.alignedPieces (d : Dev) (a k : Nat) (bs : List Byte) : List (Nat × List Byte) :=
  (upTo (ceilDiv (a + bs.length) k - a / k)).map fun i =>
    let lo := (a / k + i) * k
    (lo, (upTo k).map fun j => if decide (a ≤ lo + j) && decide (lo + j < a + bs.length) then nth 0#8 bs (lo + j - a) else d.byte (lo + j))

/-- A stash claim (R146): refused, held, or made. -/
def Dev.stashClaim (d : Dev) (n index e w : Nat) : Dev :=
  if stashRefused e w then d.fault 0x0574 (shuttleUnit n) (stashAddr e)
  else if stashRemain (d.stashWord e) = 0 then d.writeNat (stashAddr e) 8 w
  else
    let d := { d with wide := { d.wide with claims := d.wide.claims ++ [(⟨e, w, n, index⟩ : StashClaim)], heldInBeat := true } }
    d.modRun n index fun x => { x with claiming := true }

/-- The collective doorbell (R349): OP, TREE, ROUND, TAG of one aligned 8-byte write. A LEAF_CLOSE of an island
Shuttle waits for the frames before it (R440); a witness run discards the write (R426). -/
def Dev.doorbell (d : Dev) (island : Bool) (w step : Nat) : Dev :=
  let op := fieldOf w 63 56
  if d.resil.witnessFrom.isSome then d
  else if fieldOf w 23 0 != 0 then d.fault 0x0707 Unit.device w
  else if op = 1 then
    if island then { d with stack := { d.stack with heldCloses := d.stack.heldCloses ++ [⟨fieldOf w 55 40, fieldOf w 39 32, step⟩] } }
    else d.leafClose (fieldOf w 55 40) (fieldOf w 39 32) step
  else if op = 2 then d.fpOpen (fieldOf w 31 24)
  else if op = 3 then d.fpCheck (fieldOf w 31 24)
  else d.fault 0x0707 Unit.device w

def Dev.runFailed (d : Dev) (n index : Nat) : Bool := match d.runOf n index with | some r => r.failed | none => false

/-- A run of bytes written to the control window by a descriptor. -/
def Dev.controlWrite (d : Dev) (n : Nat) (r : DescRun) (w : WriteRun) : Dev :=
  let a := w.addr
  match ctrlAt a with
  | .wideTable =>
    (d.alignedPieces a 32 w.bytes).foldl (fun d p =>
      if d.runFailed n r.index then d else
      let res := d.wbRewrite ((p.1 - 0x200800000) / 0x4000) ((p.1 - 0x200800000) % 0x4000 / 32) (leNat p.2)
      match res.2 with
      | none => res.1
      | some 0x0575 => (res.1.tileRefuses p.1 (shuttleCulprit n)).failRun n r.index 0x0609 1 w.pos p.1
      | some c => res.1.fault c (shuttleUnit n) p.1) d
  | .stash =>
    (d.alignedPieces a 8 w.bytes).foldl (fun (d : Dev) (p : Nat × List Byte) => d.stashClaim n r.index ((p.1 - Sys2Proof.Machine.stashBase) / 8) (leNat p.2)) d
  | .addrTable _ => d.stage n r.index a w.bytes
  | .requestTable i => d.modIsland i fun x => { x with requests := memWrite x.requests (a - 0x200E00000 - i * 0x20000) w.bytes }
  | .release =>
    (d.alignedPieces a 8 w.bytes).foldl (fun d p => d.releaseWrite ((p.1 - 0x200A00800) / 8) (leAt p.2 0 2)) d
  | .loomUpdate =>
    if a % 32 = 0 && w.bytes.length % 32 = 0 then
      (chunksOf (w.bytes.length + 1) 32 w.bytes).foldl (fun d bs => d.loomRecord bs (shuttleUnit n)) d
    else d.failRun n r.index 0x0609 1 w.pos a
  | .doorbell =>
    if a % 8 = 0 && w.bytes.length = 8 then d.doorbell (isIslandShuttle n) (leNat w.bytes) r.step else d.fault 0x0707 Unit.device a
  | .sampleRead _ => if w.bytes.length = 8 then d.writeSampleRead (leNat w.bytes) else d.failRun n r.index 0x0609 1 w.pos a
  | .counter _ _ => d
  | .dumpSeq _ => d
  | .sampleWrite _ => d
  | .stream => d
  | .mcast => d
  | .hole => d

/-- A request of a descriptor is made; the last one carries its AT_DEST token. -/
def Dev.opened (d : Dev) (n : Nat) (r : DescRun) (w : WriteRun) : Dev :=
  d.modRun n r.index fun x => { x with
    open_ := x.open_ + 1, rode := x.rode || (w.last && (Desc.ofBytes r.raw).tokenWord != 0) }

/-- A multicast write is made by the group's root only (R328). -/
def Dev.mcastIssue (d : Dev) (n : Nat) (r : DescRun) (w : WriteRun) (g off token : Nat) : Dev :=
  let e := d.mcastEnt g
  if !e.valid || e.inPort != 0xF then (d.countStatus 2).failRun n r.index 0x060A 1 w.pos w.addr
  else
    let num := d.freeNum n 0
    let d := (d.opened n r w).addPend ⟨n, num, 2, .shuttle r.index w.pos w.addr, if d.weaveReach n then none else some d.time.clock, d.measured⟩
    if !d.weaveReach n then d
    else
      let res := d.mcastAt none g ⟨d.deviceId, d.pat.jobTag, 2, d.lateMode, off, n * 2048 + num, 0, 0, token, 0, w.bytes⟩
      match res.2 with
      | none => res.1
      | some (id, status) =>
        let d := { res.1 with weave := { res.1.weave with pends := res.1.weave.pends.filter fun p => !(p.shuttle * 2048 + p.num == id) } }
        (d.countStatus status).shuttleCompleted n r.index w.pos 1 w.addr status

/-- A whole run is issued: a request, or a write of this device's control window or of blocks that were lost. -/
def Dev.issueRun (d : Dev) (n : Nat) (r : DescRun) (w : WriteRun) : Dev :=
  let c := Desc.ofBytes r.raw
  let token := if w.last then c.tokenWord else 0
  match d.target w.addr (if c.accumulate then .add else .write) c.broadcastOk with
  | .error code => d.failRun n r.index code 1 w.pos w.addr
  | .ok (.here a) =>
    if inControl a then d.controlWrite n r { w with addr := a }
    else if d.partialLost a w.bytes.length then
      (d.fault 0x0312 (Unit.billet (billetOf (stackIndex a))) a).failRun n r.index 0x0312 1 w.pos w.addr
    else d.store a w.bytes
  | .ok (.group g off) => d.mcastIssue n r w g off token
  | .ok (.device id off stream) =>
    let op := match c.typeOut.bind AddOp.ofType with | some o => o.code | none => 0
    let cls := if stream.isSome then 1 else 0
    let s := match stream with | some k => (d.outStream k).peerStream | none => 0
    (d.opened n r w).issue (if c.accumulate then FlitType.atomic else FlitType.put) cls id off w.bytes.length
      (if c.accumulate then op else 0) s token w.bytes n (d.freeNum n 0) (.shuttle r.index w.pos w.addr)

/-- Whole runs are issued in order, as long as the Shuttle may have another request outstanding (R311). -/
def Dev.issueRuns (n index : Nat) : Nat → Dev → Dev
  | 0, d => d
  | k + 1, d =>
    match d.runOf n index with
    | none => d
    | some r =>
      match r.queued with
      | [] => d
      | w :: rest =>
        if 256 ≤ d.outstanding n then d
        else Dev.issueRuns n index k ((d.modRun n index fun x => { x with queued := rest }).issueRun n r w)

def Dev.drainRuns (d : Dev) (n index : Nat) : Dev :=
  match d.runOf n index with
  | none => d
  | some r => Dev.issueRuns n index r.queued.length d

/-- The last of the runs. -/
def markLast : List WriteRun → List WriteRun
  | [] => []
  | [w] => [{ w with last := true }]
  | w :: ws => w :: markLast ws

/-- The open run is whole: nothing joins it any more. -/
def Dev.closeRun (d : Dev) (n index : Nat) (last : Bool) : Dev :=
  d.modRun n index fun x =>
    let q := x.queued ++ x.run.toList
    { x with run := none, queued := if last then markLast q else q }

/-- What the descriptor has open is issued. -/
def Dev.flushRun (d : Dev) (n index : Nat) : Dev := (d.closeRun n index false).drainRuns n index

/-- Bytes join the open run, or start a new one: a run is contiguous and stays inside one 16 MiB block (R311). -/
def Dev.runBytes (d : Dev) (n index addr pos : Nat) (bs : List Byte) : Dev :=
  match d.runOf n index with
  | none => d
  | some r =>
    let joins := match r.run with
      | some w => addr == w.addr + w.bytes.length && addr % 0x1000000 != 0
      | none => false
    let d := if joins then d else d.flushRun n index
    d.modRun n index fun x =>
      if x.failed then x
      else { x with run := match x.run with
        | some w => some { w with bytes := w.bytes ++ bs }
        | none => some ⟨addr, bs, pos, false⟩ }

/-- Some bits of a byte that lies in a request or in the control window: the byte joins the open run once all its bits have
been written. -/
def Dev.partByte (d : Dev) (n index addr pos v m : Nat) : Dev :=
  match d.runOf n index with
  | none => d
  | some r =>
    let old := sget 0 r.parts addr
    let value := old % 256 - (old % 256 &&& m) + (v &&& m)
    let mask := old / 256 ||| m
    if m = 0 then d
    else if mask = 255 then
      (d.modRun n index fun x => { x with parts := sset 0 x.parts addr 0 }).runBytes n index addr pos [BitVec.ofNat 8 value]
    else d.modRun n index fun x => { x with parts := sset 0 x.parts addr (value + 256 * mask) }

/-- Nothing joins any more: bytes written in part go with free bits in the places not written (DESIGN CHOICE, log 105), and
the open run is whole. -/
def Dev.finishRuns (d : Dev) (n index : Nat) (last : Bool) : Dev :=
  match d.runOf n index with
  | none => d
  | some r =>
    let d := r.parts.foldl (fun (d : Dev) e =>
      let f := d.freeBytes 1
      f.1.runBytes n index e.1 r.pos [BitVec.ofNat 8 (e.2 % 256 + (leNat f.2 &&& (255 - e.2 / 256)))]) d
    (d.modRun n index fun x => { x with parts := [] }).closeRun n index last

/-- A position whose access fails stops the descriptor: what the positions before it wrote is still issued (R259). -/
def Dev.stopRun (d : Dev) (n index code side pos addr : Nat) : Dev :=
  let d := (d.finishRuns n index false).drainRuns n index
  match d.runOf n index with
  | none => d
  | some r =>
    if r.failed then d
    else
      (d.descFault n index r.step code side (some ((Desc.ofBytes r.raw).coords pos)) addr).modRun n index fun x =>
        { x with failed := true, issued := x.queued.isEmpty, block := [], parts := [] }

/-! ### Reading the source -/

/-- What a read yields now: bytes, a fault with its address, or nothing yet. -/
inductive Got where
  | bytes (bs : List Byte)
  | fault (code addr : Nat)
  | wait
deriving DecidableEq, Repr

/-- Remote bytes already here. -/
def DescRun.have (r : DescRun) (addr len : Nat) : Option (List Byte) :=
  (r.fetched.find? fun f => decide (f.1 ≤ addr) && decide (addr + len ≤ f.1 + f.2.length)).map fun f =>
    (f.2.drop (addr - f.1)).take len

/-- A range is cut where a request ends; local addresses are not cut (R311). -/
def cutAt (addr len : Nat) : List (Nat × Nat) :=
  let k := 0x1000000 - addr % 0x1000000
  if addr >>> 62 = 0 || len ≤ k then [(addr, len)] else [(addr, k), (addr + k, len - k)]

/-- A write that Shuttle n's descriptors in flight have made to [a, a + len) is not visible yet: an address-table write of an
earlier descriptor, or a stash claim that is held (R236). -/
def Dev.readHeld (d : Dev) (n : Nat) (r : DescRun) (a len : Nat) : Bool :=
  ((d.shuttle n).inFlight.any fun q => decide (q.order < r.order) && q.staged.any fun w => meets a len w.1 w.2.length)
    || d.wide.claims.any fun c => c.shuttle == n && meets a len (stashAddr c.entry) 8

/-- The descriptor's open run writes part of [a, a + len) of local memory, or goes to the device a read asks. -/
def Dev.runTouches (d : Dev) (r : DescRun) (t : Target) (len : Nat) : Bool :=
  match r.run with
  | none => false
  | some w =>
    match d.target w.addr .write true, t with
    | .ok (.here b), .here a => meets a len b w.bytes.length
    | .ok (.device i _ _), .device j _ _ => i == j
    | _, _ => false

/-- Bytes with the descriptor's own writes to them that wait for its completion. -/
def overlay (a : Nat) (bs : List Byte) (ws : List (Nat × List Byte)) : List Byte :=
  ws.foldl (fun bs w => (upTo bs.length).map fun k =>
    if decide (w.1 ≤ a + k) && decide (a + k < w.1 + w.2.length) then nth 0#8 w.2 (a + k - w.1) else nth 0#8 bs k) bs

/-- Bytes at an address in 64-bit form for the source of Shuttle n's descriptor. A remote read asks for ask bytes, at most to
the target's next 16 MiB boundary (R311). -/
def Dev.sourcePiece (d : Dev) (n : Nat) (r : DescRun) (addr len ask : Nat) (use : WbUse) (u : Upset) : Dev × Got :=
  match r.have addr len with
  | some bs => (d, .bytes bs)
  | none =>
    let t := d.translate n addr .read false u
    match t.2 with
    | .error c => (t.1, .fault c addr)
    | .ok (.group _ _) => (t.1, .fault 0x0605 addr)
    | .ok (.here a) =>
      if t.1.readHeld n r a len then (t.1, .wait)
      else
        let d := if t.1.runTouches r (.here a) len then t.1.flushRun n r.index else t.1
        let g := d.shuttleRead n a len use u
        (g.1, match g.2 with | .ok bs => .bytes (overlay a bs r.staged) | .error c => .fault c addr)
    | .ok (.device id off s) =>
      let d := if t.1.runTouches r (.device id off s) len then t.1.flushRun n r.index else t.1
      if r.asked || 256 ≤ d.outstanding n then (d, .wait)
      else
        let k := max len (min ask (0x1000000 - off % 0x1000000))
        let d := d.modRun n r.index fun x => { x with asked := true, open_ := x.open_ + 1 }
        (d.issue FlitType.getReq 0 id off k 0 0 0 [] n (d.freeNum n 0) (.fetch r.index r.pos addr), .wait)

/-- The same for a range that may end one request's bytes and begin another's. -/
def Dev.sourceBytes (d : Dev) (n : Nat) (r : DescRun) (addr len ask : Nat) (use : WbUse) (u : Upset) : Dev × Got :=
  match cutAt addr len with
  | [a, b] =>
    let g := d.sourcePiece n r a.1 a.2 a.2 use u
    match g.2 with
    | .bytes bs =>
      let h := g.1.sourcePiece n r b.1 b.2 (ask - a.2) use .none
      (h.1, match h.2 with | .bytes cs => .bytes (bs ++ cs) | x => x)
    | _ => g
  | _ => d.sourcePiece n r addr len ask use u

/-! ### Writing the destination (R242, R245, R246, R250) -/

/-- A piece of destination bytes: address in 64-bit form, bytes, and the bits that are written where not all are. -/
structure OutPiece where
  addr : Nat
  bytes : List Byte
  mask : Option Nat
deriving DecidableEq, Repr

def OutPiece.cut (p : OutPiece) : List OutPiece :=
  (cutAt p.addr p.bytes.length).map fun q =>
    ⟨q.1, (p.bytes.drop (q.1 - p.addr)).take q.2, p.mask.map fun m => m >>> (8 * (q.1 - p.addr))⟩

/-- Why a piece is refused, if it is. -/
def Dev.pieceRefused (d : Dev) (n : Nat) (c : Desc) (p : OutPiece) (u : Upset) : Dev × Option Nat :=
  let t := d.translate n p.addr .write c.broadcastOk u
  match t.2 with
  | .error code => (t.1, some code)
  | .ok (.here a) =>
    match t.1.writeRefused n a p.bytes.length .write with
    | some code => (t.1.refusedTile n a p.bytes.length .write code, some code)
    | none => (t.1, none)
  | .ok _ => (t.1, none)

/-- The first piece refused, with its code. -/
def Dev.firstRefused (n : Nat) (c : Desc) : List OutPiece → Upset → Dev → Dev × Option (Nat × Nat)
  | [], _, d => (d, none)
  | p :: ps, u, d =>
    match d.pieceRefused n c p u with
    | (d, some code) => (d, some (code, p.addr))
    | (d, none) => Dev.firstRefused n c ps .none d

/-- A piece for the open run. -/
def Dev.runPiece (d : Dev) (n index pos : Nat) (p : OutPiece) : Dev :=
  match p.mask with
  | none => d.runBytes n index p.addr pos p.bytes
  | some m => ((upTo p.bytes.length).zip p.bytes).foldl (fun d b =>
      d.partByte n index (p.addr + b.1) pos b.2.toNat (m >>> (8 * b.1) % 256)) d

/-- A piece that is accepted: stored at once in plain local memory, else part of a run. -/
def Dev.placePiece (d : Dev) (n index pos : Nat) (c : Desc) (p : OutPiece) (u : Upset) : Dev :=
  match d.target p.addr .write c.broadcastOk with
  | .error _ => d
  | .ok (.here a) =>
    if inControl a || !(d.lostIn a p.bytes.length).isEmpty then d.runPiece n index pos p
    else if u = .commandWord then d.lostCommand (shuttleUnit n)
    else
      let d := (d.shuttleCrossing n a).lateWrite (shuttleUnit n) a (shuttleCulprit n) u
      match p.mask with
      | none => d.store a p.bytes
      | some m =>
        let old := d.readNat a p.bytes.length
        d.store a (leBytes p.bytes.length (old - (old &&& m) + (leNat p.bytes &&& m)))
  | .ok _ => d.runPiece n index pos p

def Dev.placePieces (n index pos : Nat) (c : Desc) : List OutPiece → Upset → Dev → Dev
  | [], _, d => d
  | p :: ps, u, d => Dev.placePieces n index pos c ps .none (d.placePiece n index pos c p u)

/-- Bytes written as one unit at offsets from DST: all of it, or none where a piece is refused (R245, R246, R259). -/
def Dev.writeUnit (d : Dev) (n : Nat) (r : DescRun) (c : Desc) (ws : List (Int × List Byte × Option Nat)) (total pos : Nat)
    (u : Upset) : Dev :=
  if ws.any fun w => (addRange c.dst w.1 w.2.1.length).isNone then d.stopRun n r.index 0x0603 1 pos c.dst
  else
    let ps := ws.flatMap fun w => match addRange c.dst w.1 w.2.1.length with
      | some a => (OutPiece.mk a w.2.1 w.2.2).cut
      | none => []
    match Dev.firstRefused n c ps u d with
    | (d, some (code, a)) => d.stopRun n r.index code 1 pos a
    | (d, none) => Dev.placePieces n r.index pos c ps u (d.countWritten n total)

/-- One element added at a byte offset from DST (R250). One that two requests would share is not supported by an adder
(DEDUCED, log 105). -/
def Dev.addOut (d : Dev) (n : Nat) (r : DescRun) (c : Desc) (off : Int) (op : AddOp) (v pos : Nat) (u : Upset) : Dev :=
  match addRange c.dst off op.bytes with
  | none => d.stopRun n r.index 0x0603 1 pos c.dst
  | some addr =>
    let t := d.translate n addr .add c.broadcastOk u
    let d := t.1.countWritten n op.bytes
    match t.2 with
    | .error code => d.stopRun n r.index code 1 pos addr
    | .ok (.here a) =>
      if !addsAt a op && (d.region a) != .hole then d.stopRun n r.index 0x060D 1 pos addr
      else match d.writeRefused n a op.bytes .write with
        | some code => (d.refusedTile n a op.bytes .write code).stopRun n r.index code 1 pos addr
        | none =>
          if !(d.lostIn a op.bytes).isEmpty then
            (d.fault 0x0312 (Unit.billet (billetOf (stackIndex a))) a).stopRun n r.index 0x0312 1 pos addr
          else if u = .commandWord then d.lostCommand (shuttleUnit n)
          else
            let res := ((d.shuttleCrossing n a).lateWrite (shuttleUnit n) a (shuttleCulprit n) u).addElem a op v
            res.1.raise (FlagUnit.shuttle n) r.step res.2
    | .ok _ =>
      if (cutAt addr op.bytes).length != 1 then d.stopRun n r.index 0x060D 1 pos addr
      else d.runBytes n r.index addr pos (leBytes op.bytes v)

/-! ### One element (R243, R244) -/

/-- An element as it was read: type code, bits, scale, number of its source block plus 1, place in it. -/
structure Elem where
  typ : Nat
  bits : Nat
  scale : Nat
  block : Nat
  place : Nat
deriving DecidableEq, Repr

def Elem.toList (e : Elem) : List Nat := [e.typ, e.bits, e.scale, e.block, e.place]
def Elem.ofList (l : List Nat) : Elem := ⟨nth 0 l 0, nth 0 l 1, nth 0 l 2, nth 0 l 3, nth 0 l 4⟩

/-- The exact value of an element. A gradient-block element carries its exponent, plus 128, as its scale. -/
def Elem.num (e : Elem) : Num :=
  match ElemType.ofCode e.typ with
  | some .gradBlock => (Fmt.fp16.decode e.bits).scale ((e.scale : Int) - 128)
  | some t => if t.isMx then mxValue t e.scale e.bits else elemNum t e.bits
  | none => Num.zero

/-- The element converted to a type that is neither MX nor a gradient block. -/
def Elem.convert (e : Elem) (t : ElemType) : Fl Nat :=
  match ElemType.ofCode e.typ with
  | some .gradBlock => Fl.bind (gradConv ((e.scale : Int) - 128) e.bits) fun v => Fl.pure v.toNat
  | some s => if s.isMx then convTo t e.num else convScalar s t e.bits
  | none => Fl.pure 0

/-- PAD_VALUE as an element of the output type (R243). -/
def padElem (t : ElemType) (v : Nat) : Elem :=
  match t with
  | .fp32 => ⟨0, v, 0, 0, 0⟩
  | .bf16 => ⟨1, v, 0, 0, 0⟩
  | .fp16 => ⟨2, v, 0, 0, 0⟩
  | .pair => ⟨3, v, 0, 0, 0⟩
  | .i32 => ⟨10, v, 0, 0, 0⟩
  | .u32 => ⟨11, v, 0, 0, 0⟩
  | _ => ⟨0, v, 0, 0, 0⟩

/-- Thirty-two elements as an MX block: kept bit for bit where they are one whole block of the same type (R16),
else by R40. -/
def blockOf (t : ElemType) (es : List Elem) : Fl (Nat × List Nat) :=
  match es with
  | [] => Fl.pure (0x7F, [])
  | e :: _ =>
    if ElemType.ofCode e.typ == some t && e.block != 0 && (es.zip (upTo es.length)).all (fun p => p.1.block == e.block && p.1.typ == e.typ && p.1.place == p.2) then
      Fl.pure (e.scale, es.map Elem.bits)
    else toMxBlock t (es.map Elem.num)

/-! ### One position (R242) -/

/-- Where a position reads: source indices, or a pad, or a fault of the index list. -/
inductive Source where
  | elem (i : List Nat)
  | pad
  | fault (code addr : Nat)
deriving DecidableEq, Repr

/-- Pad test, source indices and the index list (R242, R254). -/
def Dev.sourceAt (d : Dev) (n : Nat) (c : Desc) (j : List Nat) : Dev × Source :=
  let out := (upTo c.ndim).any fun e => decide (nth 0 j e < nth 0 c.lo e) || decide (nth 0 c.lo e + nth 0 c.size (c.p e) ≤ nth 0 j e)
  if out then (d, .pad)
  else
    let i := (upTo c.ndim).foldl (fun i e => setNth i (c.p e) (nth 0 j e - nth 0 c.lo e)) [0, 0, 0, 0, 0]
    if c.gather then
      let g := c.ndim - 1
      let x := nth 0 i g
      let a := c.index + 4 + 4 * x
      let head := d.shuttleRead n c.index 4 .read .none
      match head.2 with
      | .error code => (head.1, .fault code c.index)
      | .ok hb =>
        if leNat hb ≤ x then (head.1, .pad)
        else
          let w := head.1.shuttleRead n a 4 .read .none
          match w.2 with
          | .error code => (w.1, .fault code a)
          | .ok wb =>
            let k := leNat wb
            if k = 0xFFFFFFFF then (w.1, .pad)
            else if c.idxLimit ≤ k then (w.1, .fault 0x0608 a)
            else (w.1, .elem (setNth i g k))
    else (d, .elem i)

/-- What the source yields at a position. -/
inductive Read where
  | elem (e : Elem)
  | fault (code addr : Nat)
  | wait
deriving DecidableEq, Repr

/-- Bytes that the rest of a source row takes from an offset on: what a remote read asks for. -/
def Desc.rowRest (c : Desc) (t : ElemType) (i : List Nat) : Nat :=
  if c.p 0 = 0 && nth 0 c.ss 0 == 1 && t != .gradBlock then (nth 0 c.size 0 - nth 0 i 0) * t.bits / 8 else 0

/-- read_src(d, i): the element, with its scale or its block header (R245, R246). -/
def Dev.readElem (d : Dev) (n : Nat) (r : DescRun) (c : Desc) (t : ElemType) (i : List Nat) (u : Upset) : Dev × Read :=
  let use : WbUse := if c.typeOut == some .gradBlock then
      (match decodeAddr d.deviceId c.src with
        | some (.local_ a) => if a < feltSize && (d.wbFind a).isSome then .convert else .read
        | _ => .read)
    else .read
  let o := elemOffset (fun k => nth 0 c.ss k) (fun k => nth 0 i k)
  let b := elemBytes t o
  match addRange c.src b.1 b.2 with
  | some a =>
    let g := d.sourceBytes n r a b.2 (c.rowRest t i) use u
    match g.2 with
    | .fault code a => (g.1, .fault code a)
    | .wait => (g.1, .wait)
    | .bytes bs =>
      let raw := leNat bs
      if t.isMx then
        let bits := (raw >>> ((o * (t.bits : Nat)) % 8).toNat) % 2 ^ t.bits
        let q := scaleIndex c.ndim c.sbdim (fun k => if c.gather && k + 1 == c.ndim then c.idxLimit else nth 0 c.size k) (fun k => nth 0 i k)
        match addOffset c.src ((c.scaleSrc + q : Nat) : Int) with
        | none => (g.1, .fault 0x0603 c.src)
        | some sa =>
          let s := g.1.sourceBytes n r sa 1 1 .read .none
          match s.2 with
          | .fault code a => (s.1, .fault code a)
          | .wait => (s.1, .wait)
          | .bytes sb => (s.1, .elem ⟨fieldOf c.ctrl 63 60, bits, leNat sb, q + 1, nth 0 i c.sbdim % 32⟩)
      else if t == .gradBlock then
        match addRange c.src (o / 256 * 516) 4 with
        | none => (g.1, .fault 0x0603 c.src)
        | some ha =>
          let h := g.1.sourceBytes n r ha 4 516 .read .none
          match h.2 with
          | .fault code a => (h.1, .fault code a)
          | .wait => (h.1, .wait)
          | .bytes hb => (h.1, .elem ⟨9, raw, (signExt 8 (leNat hb >>> 24) + 128).toNat, 0, 0⟩)
      else (g.1, .elem ⟨fieldOf c.ctrl 63 60, raw, 0, 0, 0⟩)
  | none => (d, .fault 0x0603 c.src)

/-- The step tag the conversion's events belong to: the tile's for a wide-buffer conversion (R143). -/
def Dev.convTag (d : Dev) (c : Desc) (r : DescRun) (addr : Option Nat) : Nat :=
  if c.typeOut == some .gradBlock then
    match addr.bind (decodeAddr d.deviceId) with
    | some (.local_ a) => if a < feltSize then
        (match d.wbFind a with | some (g, k) => (d.wbEnt g k).step | none => r.step) else r.step
    | _ => r.step
  else r.step

/-- A wide-buffer tile whose last word has been read by a conversion is DONE (R143). -/
def Dev.convertedTile (d : Dev) (c : Desc) (addr : Option Nat) : Dev :=
  if c.typeOut == some .gradBlock && c.typeIn == some .fp32 then
    match addr.bind (decodeAddr d.deviceId) with
    | some (.local_ a) =>
      if a < feltSize then
        match d.wbFind a with
        | some (g, k) =>
          let e := d.wbEnt g k
          if a + 4 = g * regionBytes + (e.base + e.rows) * 256 then d.wbConverted g k else d
        | none => d
      else d
    | _ => d
  else d

/-- An MX block of the destination is complete: its elements and its scale are written as one unit (R245). -/
def Dev.writeBlock (d : Dev) (n : Nat) (r : DescRun) (c : Desc) (t : ElemType) (j : List Nat) (pos : Nat) (u : Upset) : Dev :=
  let b := c.dbdim
  let q := scaleIndex c.ndim b c.extent (fun k => nth 0 j k)
  let get (k : Nat) : Elem := match sget [] r.block (q * 32 + k) with | [] => ⟨0, 0, 0, 0, 0⟩ | l => Elem.ofList l
  let res := blockOf t ((upTo 32).map get)
  let d := d.raise (FlagUnit.shuttle n) r.step res.2
  let base := elemOffset (fun k => nth 0 c.ds k) (fun k => if k = b then nth 0 j k / 32 * 32 else nth 0 j k)
  let w : Int := (t.bits : Nat)
  let ws : List (Int × List Byte × Option Nat) :=
    if b = 0 && nth 0 c.ds 0 == 1 then [(base * w / 8, leBytes (4 * t.bits) (packBits t.bits res.1.2), none)]
    else (upTo 32).map fun k =>
      let o := base + ((k : Nat) : Int) * nth 0 c.ds b
      let e := elemBytes t o
      let sh := (o * w % 8).toNat
      (e.1, leBytes e.2 (nth 0 res.1.2 k <<< sh), if t.bits = 8 then none else some ((2 ^ t.bits - 1) <<< sh))
  (d.writeUnit n r c (ws ++ [(((c.scaleDst + q : Nat) : Int), leBytes 1 res.1.1, none)]) (4 * t.bits + 1) pos u).modRun n r.index
    fun x => { x with block := sclear x.block (q * 32) (q * 32 + 32) }

/-- One element goes to the destination (write_dst, add_dst). -/
def Dev.putElem (d : Dev) (n : Nat) (r : DescRun) (c : Desc) (e : Elem) (j : List Nat) (pos : Nat) (srcAddr : Option Nat)
    (u : Upset) : Dev :=
  match c.typeOut with
  | none => d
  | some t =>
    let o := elemOffset (fun k => nth 0 c.ds k) (fun k => nth 0 j k)
    if t.isMx then
      let q := scaleIndex c.ndim c.dbdim c.extent (fun k => nth 0 j k)
      let key := q * 32 + nth 0 j c.dbdim % 32
      let d := d.modRun n r.index fun x => { x with block := sset [] x.block key e.toList }
      if nth 0 j c.dbdim % 32 = 31 then
        d.writeBlock n { r with block := sset [] r.block key e.toList } c t j pos u
      else d
    else if t == .gradBlock then
      let k := nth 0 j 0 % 256
      let blk := sset [] r.block k e.toList
      if k = 255 then
        let es := (upTo 256).map fun m => Elem.ofList (sget [] blk m)
        let res := toGradBlock 1 (es.map Elem.num)
        let d := d.raise (FlagUnit.shuttle n) (d.convTag c r srcAddr) res.2
        (d.writeUnit n r c [(o / 256 * 516, res.1.bytes, none)] 516 pos u).modRun n r.index fun x => { x with block := [] }
      else d.modRun n r.index fun x => { x with block := blk }
    else
      let v := e.convert t
      let d := d.raise (FlagUnit.shuttle n) r.step v.2
      let off := (elemBytes t o).1
      match c.accumulate, AddOp.ofType t with
      | true, some op => d.addOut n r c off op v.1 pos u
      | _, _ => d.writeUnit n r c [(off, leBytes (t.bits / 8) v.1, none)] (t.bits / 8) pos u

/-- A gradient block is copied whole, header included (R246). -/
def Dev.copyGrad (d : Dev) (n : Nat) (r : DescRun) (c : Desc) (i j : List Nat) (pos : Nat) (us ud : Upset) : Dev × Bool :=
  let so := elemOffset (fun k => nth 0 c.ss k) (fun k => nth 0 i k)
  let o := elemOffset (fun k => nth 0 c.ds k) (fun k => nth 0 j k)
  match addRange c.src (so / 256 * 516) 516 with
  | none => (d.stopRun n r.index 0x0603 0 pos c.src, true)
  | some a =>
    let g := d.sourceBytes n r a 516 516 .read us
    match g.2 with
    | .fault code a => (g.1.stopRun n r.index code 0 pos a, true)
    | .wait => (g.1, false)
    | .bytes bs => (if nth 0 j 0 % 256 = 255 then g.1.writeUnit n r c [(o / 256 * 516, bs, none)] 516 pos ud else g.1, true)

/-- Nothing is left to issue once the runs are out. -/
def Dev.settleRuns (d : Dev) (n index : Nat) : Dev :=
  (d.drainRuns n index).modRun n index fun x => if x.queued.isEmpty then { x with issued := true } else x

/-- The next position of the descriptor, and what follows its last: the runs are issued, and with them the descriptor's last
request. -/
def Dev.nextPosition (d : Dev) (n index : Nat) : Dev :=
  match d.runOf n index with
  | none => d
  | some r =>
    if r.failed then d
    else
      let d := d.modRun n index fun x => { x with pos := x.pos + 1 }
      if r.pos + 1 < r.total then d else (d.finishRuns n index true).settleRuns n index

/-- Shuttle n stands still: its clock is off, or STOW has stopped it (R473, R474). -/
def Dev.shuttleStill (d : Dev) (n : Nat) : Bool := decide (28 ≤ n) || d.asleep || (decide (n < 16) && !d.clocked)

/-- A disturbance falls on the position's read of its source, where that read is local or looks the entry up; else on its
write. Of the accesses of a position it is the first (DESIGN CHOICE, log 94). -/
def Desc.upsetOfSource (c : Desc) (own : Nat) (u : Upset) : Bool :=
  match decodeAddr own c.src with
  | some (.local_ _) => u != .loomEntry
  | some (.loom _ _) => u == .loomEntry
  | _ => false

/-- One position of a descriptor, at its place in the traversal (R242). -/
def Dev.handlePosition (d : Dev) (n : Nat) (r : DescRun) (u : Upset) : Dev :=
  let c := Desc.ofBytes r.raw
  let j := c.coords r.pos
  let s := d.sourceAt n c j
  match s.2 with
  | .fault code a => s.1.stopRun n r.index code 2 r.pos a
  | .pad =>
    if c.padWrite then
      match c.typeOut with
      | some t => (s.1.putElem n r c (padElem t c.pad) j r.pos none u).nextPosition n r.index
      | none => s.1
    else s.1.nextPosition n r.index
  | .elem i =>
    match c.typeIn with
    | none => s.1
    | some t =>
      let mine := c.upsetOfSource d.deviceId u
      let us := if mine then u else .none
      let ud := if mine then .none else u
      if t == .gradBlock && c.typeOut == some .gradBlock then
        let g := s.1.copyGrad n r c i j r.pos us ud
        if g.2 then g.1.nextPosition n r.index else g.1
      else
        let x := s.1.readElem n r c t i us
        match x.2 with
        | .wait => x.1
        | .fault code a => x.1.stopRun n r.index code 0 r.pos a
        | .elem e =>
          let sa := addOffset c.src (elemBytes t (elemOffset (fun k => nth 0 c.ss k) (fun k => nth 0 i k))).1
          ((x.1.putElem n r c e j r.pos sa ud).convertedTile c sa).nextPosition n r.index

/-- The descriptor that Shuttle n works on goes on: runs that waited are issued, then one position is handled. -/
def Dev.position (d : Dev) (n : Nat) (u : Upset) : Dev :=
  match (d.shuttle n).current with
  | none => d
  | some r =>
    if d.shuttleStill n || r.issued || r.need != 0 then d
    else if r.failed || decide (r.total ≤ r.pos) then d.settleRuns n r.index
    else
      let d := d.drainRuns n r.index
      match d.runOf n r.index with
      | none => d
      | some r => if r.failed || !r.queued.isEmpty || 256 ≤ d.outstanding n then d else d.handlePosition n r u

/-! ### Starting (R234–R236, R253, R254, R324) -/

/-- The Shuttle's step tag unit sees the beat of a start condition (R235). -/
def Dev.startMet (d : Dev) (step : Nat) (c : Desc) : Bool :=
  if c.startMode = 0 then true
  else if d.frozen then false
  else if c.startMode = 1 then decide (fieldOf c.start 16 9 ≤ d.tokens (fieldOf c.start 29 26) (fieldOf c.start 25 17))
  else decide ((d.resil.witnessFrom.getD (d.startBeatOf step)) + fieldOf c.start 29 0 ≤ d.get Ent.logicalBeat)

/-- The tokens of a met start condition are consumed. -/
def Dev.takeStart (d : Dev) (c : Desc) : Dev :=
  if c.startMode = 1 then
    let i := fieldOf c.start 29 26
    let k := fieldOf c.start 25 17
    d.modIsland i fun x => { x with tokens := sset 0 x.tokens k (sget 0 x.tokens k - fieldOf c.start 16 9) }
  else d

/-- Two extents overlap (R253). -/
def extentsMeet (a b : Option (Nat × Int × Int)) : Bool :=
  match a, b with
  | some a, some b => a.1 == b.1 && decide (a.2.1 ≤ b.2.2) && decide (b.2.1 ≤ a.2.2)
  | _, _ => false

/-- The extents of the 8 most recently started descriptors in flight, with their Shuttles. -/
def Dev.extentList (d : Dev) : List (Nat × DescRun) :=
  let all := d.shuttles.flatMap fun s => s.2.inFlight.map fun r => (s.1, r)
  all.filter fun a => (all.filter fun b => decide (a.2.order < b.2.order)).length < 8

/-- The credit need of a stream descriptor (R324): none where it is no stream descriptor. -/
def Dev.creditNeed (d : Dev) (c : Desc) : Option (Nat × Nat) :=
  match decodeAddr d.deviceId c.dst with
  | some (.loom i off) =>
    let e := LoomEnt.ofWord (d.loomWord i)
    if e.valid && e.stream then
      let b := 4096 * 2 ^ (d.outStream e.streamId).bufLog
      let base : Int := ((c.dst % 2 ^ 47 : Nat) : Int)
      let at_ : Int := ((e.segment * 0x4000000 + off : Nat) : Int)
      match c.range with
      | some rg => some (e.streamId, (at_ + rg.2.2 - base).toNat / b - (at_ + rg.2.1 - base).toNat / b + 1)
      | none => some (e.streamId, 0)
    else none
  | _ => none

/-- A destination touches bundle page g of the device, numbered over its panels (R51); own is the device's ID. -/
def touchesPage (own : Nat) (ext : Option (Nat × Int × Int)) (g : Nat) : Bool :=
  match ext with
  | some e =>
    (e.1 == 0 || e.1 == 0x200000 + own) && decide (e.2.1 < ((0x10E000000 + (g + 1) * 0x8000 : Nat) : Int))
      && decide (((0x10E000000 + g * 0x8000 : Nat) : Int) ≤ e.2.2)
  | none => false

/-- The bundle pages of a destination are busy while a descriptor in flight writes there (R51). -/
def Dev.markPages (d : Dev) (ext : Option (Nat × Int × Int)) : Dev :=
  match ext with
  | none => d
  | some e =>
    let lo := (max e.2.1 0x10E000000).toNat - 0x10E000000
    let hi := (min e.2.2 0x10FFFFFFF).toNat - 0x10E000000
    if e.2.2 < 0x10E000000 || 0x10FFFFFFF < e.2.1 then d
    else ((upTo (hi / 0x8000 + 1 - lo / 0x8000)).map (lo / 0x8000 + ·)).foldl (fun d g =>
      let busy := d.shuttles.any fun s => s.2.inFlight.any fun r => touchesPage d.deviceId r.extent g
      if touchesPage d.deviceId ext g then d.modPanel (g / 8) fun x => { x with busyPages := setBit x.busyPages (g % 8) busy }
      else d) d

/-- A descriptor that is not performed: the queue goes on after it (R240, R259). -/
def Dev.skipDesc (d : Dev) (n : Nat) : Dev :=
  d.modShuttle n fun s => { s with next := s.next + 1, left := s.left - 1 }

/-- The body ends, or the prologue gives way to the first body. -/
def Dev.endOfBody (d : Dev) (n : Nat) : Dev :=
  let s := d.shuttle n
  if s.left != 0 then d
  else if s.opening then
    d.modShuttle n fun s => { s with opening := false, left := s.body, next := s.prologue + s.step % s.period * s.body }
  else if s.inFlight.isEmpty then
    d.modShuttle n fun s => { s with phase := if s.step = d.pat.lastStep then 0 else 3 }
  else d

/-- A descriptor's 128 bytes as Shuttle n's fetch gets them; none where its command word is lost. -/
def Dev.fetchDesc (d : Dev) (n a : Nat) (u : Upset) : Dev × Option (List Byte) :=
  let d := d.shuttleCrossing n a
  if u = .commandWord then (d.lostCommand (shuttleUnit n), none)
  else
    let m := d.windowMeet (shuttleUnit n) a (shuttleCulprit n) u
    if m.2 then ((m.1.freeBytes 128).1, some (m.1.freeBytes 128).2) else (m.1, some (m.1.read a 128))

/-- A descriptor's index list is refused at its start: its place, or a COUNT above the capacity (R254). -/
def Dev.listRefused (d : Dev) (n : Nat) (c : Desc) : Dev × Option Nat :=
  if !c.gather then (d, none)
  else if c.index % 4 != 0 || !(decide (c.index < feltSize) || (inNear c.index && decide (c.index < 2 ^ 41))) then (d, some 0x0608)
  else if c.total = 0 then (d, none)
  else
    let g := d.shuttleRead n c.index 4 .read .none
    match g.2 with
    | .error code => (g.1, some code)
    | .ok bs => (g.1, if nth 0 c.size (c.ndim - 1) < leNat bs then some 0x0608 else none)

/-- The next descriptor of a Shuttle starts, if it may (R236). With the stack off no descriptor is fetched (R6). -/
def Dev.startDesc (d : Dev) (n : Nat) (u : Upset) : Dev :=
  if d.shuttleStill n || !d.power.stackUp then d
  else
  let d := d.endOfBody n
  let s := d.shuttle n
  if s.left = 0 || s.phase = 0 || s.phase = 3 || 8 ≤ s.inFlight.length
      || (match s.current with | some r => !r.issued | none => false) then d
  else
    let a := s.base + 128 * s.next
    match d.fetchDesc n a u with
    | (d, none) => d
    | (d, some raw) =>
    let c := Desc.ofBytes raw
    if !d.startMet s.step c then d.modShuttle n fun s => { s with phase := 1 }
    else
      let d := d.modShuttle n fun s => { s with phase := 2 }
      let poisoned := !(d.poisonIn a 128).isEmpty
      let d := if isIslandShuttle n then d.meetPoison a 128 (shuttleUnit n)
        else (d.poisonIn a 128).foldl (fun d w => d.poisonFault w (shuttleUnit n)) d
      if poisoned && !isIslandShuttle n then ((d.descFault n s.next s.step 0x0301 3 none a).skipDesc n).endOfBody n
      else match c.refused d.deviceId with
        | some code => (((d.takeStart c).descFault n s.next s.step code 3 none a).skipDesc n).endOfBody n
        | none =>
          let d := d.takeStart c
          let ext := c.range
          let guardHit := (c.guard || d.get Ent.guardForce != 0) &&
            d.extentList.any fun e => e.1 != n && extentsMeet e.2.extent ext
          let need := d.creditNeed c
          let tooMany := match need with | some (k, v) => decide ((d.outStream k).bufs < v) | none => false
          let bad (d : Dev) (code side addr : Nat) : Dev :=
            ((d.descFault n s.next s.step code side (some (c.coords 0)) addr).skipDesc n).endOfBody n
          if tooMany then bad d 0x0407 1 c.dst
          else if guardHit then bad d 0x0607 1 c.dst
          else match d.listRefused n c with
          | (d, some code) => bad d code 2 c.index
          | (d, none) =>
            let r : DescRun :=
              { index := s.next, step := s.step, order := d.descOrder, raw := raw, pos := 0, total := c.total,
                issued := c.total == 0, open_ := 0, failed := false,
                need := match need with | some (_, v) => v | none => 0
                run := none, queued := [], parts := [], rode := false, fetched := [], asked := false, block := [], staged := [],
                extent := ext, claiming := false }
            let d := { d with descOrder := d.descOrder + 1 }
            let d := match need with
              | some (k, _) => d.bump Ent.streamState (4 * k + 2) 2 1
              | none => d
            (d.modShuttle n fun s => { s with inFlight := s.inFlight ++ [r], next := s.next + 1, left := s.left - 1 }).markPages ext

/-- The body of the next step starts once its start beat is observed (R234). -/
def Dev.startBody (d : Dev) (n : Nat) : Dev :=
  let s := d.shuttle n
  if !d.shuttleStill n && s.phase = 3 && decide (s.step < d.step) && decide (s.step < d.pat.lastStep) && s.inFlight.isEmpty then
    let k := s.step + 1
    (d.modShuttle n fun s => { s with
      phase := 2, step := k, next := s.prologue + k % s.period * s.body, left := s.body, completed := 0 }).endOfBody n
  else d

/-- At the start beat of step k every Shuttle runs its prologue, then body k (R234). -/
def Dev.openQueues (d : Dev) (k : Nat) : Dev :=
  (upTo 28).foldl (fun d n =>
    let s := d.shuttle n
    if s.prologue + s.body = 0 then d.modShuttle n fun s => { s with step := k, phase := 3 }
    else (d.modShuttle n fun s => { s with
      phase := 2, step := k, next := 0, left := s.prologue, opening := true, completed := 0 }).endOfBody n) d

/-- The oldest waiting stream descriptor takes its credits once the stream holds them (R324). -/
def Dev.takeCredits (d : Dev) (n : Nat) : Dev :=
  match (d.shuttle n).current with
  | none => d
  | some r =>
    if d.shuttleStill n || r.need = 0 || r.failed then d
    else match d.creditNeed (Desc.ofBytes r.raw) with
      | none => d
      | some (k, _) =>
        let earlier := d.shuttles.any fun s => s.2.inFlight.any fun q =>
          q.need != 0 && !q.failed && decide (q.order < r.order) && (d.creditNeed (Desc.ofBytes q.raw)).map Prod.fst == some k
        if earlier || d.creditsHeld k < r.need then d
        else
          let d := d.setCredits k (d.creditsHeld k - r.need)
          let d := d.putB Ent.streamState (4 * k + 2) 2 (d.getB Ent.streamState (4 * k + 2) 2 - 1)
          d.modRun n r.index fun x => { x with need := 0 }

/-! ### Completion (R236, R237, R162) -/

/-- An AT_DEST post that no request carried: to this device's own island where the destination turns out to be this device,
else it leaves for the destination by itself (DESIGN CHOICE, log 105). -/
def Dev.postFar (d : Dev) (c : Desc) : Dev :=
  let far (group : Bool) (dest : Nat) : Dev :=
    { d with weave := { d.weave with farPosts := d.weave.farPosts ++ [⟨group, dest, c.tokenWord⟩] } }
  match decodeAddr d.deviceId c.dst with
  | some (.global dev _) => far false dev
  | some (.loom i _) =>
    let e := LoomEnt.ofWord (d.loomWord i)
    if e.multicast then far true e.target
    else if e.target = d.deviceId then d.sendToken true c.tokenIsland c.tokenCtr c.tokenAmount none
    else far false e.target
  | _ => d

/-- The token of a descriptor that Shuttle n has completed (R237). -/
def Dev.postToken (d : Dev) (n cycle : Nat) (r : DescRun) : Dev :=
  let c := Desc.ofBytes r.raw
  if !c.tokenEn then d
  else if c.atDest then (if r.rode then d else d.postFar c)
  else if n < 16 && c.tokenIsland == n then
    d.schedule ⟨max cycle (d.island n).cycle + 2, 0, 0, 0, 0, .token c.tokenCtr c.tokenAmount 0⟩ n
  else d.sendToken (decide (16 ≤ n)) c.tokenIsland c.tokenCtr c.tokenAmount none

/-- The oldest descriptor in flight is complete: its staged writes take effect and it posts its token. -/
def Dev.completeDesc (d : Dev) (n cycle : Nat) : Dev :=
  match (d.shuttle n).inFlight with
  | [] => d
  | r :: rest =>
    if d.shuttleStill n || !r.issued || r.open_ != 0 || r.claiming then d
    else
      let d := d.modShuttle n fun s => { s with inFlight := rest, completed := s.completed + bitNat (!r.failed) }
      let d := (r.staged.foldl (fun d w => d.write w.1 w.2) d).markPages r.extent
      if r.failed then d.endOfBody n
      else ((if n < 16 then d.evI n 0x030 1 else d).postToken n cycle r).endOfBody n

/-- A stash claim is granted once the entry's REMAIN is 0 (R146); its descriptor may hold another. -/
def Dev.grantClaim (d : Dev) (e : Nat) : Dev :=
  match d.wide.claims.find? fun c => c.entry == e with
  | none => d
  | some c =>
    if stashRemain (d.stashWord e) != 0 then d
    else
      let left := d.wide.claims.erase c
      let d := { d with wide := { d.wide with claims := left } }
      (d.writeNat (stashAddr e) 8 c.word).modRun c.shuttle c.index fun x =>
        { x with claiming := left.any fun o => o.shuttle == c.shuttle && o.index == c.index }

/-- 0x6302:00 QUEUE_STATE. -/
def Dev.queueBlob (d : Dev) : Nat :=
  leNat ((upTo 28).flatMap fun n =>
    let s := d.shuttle n
    leBytes 2 s.next ++ leBytes 1 s.phase ++ leBytes 1 s.inFlight.length ++ leBytes 4 s.completed)

/-- A Shuttle is reset: what is in flight stops where it is (R262). -/
def Dev.shuttleReset (d : Dev) (n : Nat) : Dev :=
  let gone := (d.shuttle n).inFlight
  let d := { d with
    weave := { d.weave with pends := d.weave.pends.filter fun p => !(p.shuttle == n && decide (p.num < 1024)) }
    wide := { d.wide with claims := d.wide.claims.filter fun c => c.shuttle != n } }
  let d := d.modShuttle n fun s => { s with
    inFlight := [], left := 0, opening := false, phase := if s.phase = 0 then 0 else 3, completed := 0 }
  gone.foldl (fun d r => d.markPages r.extent) d

/-- Unstarted descriptors of the step are discarded (R262). -/
def Dev.discardUnstarted (d : Dev) (n : Nat) : Dev :=
  d.modShuttle n fun s => { s with left := 0, opening := false, phase := if s.phase = 0 then 0 else 3 }

end Sys2Proof.Machine
end

