-- ==== Sys2Proof/Machine/Burnisher.lean ====
section
/-!
DEFINITION. The Burnishers (*Burnisher optimiser update*, R374–R401): section 0x000C, the update of one
element, chunk commit with the redo log, recovery scan, run start and completion, mirror puts.
-/
namespace Sys2Proof.Machine
open Sys2Proof

/-! ### Section 0x000C (R377–R381) -/

structure BurnHead where
  partMask : Nat
  groups : Nat
  tableLen : Nat
  runs : Nat
  updateBase : Nat
deriving DecidableEq, Repr

def BurnHead.ofBytes (bs : List Byte) : BurnHead :=
  ⟨leAt bs 0 1, leAt bs 1 1, leAt bs 4 4, leAt bs 8 4, leAt bs 12 4⟩

/-- The optimiser algorithms of R378. -/
inductive Algo where
  | adamw | adam | lion | sgd | plain
deriving DecidableEq, Repr

def Algo.ofCode : Nat → Option Algo
  | 1 => some .adamw | 2 => some .adam | 3 => some .lion | 4 => some .sgd | 5 => some .plain
  | _ => none

/-- A group record's hyperparameters. -/
structure Hyper where
  algo : Option Algo
  nesterov : Bool
  bcset : Nat
  lr : F32
  wd : F32
  b1 : F32
  c1 : F32
  b2 : F32
  c2 : F32
  eps : F32
deriving DecidableEq, Repr

def Hyper.ofBytes (bs : List Byte) : Hyper :=
  let f (o : Nat) : F32 := BitVec.ofNat 32 (leAt bs o 4)
  { algo := Algo.ofCode (leAt bs 0 1), nesterov := bitOf (leAt bs 1 1) 0, bcset := leAt bs 2 1 % 4,
    lr := f 4, wd := f 8, b1 := f 12, c1 := f 16, b2 := f 20, c2 := f 24, eps := f 28 }

structure PartRec where
  elements : Nat
  runs : Nat
  runFirst : Nat
  start : Nat
  done : Nat
  master : List Nat
  comp : List Nat
  m : List Nat
  v : List Nat
  log : Nat
  state : Nat
  mirror : Nat
  fpOut : Nat
  hasComp : Bool
  dual : Bool
deriving DecidableEq, Repr

def PartRec.ofBytes (bs : List Byte) : PartRec :=
  let q (o : Nat) : Nat := leAt bs o 8
  { elements := leAt bs 0 4, runs := leAt bs 4 2, runFirst := leAt bs 6 2, start := leAt bs 8 4, done := leAt bs 12 4,
    master := [q 16, q 24], comp := [q 32, q 40], m := [q 48, q 56], v := [q 64, q 72], log := q 80, state := q 88,
    mirror := q 96, fpOut := q 104, hasComp := bitOf (leAt bs 112 1) 0, dual := bitOf (leAt bs 112 1) 1 }

structure RunRec where
  count : Nat
  group : Nat
  imageBase : Nat
  grad : Nat
  pub : Nat
deriving DecidableEq, Repr

def RunRec.ofBytes (bs : List Byte) : RunRec :=
  ⟨leAt bs 0 4, leAt bs 4 1, leAt bs 8 8 % 2 ^ 48, leAt bs 16 8, leAt bs 24 8⟩

def Dev.burnHead (d : Dev) : BurnHead := BurnHead.ofBytes (d.section 0x000C)
def Dev.hyper (d : Dev) (g : Nat) : Hyper := Hyper.ofBytes (((d.section 0x000C).drop (64 + 48 * g)).take 48)
def Dev.part (d : Dev) (b : Nat) : PartRec :=
  PartRec.ofBytes (((d.section 0x000C).drop (64 + 48 * d.burnHead.groups + 128 * b)).take 128)
def Dev.runRec (d : Dev) (i : Nat) : RunRec :=
  RunRec.ofBytes (((d.section 0x000C).drop (64 + 48 * d.burnHead.groups + 1024 + 32 * i)).take 32)
/-- A word of step entry i. -/
def Dev.stepWord (d : Dev) (i off : Nat) : F32 :=
  let h := d.burnHead
  BitVec.ofNat 32 (leAt (d.section 0x000C) (64 + 48 * h.groups + 1024 + 32 * h.runs + 48 * i + off) 4)

def Dev.hasPart (d : Dev) (b : Nat) : Bool := !(d.section 0x000C).isEmpty && bitOf d.burnHead.partMask b

/-- The arrays the part uses: moments and second moments (R379). -/
def Dev.partAlgo (d : Dev) (b : Nat) : Algo :=
  ((d.hyper (d.runRec (d.part b).runFirst).group).algo).getD .plain
def Algo.usesM : Algo → Bool
  | .plain => false
  | .adamw | .adam | .lion | .sgd => true
def Algo.usesV : Algo → Bool
  | .adamw | .adam => true
  | .lion | .sgd | .plain => false

/-! ### One element (R385, R386) -/

def f32IsPos (x : F32) : Bool := (f32Num f32Zero).lt (f32Num x)
def f32IsNeg (x : F32) : Bool := (f32Num x).lt (f32Num f32Zero)

/-- u and the new moments (m′, v′). -/
def burnUpdate (h : Hyper) (lrt bc1 bc2 g m v w : F32) : Fl (F32 × F32 × F32) :=
  let nlr := f32Neg lrt
  match h.algo with
  | some .adamw =>
    Fl.bind (f32Mul h.c1 g) fun a => Fl.bind (f32Fma h.b1 m a) fun m' =>
    Fl.bind (f32Mul g g) fun gg => Fl.bind (f32Mul h.c2 gg) fun b => Fl.bind (f32Fma h.b2 v b) fun v' =>
    Fl.bind (f32Mul m' bc1) fun mh => Fl.bind (f32Mul v' bc2) fun vh => Fl.bind (f32Sqrt vh) fun s =>
    Fl.bind (f32Add s h.eps) fun den => Fl.bind (f32Div mh den) fun r => Fl.bind (f32Fma h.wd w r) fun q =>
    Fl.bind (f32Mul nlr q) fun u => Fl.pure (u, m', v')
  | some .adam =>
    Fl.bind (f32Fma h.wd w g) fun g2 =>
    Fl.bind (f32Mul h.c1 g2) fun a => Fl.bind (f32Fma h.b1 m a) fun m' =>
    Fl.bind (f32Mul g2 g2) fun gg => Fl.bind (f32Mul h.c2 gg) fun b => Fl.bind (f32Fma h.b2 v b) fun v' =>
    Fl.bind (f32Mul m' bc1) fun mh => Fl.bind (f32Mul v' bc2) fun vh => Fl.bind (f32Sqrt vh) fun s =>
    Fl.bind (f32Add s h.eps) fun den => Fl.bind (f32Div mh den) fun r =>
    Fl.bind (f32Mul nlr r) fun u => Fl.pure (u, m', v')
  | some .lion =>
    Fl.bind (f32Mul h.c1 g) fun a => Fl.bind (f32Fma h.b1 m a) fun c =>
    let s := if f32IsNan c then f32Nan else if f32IsPos c then f32One else if f32IsNeg c then f32Neg f32One else f32Zero
    Fl.bind (f32Mul h.c2 g) fun b => Fl.bind (f32Fma h.b2 m b) fun m' =>
    Fl.bind (f32Fma h.wd w s) fun q => Fl.bind (f32Mul nlr q) fun u => Fl.pure (u, m', v)
  | some .sgd =>
    Fl.bind (f32Fma h.wd w g) fun g2 => Fl.bind (f32Mul h.c1 g2) fun a => Fl.bind (f32Fma h.b1 m a) fun m' =>
    Fl.bind (if h.nesterov then f32Fma h.b1 m' g2 else Fl.pure m') fun q =>
    Fl.bind (f32Mul nlr q) fun u => Fl.pure (u, m', v)
  | some .plain =>
    Fl.bind (f32Fma h.wd w g) fun g2 => Fl.bind (f32Mul nlr g2) fun u => Fl.pure (u, m, v)
  | none => Fl.pure (f32Zero, m, v)

/-- The new master: hi′, lo′ and the working weight (R386). lo is a BF16 pattern. -/
def burnMaster (comp : Bool) (w u : F32) (lo : Nat) : Fl (F32 × Nat × Nat) :=
  if comp then
    Fl.bind ((f32Num u).add (Fmt.bf16.decode lo)) fun yx => Fl.bind (f32Of yx) fun y =>
    Fl.bind ((f32Num w).add (f32Num y)) fun t => Fl.bind (f32Of t) fun hi2 =>
    if !(f32Num hi2).isFinite then Fl.bind (Fmt.bf16.round (f32Num hi2)) fun w16 => Fl.pure (hi2, 0, w16)
    else
      Fl.bind (Fmt.bf16.round (t.add (f32Num hi2).negate).1) fun lo2 =>
      Fl.bind (Fmt.bf16.round ((f32Num hi2).add (Fmt.bf16.decode lo2)).1) fun w16 => Fl.pure (hi2, lo2, w16)
  else
    Fl.bind (f32Add w u) fun hi => Fl.bind (Fmt.bf16.round (f32Num hi)) fun w16 => Fl.pure (hi, lo, w16)

/-- The working weight of a stored master (R386). -/
def workingWeight (comp : Bool) (hi : F32) (lo : Nat) : Nat :=
  if comp && (f32Num hi).isFinite then (Fmt.bf16.round ((f32Num hi).add (Fmt.bf16.decode lo)).1).1
  else (Fmt.bf16.round (f32Num hi)).1

/-! ### State block and log (R390, R391, R393) -/

def chunkElems : Nat := 65536

def Dev.burner (d : Dev) (b : Nat) : Burnisher := sget Burnisher.reset d.burn b
def Dev.modBurner (d : Dev) (b : Nat) (f : Burnisher → Burnisher) : Dev :=
  { d with burn := smod Burnisher.reset d.burn b f }

/-- A field of a part's state block. -/
def Dev.sb (d : Dev) (b off len : Nat) : Nat := d.readNat ((d.part b).state + off) len
def Dev.setSb (d : Dev) (b off len v : Nat) : Dev := d.stackPut ((d.part b).state + off) len v

def sbMagic : Nat := 0x54535242
def logMagic : Nat := 0x474F4C42

/-- Elements of chunk c of a part. -/
def PartRec.chunkLen (p : PartRec) (c : Nat) : Nat := min chunkElems (p.elements - chunkElems * c)
def PartRec.chunks (p : PartRec) : Nat := ceilDiv p.elements chunkElems

/-- The run record and position that hold part element e; fuel is the part's runs. -/
def Dev.locate (d : Dev) : Nat → Nat → Nat → RunRec × Nat
  | 0, i, e => (d.runRec i, e)
  | k + 1, i, e =>
    let r := d.runRec i
    if e < r.count then (r, e) else Dev.locate d k (i + 1) (e - r.count)

/-- Addresses of part element e: gradient, published weight, image index, group. -/
def Dev.elemPlace (d : Dev) (b e : Nat) : Nat × Nat × Nat × Nat :=
  let p := d.part b
  let l := d.locate (p.runs - 1) p.runFirst e
  (l.1.grad + 4 * l.2, l.1.pub + 2 * l.2, l.1.imageBase + l.2, l.1.group)

/-- The bytes of a log record less RCRC. -/
def logBody (state buf seq update step chunk elems fp dcrc : Nat) : List Byte :=
  leBytes 4 logMagic ++ leBytes 1 state ++ leBytes 1 buf ++ leBytes 2 0 ++ leBytes 8 seq ++ leBytes 4 update
    ++ leBytes 4 step ++ leBytes 4 chunk ++ leBytes 4 elems ++ leBytes 8 fp ++ leBytes 4 dcrc

/-- A log record with its RCRC over bytes 0–43 and 48–63 (R391). -/
def logRecord (state buf seq update step chunk elems fp dcrc : Nat) : List Byte :=
  let body := logBody state buf seq update step chunk elems fp dcrc
  let tail : List Byte := leBytes 16 0
  body ++ leBytes 4 (crc32c (body ++ tail)) ++ tail

def PartRec.slot (p : PartRec) (seq : Nat) : Nat := p.log + seq % 4 * 0x100000

/-- 0x7102, 0x7103, 0x7107: the Burnisher entries follow the state block (R400). -/
def Dev.showBurner (d : Dev) (b : Nat) : Dev :=
  let d := d.putB Ent.updateCount (4 * b) 4 (d.sb b 16 4)
  let d := d.putB Ent.burnisherState (16 * b) 12
    (d.sb b 6 1 + d.sb b 4 1 <<< 8 + d.sb b 5 1 <<< 16 + d.sb b 24 4 <<< 32 + d.sb b 20 4 <<< 64)
  let sum := ((upTo 8).map fun k => if d.hasPart k then d.sb k 40 8 else 0).foldl (· + ·) 0
  d.put Ent.shardFp (sum % 2 ^ 64)

/-! ### Mirror puts (R398, R399) -/

/-- E′ of R398, and the offset of the mirror record. -/
def PartRec.padded (p : PartRec) : Nat := ceilDiv p.elements 64 * 64
def PartRec.recordOff (p : PartRec) : Nat := ceilDiv (14 * p.padded) 256 * 256

def Dev.mirrorBroken (d : Dev) (b : Nat) : Bool := bitOf (d.getB Ent.mirrorStatus (16 * b + 12) 1) 0

/-- Requests a Burnisher has outstanding. -/
def Dev.burnOut (d : Dev) (b : Nat) : Nat := (d.weave.pends.filter fun p => p.shuttle == 16 + b && decide (1024 ≤ p.num)).length

/-- A put cut at the 16 MiB boundaries of its target (R311). -/
def cutPuts : Nat → Nat → List Byte → List (Nat × List Byte)
  | 0, _, _ => []
  | k + 1, a, bs =>
    if bs.isEmpty then []
    else
      let n := 0x1000000 - a % 0x1000000
      (a, bs.take n) :: cutPuts k (a + n) (bs.drop n)

/-- A part's mirror is marked broken, and its puts stop (R399). -/
def Dev.breakMirror (d : Dev) (b : Nat) : Dev :=
  let d := d.putB Ent.mirrorStatus (16 * b + 12) 1 1
  d.modBurner b fun x => { x with toSend := x.toSend.filter fun p => p.kind == 1, puts := [], remirroring := 0 }

/-- Queued puts leave while fewer than 64 are outstanding and the Felt switch is up (R396, R398). -/
def Dev.pumpGo (b : Nat) : Nat → Dev → Dev
  | 0, d => d
  | k + 1, d =>
    match (d.burner b).toSend with
    | [] => d
    | p :: ps =>
      if 64 ≤ d.burnOut b || !d.power.stackUp then d
      else
        let d := d.modBurner b fun x => { x with toSend := ps }
        let t := d.translate (16 + b) p.addr .write false .none
        let why : Purpose := if p.kind = 0 then .mirror b else if p.kind = 1 then .snapshot b else .remirror b
        match t.2 with
        | .ok (.device id off _) =>
          let d := (t.1.issue FlitType.put 0 id off p.bytes.length 0 0 0 p.bytes (16 + b) (t.1.freeNum (16 + b) 1024) why)
          Dev.pumpGo b k (d.count (0x440 + 32 * b + 19) p.bytes.length)
        | _ => Dev.pumpGo b k (if p.kind = 1 then t.1 else (t.1.fault 0x0725 (Unit.billet b) p.addr).breakMirror b)

def Dev.pump (d : Dev) (b : Nat) : Dev := Dev.pumpGo b 64 d

/-- 0x7106: requests outstanding of a part. -/
def Dev.showMirror (d : Dev) (b : Nat) : Dev :=
  d.putB Ent.mirrorStatus (16 * b + 8) 4 (((d.burner b).puts.map Prod.snd).foldl (· + ·) 0)

/-- Puts of one chunk, or of one remirror, join the queue. -/
def Dev.queuePuts (d : Dev) (b seq kind : Nat) (puts : List (Nat × List Byte)) : Dev :=
  let cut := puts.flatMap fun p => cutPuts (p.2.length + 1) p.1 p.2
  let d := d.modBurner b fun x => { x with
    toSend := x.toSend ++ cut.map fun p => ⟨p.1, p.2, seq, kind⟩
    puts := if kind = 1 then x.puts else x.puts ++ [(seq, cut.length)] }
  (d.pump b).showMirror b

/-- The mirror of a part is in use. -/
def Dev.mirroring (d : Dev) (b : Nat) : Bool :=
  d.get Ent.resilienceMode == 2 && (d.part b).mirror != 0 && !d.mirrorBroken b && d.resil.helloOk

/-- The last chunk's record of a REMIRROR, built from the state block (R423). -/
def Dev.remirrorRecord (d : Dev) (b : Nat) : List Byte :=
  let p := d.part b
  let u := d.sb b 16 4
  let c := p.chunks - 1
  let step := if u = d.burnHead.updateBase then 0xFFFFFFFF else d.sb b 20 4
  let fp := d.sb b 40 8
  (logRecord 2 (d.sb b 4 1) (d.sb b 8 8 - 1) (u + 2 ^ 32 - 1) step c (p.chunkLen c) 0 0).take 48 ++ leBytes 8 fp ++ leBytes 8 fp

/-- A commanded REMIRROR sends the part's ACTIVE arrays whole, once the buddy has answered and the current run
and its puts are over (R423). -/
def Dev.remirrorGo (d : Dev) (b : Nat) : Dev :=
  let x := d.burner b
  if x.remirroring != 1 || !d.resil.helloOk || x.run.isSome || !x.puts.isEmpty then d
  else
    let p := d.part b
    let al := d.partAlgo b
    let act := d.sb b 4 1
    let e' := p.padded
    let arr (base size : Nat) : List Byte := d.read base (size * p.elements)
    let arrays := (if al.usesM then [(p.mirror, arr (nth 0 p.m act) 4)] else [])
      ++ (if al.usesV then [(p.mirror + 4 * e', arr (nth 0 p.v act) 4)] else [])
      ++ [(p.mirror + 8 * e', arr (nth 0 p.master act) 4)]
      ++ (if p.hasComp then [(p.mirror + 12 * e', arr (nth 0 p.comp act) 2)] else [])
    let d := d.modBurner b fun x => { x with remirroring := 2 }
    d.queuePuts b (d.sb b 8 8 - 1) 2 (arrays ++ [(p.mirror + p.recordOff, d.remirrorRecord b)])

/-- A mirror or remirror put completes: MIRROR_SEQ advances as each chunk's puts complete. -/
def Dev.mirrorCompleted (d : Dev) (b status : Nat) : Dev :=
  if status != 0 then ((d.fault 0x0725 (Unit.billet b) status).breakMirror b).showMirror b
  else
    match (d.burner b).puts with
    | [] => d.pump b
    | (seq, n) :: rest =>
      if 1 < n then ((d.modBurner b fun x => { x with puts := (seq, n - 1) :: rest }).pump b).showMirror b
      else
        let d := d.modBurner b fun x => { x with puts := rest }
        let d := (d.setSb b 48 8 seq).putB Ent.mirrorStatus (16 * b) 8 seq
        let d := if (d.burner b).remirroring = 2 && rest.isEmpty then
            (d.putB Ent.mirrorStatus (16 * b + 12) 1 0).modBurner b fun x => { x with remirroring := 0 }
          else d
        ((d.pump b).remirrorGo b).showMirror b

/-! ### Chunk commit (R392) -/

/-- Everything one chunk computes: m, v, hi, lo, w16 of each element, its fingerprint and events. -/
structure ChunkOut where
  m : List F32
  v : List F32
  hi : List F32
  lo : List Nat
  w16 : List Nat
  fp : Nat
  flags : Flags
deriving DecidableEq, Repr

/-- The chunk's results from buffer src. -/
def Dev.chunkCompute (d : Dev) (b c src u : Nat) : ChunkOut :=
  let p := d.part b
  let al := d.partAlgo b
  let i := min u (d.burnHead.tableLen - 1)
  let rd (base e : Nat) : F32 := BitVec.ofNat 32 (d.readNat (base + 4 * e) 4)
  let es := (upTo (p.chunkLen c)).map fun k => chunkElems * c + k
  let out := Fl.mapList (fun e =>
    let q := d.elemPlace b e
    let h := d.hyper q.2.2.2
    let g : F32 := BitVec.ofNat 32 (d.readNat q.1 4)
    let m := if al.usesM then rd (nth 0 p.m src) e else f32Zero
    let v := if al.usesV then rd (nth 0 p.v src) e else f32Zero
    let w := rd (nth 0 p.master src) e
    let lo := if p.hasComp then d.readNat (nth 0 p.comp src + 2 * e) 2 else 0
    Fl.bind (f32Mul h.lr (d.stepWord i 0)) fun lrt =>
    Fl.bind (burnUpdate h lrt (d.stepWord i (8 + 8 * h.bcset)) (d.stepWord i (12 + 8 * h.bcset)) g m v w) fun n =>
    Fl.bind (burnMaster p.hasComp w n.1 lo) fun x =>
    Fl.pure (n.2.1, n.2.2, x.1, x.2.1, x.2.2, elemHash q.2.2.1 x.2.2)) es
  { m := out.1.map fun x => x.1, v := out.1.map fun x => x.2.1, hi := out.1.map fun x => x.2.2.1
    lo := out.1.map fun x => x.2.2.2.1, w16 := out.1.map fun x => x.2.2.2.2.1
    fp := (out.1.map fun x => x.2.2.2.2.2).foldl (· + ·) 0 % 2 ^ 64, flags := out.2 }

/-- A gradient, master, compensation or moment that the chunk reads is lost (R396). -/
def Dev.chunkLost (d : Dev) (b c src : Nat) : Bool :=
  let p := d.part b
  let al := d.partAlgo b
  let e0 := chunkElems * c
  let n := p.chunkLen c
  let bad (a len : Nat) : Bool := !(d.lostIn a len).isEmpty
  bad (nth 0 p.master src + 4 * e0) (4 * n) || (al.usesM && bad (nth 0 p.m src + 4 * e0) (4 * n))
    || (al.usesV && bad (nth 0 p.v src + 4 * e0) (4 * n)) || (p.hasComp && bad (nth 0 p.comp src + 2 * e0) (2 * n))
    || (upTo n).any fun k => bad (d.elemPlace b (e0 + k)).1 4

/-- The logged arrays of a chunk in the order m, v, hi, lo, of those the part uses. -/
def Dev.chunkArrays (d : Dev) (b : Nat) (o : ChunkOut) : List (Nat × List Byte) :=
  let al := d.partAlgo b
  (if al.usesM then [(0x1000, wordBytes o.m)] else []) ++ (if al.usesV then [(0x41000, wordBytes o.v)] else [])
    ++ [(0x81000, wordBytes o.hi)] ++ (if (d.part b).hasComp then [(0xC1000, o.lo.flatMap (leBytes 2))] else [])

/-- New values in place, and the published weights (R392 step 3). -/
def Dev.applyChunk (d : Dev) (b c buf : Nat) (o : ChunkOut) : Dev :=
  let p := d.part b
  let al := d.partAlgo b
  let e0 := chunkElems * c
  let d := d.stackWrite (nth 0 p.master buf + 4 * e0) (wordBytes o.hi)
  let d := if al.usesM then d.stackWrite (nth 0 p.m buf + 4 * e0) (wordBytes o.m) else d
  let d := if al.usesV then d.stackWrite (nth 0 p.v buf + 4 * e0) (wordBytes o.v) else d
  let d := if p.hasComp then d.stackWrite (nth 0 p.comp buf + 2 * e0) (o.lo.flatMap (leBytes 2)) else d
  ((upTo o.w16.length).zip o.w16).foldl (fun d w => d.stackPut (d.elemPlace b (e0 + w.1)).2.1 2 w.2) d

/-- The mirror puts of a committed chunk: its arrays, then the mirror record (R398), whose FP_PART after the
last chunk is the run's own (DEDUCED, log 22). -/
def Dev.mirrorChunk (d : Dev) (b c buf seq u step : Nat) (o : ChunkOut) : Dev :=
  let p := d.part b
  let al := d.partAlgo b
  let e0 := chunkElems * c
  let e' := p.padded
  let arrays := (if al.usesM then [(p.mirror + 4 * e0, wordBytes o.m)] else [])
    ++ (if al.usesV then [(p.mirror + 4 * e' + 4 * e0, wordBytes o.v)] else [])
    ++ [(p.mirror + 8 * e' + 4 * e0, wordBytes o.hi)]
    ++ (if p.hasComp then [(p.mirror + 12 * e' + 2 * e0, o.lo.flatMap (leBytes 2))] else [])
  let dcrc := crc32c ((d.chunkArrays b o).flatMap Prod.snd)
  let acc := d.sb b 32 8
  let rec_ := (logRecord 2 buf seq u step c o.hi.length o.fp dcrc).take 48 ++ leBytes 8 acc ++ leBytes 8 (if c + 1 = p.chunks then acc else d.sb b 40 8)
  d.queuePuts b seq 0 (arrays ++ [(p.mirror + p.recordOff, rec_)])

/-- 0x7104: the run's flags. -/
def Dev.burnFlags (d : Dev) (b : Nat) (f : Flags) : Dev :=
  d.putB Ent.burnisherFlags b 1 (d.getB Ent.burnisherFlags b 1 ||| f.toByte)

/-- The next chunk of a part's run is committed (R392), or the run stops at a lost block (R396). -/
def Dev.commitChunk (d : Dev) (b : Nat) : Dev :=
  match (d.burner b).run with
  | none => d
  | some k =>
    let p := d.part b
    let c := d.sb b 24 4
    let act := d.sb b 4 1
    let held := d.get Ent.resilienceMode == 2 && !d.power.stackUp && !(d.burner b).toSend.isEmpty
    if d.asleep || k.skip || p.chunks ≤ c || held then d
    else if d.chunkLost b c act then (d.fault 0x0724 (Unit.billet b) c).enterState St.faulted 0x0724
    else
      let u := d.sb b 16 4
      let seq := d.sb b 8 8
      let buf := if k.freeze then 1 - act else act
      let o := d.chunkCompute b c act u
      let arrays := d.chunkArrays b o
      let dcrc := crc32c (arrays.flatMap Prod.snd)
      let slot := p.slot seq
      let d := arrays.foldl (fun d a => d.stackWrite (slot + a.1) a.2) d
      let d := d.stackWrite slot (logRecord 1 buf seq u k.step c o.hi.length o.fp dcrc)
      let d := d.applyChunk b c buf o
      let d := d.stackWrite slot (logRecord 2 buf seq u k.step c o.hi.length o.fp dcrc)
      let d := ((d.setSb b 24 4 (c + 1)).setSb b 32 8 ((d.sb b 32 8 + o.fp) % 2 ^ 64)).setSb b 8 8 (seq + 1)
      let d := (((d.burnFlags b o.flags).count (0x440 + 32 * b + 16) o.hi.length).count (0x440 + 32 * b + 17) 1).count
        (0x440 + 32 * b + 20) (ceilDiv o.hi.length 16)
      let d := if d.mirroring b then d.mirrorChunk b c buf seq u k.step o else d
      d.showBurner b

/-! ### Runs (R383, R384, R389, R395, R397) -/

/-- The part's START condition is met, and its tokens. -/
def Dev.partStartMet (d : Dev) (p : PartRec) : Bool :=
  fieldOf p.start 31 30 != 1 || (!d.frozen &&
    decide (fieldOf p.start 16 9 ≤ d.tokens (fieldOf p.start 29 26) (fieldOf p.start 25 17)))

def Dev.takePartStart (d : Dev) (p : PartRec) : Dev :=
  if fieldOf p.start 31 30 = 1 then
    let i := fieldOf p.start 29 26
    let k := fieldOf p.start 25 17
    d.modIsland i fun x => { x with tokens := sset 0 x.tokens k (sget 0 x.tokens k - fieldOf p.start 16 9) }
  else d

/-- Every round this device roots has closed for a step. -/
def Dev.rootsClosed (d : Dev) (step : Nat) : Bool :=
  d.coll.rounds.all fun x => !(d.nodeRec x.node).isRoot || decide (step < x.expected)

/-! ### What an adoption has read (R420) -/

/-- G(q) of R406. -/
def PartRec.gradOff (p : PartRec) (q : Nat) : Nat := p.recordOff + 256 + q * (256 + 4 * p.padded)

/-- Bytes of a part's mirror area that have been read; what is missing reads as zero. -/
def Dev.readArea (d : Dev) (b off len : Nat) : List Byte :=
  let mine := d.resil.reads.filter fun r => r.1 == b
  (upTo len).map fun k =>
    match mine.find? fun r => decide (r.2.1 ≤ off + k) && decide (off + k < r.2.1 + r.2.2.length) with
    | some r => nth 0#8 r.2.2 (off + k - r.2.1)
    | none => 0#8

/-- A gradient that was read goes into each run's GRAD. -/
def Dev.gradBack (d : Dev) (b which : Nat) : Dev :=
  if which = 0 then d
  else
    let p := d.part b
    let g := d.readArea b (p.gradOff (which - 1) + 256) (4 * p.elements)
    (upTo p.elements).foldl (fun d e => d.stackWrite (d.elemPlace b e).1 ((g.drop (4 * e)).take 4)) d

/-- A part's next run starts, if it may (R383). -/
def Dev.startRun (d : Dev) (b : Nat) : Dev :=
  match (d.burner b).run, (d.burner b).marked with
  | none, k :: rest =>
    let p := d.part b
    if d.asleep || !d.hasPart b || (k.needStart && !d.partStartMet p) || (k.needRounds && !d.rootsClosed k.step) then d
    else if !(d.burner b).puts.isEmpty || (d.burner b).remirroring != 0 then
      if (d.burner b).waited then d
      else ((d.modBurner b fun x => { x with waited := true }).fault 0x0727 (Unit.billet b) k.step).count (0x440 + 32 * b + 21) 1
    else
      let d := if k.needStart then d.takePartStart p else d
      let can := p.dual && d.sb b 5 1 == 0xFF
      let d := if k.freeze && !can then d.fault 0x0726 (Unit.billet b) k.step else d
      let k := { k with freeze := k.freeze && can }
      let d := d.gradBack b k.grad
      let block := d.read p.state 256
      let d := d.modBurner b fun x => { x with
        run := some k, marked := rest, waited := false, frozenBlock := if k.freeze then block else x.frozenBlock }
      let d := d.putB Ent.burnisherFlags b 1 0
      if k.skip then d
      else
        let d := (((d.setSb b 6 1 (1 + 4 * bitNat k.freeze)).setSb b 20 4 k.step).setSb b 24 4 0).setSb b 32 8 0
        d.showBurner b
  | _, _ => d

/-- DONE of a run (R384): held while the stack of its island is down. -/
def Dev.postDone (d : Dev) (b : Nat) : Dev :=
  let w := (d.part b).done
  if !bitOf w 31 then d
  else if d.power.stackUp then d.sendToken true (fieldOf w 30 27) (fieldOf w 26 18) (fieldOf w 17 10) none
  else d.modBurner b fun x => { x with heldDone := true }

/-- Held DONE posts are delivered when the stack leaves reset (R384). -/
def Dev.deliverDone (d : Dev) : Dev :=
  (upTo 8).foldl (fun d b =>
    if (d.burner b).heldDone then (d.modBurner b fun x => { x with heldDone := false }).postDone b else d) d

/-- A run is complete (R395): the part's fingerprint, its update count, the buffers of a FREEZE run, DONE. The
run that ended is returned. -/
def Dev.finishRun (d : Dev) (b : Nat) : Dev × Option BurnMark :=
  match (d.burner b).run with
  | none => (d, none)
  | some k =>
    let p := d.part b
    if !k.skip && d.sb b 24 4 < p.chunks then (d, none)
    else
      let d := d.modBurner b fun x => { x with run := none }
      if k.skip then (d.postDone b, some k)
      else
        let fp := d.sb b 32 8
        let d := (d.setSb b 40 8 fp).stackPut p.fpOut 8 fp
        let d := (d.setSb b 16 4 (d.sb b 16 4 + 1)).setSb b 6 1 (2 + 4 * bitNat k.freeze)
        let act := d.sb b 4 1
        let d := if k.freeze then (d.setSb b 5 1 act).setSb b 4 1 (1 - act) else d
        let f := d.getB Ent.burnisherFlags b 1
        let d := if f / 2 != 0 then d.fault 0x0723 (Unit.billet b) f else d
        ((d.showBurner b).postDone b, some k)

/-! ### Recovery scan (R394) -/

/-- The logged chunk of a slot as results. -/
def Dev.slotOut (d : Dev) (b seq n : Nat) : ChunkOut :=
  let p := d.part b
  let a := p.slot seq
  let ws (o : Nat) : List F32 := (upTo n).map fun k => BitVec.ofNat 32 (d.readNat (a + o + 4 * k) 4)
  let hi := ws 0x81000
  let lo := (upTo n).map fun k => if p.hasComp then d.readNat (a + 0xC1000 + 2 * k) 2 else 0
  { m := ws 0x1000, v := ws 0x41000, hi := hi, lo := lo
    w16 := (hi.zip lo).map fun x => workingWeight p.hasComp x.1 x.2, fp := 0, flags := Flags.none }

/-- One log record of the scan; false stops it. -/
def Dev.scanRecord (d : Dev) (b seq : Nat) : Dev × Bool :=
  let p := d.part b
  let a := p.slot seq
  let rec_ := d.read a 64
  let ok := leAt rec_ 0 4 == logMagic && leAt rec_ 44 4 == crc32c (rec_.take 44 ++ rec_.drop 48) && leAt rec_ 8 8 == seq
  let chunk := leAt rec_ 24 4
  if !ok || leAt rec_ 16 4 != d.sb b 16 4 || decide (chunk < d.sb b 24 4) then (d, true)
  else
    let n := leAt rec_ 28 4
    let fp := leAt rec_ 32 8
    let advance (d : Dev) : Dev := (d.setSb b 24 4 (chunk + 1)).setSb b 32 8 ((d.sb b 32 8 + fp) % 2 ^ 64)
    if leAt rec_ 4 1 = 1 then
      let o := d.slotOut b seq n
      if leAt rec_ 40 4 != crc32c ((d.chunkArrays b o).flatMap Prod.snd) || !(d.lostIn a 0x100000).isEmpty then
        ((d.fault 0x0722 (Unit.billet b) chunk).enterState St.faulted 0x0722, false)
      else
        let buf := leAt rec_ 5 1
        let d := d.applyChunk b chunk buf o
        let d := d.stackWrite a (logRecord 2 buf seq (leAt rec_ 16 4) (leAt rec_ 20 4) chunk n fp (leAt rec_ 40 4))
        let d := ((d.fault 0x0721 (Unit.billet b) chunk).bump Ent.burnisherState (16 * b + 12) 4 1).count (0x440 + 32 * b + 18) 1
        (advance d, true)
    else if leAt rec_ 4 1 = 2 then (advance d, true)
    else (d, true)

/-- The scan of a part, over its four slots in increasing SEQ. -/
def Dev.recoveryScan (d : Dev) (b : Nat) : Dev :=
  if !d.hasPart b then d
  else
    let p := d.part b
    let seqs := ((upTo 4).map fun k => d.readNat (p.log + k * 0x100000 + 8) 8)
    let sorted := seqs.mergeSort
    let d := (sorted.foldl (fun (st : Dev × Bool) s => if st.2 then st.1.scanRecord b s else st) (d, true)).1
    let run := d.sb b 6 1
    let d := if run % 4 = 1 && (d.burner b).run.isNone then
        d.modBurner b fun x => { x with run := some ⟨d.sb b 20 4, false, bitOf run 2, false, false, 0⟩ }
      else d
    d.showBurner b

/-- State blocks at Pattern load (R393): a valid one is kept. -/
def Dev.loadParts (d : Dev) : Dev :=
  (upTo 8).foldl (fun d b =>
    if !d.hasPart b then d
    else
      let p := d.part b
      let d := d.modBurner b fun x => { Burnisher.reset with frozenBlock := x.frozenBlock }
      if d.sb b 0 4 = sbMagic then d.showBurner b
      else
        let d := d.stackWrite p.state (leBytes 4 sbMagic ++ leBytes 1 0 ++ leBytes 1 0xFF ++ leBytes 2 0 ++ leBytes 8 0
          ++ leBytes 4 d.burnHead.updateBase ++ leBytes 236 0)
        let d := (upTo 4).foldl (fun d k => d.stackPut (p.log + k * 0x100000 + 4) 1 0) d
        d.showBurner b) d

/-- The whole queue of a device's Burnishers is empty (R229). -/
def Dev.burnersIdle (d : Dev) : Bool := d.burn.all fun b => b.2.run.isNone && b.2.marked.isEmpty

end Sys2Proof.Machine
end

