-- ==== Sys2Proof/Machine/Vote.lean ====
section
/-!
DEFINITION. The step-close vote, loss scaling and step records (*Collectives, deadlines and late
contributions*, R361–R368), with what a VOTE_DOWN starts: Burnisher runs (R383), freezes and witness rows
(R408, R411), the vote history (R419), and the flag capture of R42.
-/
namespace Sys2Proof.Machine
open Sys2Proof

/-! ### Messages (R361) -/

/-- One stage's block of a vote message. -/
structure VoteStage where
  fp : Nat
  sum : Nat
  fpSet : Bool
  sumSet : Bool
  disagree : Bool
  all : Nat
  any : Nat
deriving DecidableEq, Repr

/-- A vote message. -/
structure VoteMsg where
  sub : Nat
  mb8 : Nat
  step : Nat
  reported : Nat
  late : Nat
  voided : Nat
  overflow : Bool
  incomplete : Bool
  skip : Bool
  disagree : Bool
  scale : Nat
  stages : List VoteStage
deriving DecidableEq, Repr

def VoteMsg.flagByte (m : VoteMsg) : Nat :=
  bitNat m.overflow + 2 * bitNat m.incomplete + 4 * bitNat m.skip + 8 * bitNat m.disagree

def VoteStage.toBytes (mb : Nat) (s : VoteStage) : List Byte :=
  leBytes 8 s.fp ++ leBytes 8 s.sum ++ leBytes 1 (bitNat s.fpSet + 2 * bitNat s.sumSet + 4 * bitNat s.disagree)
    ++ leBytes 7 0 ++ leBytes mb s.all ++ leBytes mb s.any

def VoteMsg.head (m : VoteMsg) : List Byte :=
  leBytes 1 m.sub ++ leBytes 1 0 ++ leBytes 1 m.stages.length ++ leBytes 1 m.mb8 ++ leBytes 4 m.step ++ leBytes 4 m.reported
    ++ leBytes 4 m.late ++ leBytes 4 m.voided ++ leBytes 1 m.flagByte ++ leBytes 3 0 ++ leBytes 4 m.scale ++ leBytes 4 0

def VoteMsg.toBytes (m : VoteMsg) : List Byte := m.head ++ m.stages.flatMap (VoteStage.toBytes (8 * m.mb8))

def VoteStage.ofBytes (mb : Nat) (bs : List Byte) : VoteStage :=
  let f := leAt bs 16 1
  ⟨leAt bs 0 8, leAt bs 8 8, bitOf f 0, bitOf f 1, bitOf f 2, leAt bs 24 mb, leAt bs (24 + mb) mb⟩

def VoteMsg.ofBytes (bs : List Byte) : VoteMsg :=
  let mb := 8 * leAt bs 3 1
  let f := leAt bs 20 1
  { sub := leAt bs 0 1, mb8 := leAt bs 3 1, step := leAt bs 4 4, reported := leAt bs 8 4, late := leAt bs 12 4,
    voided := leAt bs 16 4, overflow := bitOf f 0, incomplete := bitOf f 1, skip := bitOf f 2, disagree := bitOf f 3,
    scale := leAt bs 24 4
    stages := (upTo (leAt bs 2 1)).map fun s => VoteStage.ofBytes mb ((bs.drop (32 + (24 + 2 * mb) * s)).take (24 + 2 * mb)) }

/-- Combination of one stage (R363). -/
def VoteStage.join (a b : VoteStage) : VoteStage :=
  let differ := a.fpSet && b.fpSet && a.fp != b.fp
  { fp := if a.fpSet && b.fpSet then min a.fp b.fp else if a.fpSet then a.fp else b.fp
    sum := (a.sum + b.sum) % 2 ^ 64
    fpSet := a.fpSet || b.fpSet, sumSet := a.sumSet || b.sumSet
    disagree := a.disagree || b.disagree || differ, all := a.all &&& b.all, any := a.any ||| b.any }

/-- Combination of two entries (R363). -/
def VoteMsg.join (a b : VoteMsg) : VoteMsg :=
  let st := (a.stages.zip b.stages).map fun p => p.1.join p.2
  { a with reported := a.reported + b.reported, late := a.late + b.late, voided := a.voided + b.voided,
           overflow := a.overflow || b.overflow, incomplete := a.incomplete || b.incomplete,
           disagree := a.disagree || b.disagree || st.any VoteStage.disagree, stages := st }

/-! ### The own entry (R362) and the flag capture (R42) -/

/-- The vote overflow bit of a step's flag sets. -/
def Dev.flagOverflow (d : Dev) (set : Nat) : Bool := (upTo 188).any fun u => d.flagByte set u / 2 != 0

/-- The step's sets are copied to STICKY_LAST and cleared. -/
def Dev.captureFlags (d : Dev) (n : Nat) : Dev :=
  let set := n % 4
  let d := d.put Ent.stickyLast (d.flagBlob set)
  { d with
    flags := { sets := sclear d.flags.sets (set * 188) (set * 188 + 188) }
    contract := { d.contract with captured := some (n % 256) } }

/-- The fingerprint that passed its check for a step. -/
def Dev.fpFor (d : Dev) (n : Nat) : Option Nat :=
  let s := d.fpSet (n % 4)
  if s.tag = n % 256 && s.passed then some (nth 0 s.refs 0) else none

/-- Rounds this device roots. -/
def Dev.rootRounds (d : Dev) : List RoundState := d.coll.rounds.filter fun x => (d.nodeRec x.node).isRoot

def Dev.ownVote (d : Dev) (n : Nat) : VoteMsg :=
  let h := d.collHead
  let mb := h.maskBytes
  let ones := 2 ^ (8 * mb) - 1
  let roots := d.rootRounds
  let own : VoteStage :=
    { fp := (d.fpFor n).getD 0, sum := d.get Ent.shardFp, fpSet := (d.fpFor n).isSome, sumSet := true, disagree := false
      all := roots.foldl (fun m x => m &&& (x.maskOf n).on) ones, any := roots.foldl (fun m x => m ||| (x.maskOf n).on) 0 }
  { sub := 0x20, mb8 := mb / 8, step := n, reported := 1, late := bitNat d.lateMode, voided := bitNat d.withheld,
    overflow := d.flagOverflow (n % 4) || d.coll.overflow, incomplete := false, skip := false, disagree := false, scale := 0
    stages := (upTo h.stages).map fun s => if s = h.stage then own else ⟨0, 0, false, false, false, ones, 0⟩ }

/-! ### Loss scaling (R366) -/

/-- The scale and clean count after a vote. -/
def nextScale (overflow incomplete : Bool) (ls clean lo hi growth : Nat) : Nat × Nat :=
  let half := if ls ≤ 2 ^ 23 then ls / 2 else ls - 2 ^ 23
  let twice := if ls < 2 ^ 23 then 2 * ls else ls + 2 ^ 23
  if overflow then (max half lo, 0)
  else if incomplete then (ls, clean)
  else if clean + 1 = growth then (min twice hi, 0)
  else (ls, clean + 1)

def Dev.scaleNext (d : Dev) (m : VoteMsg) : Nat × Nat :=
  nextScale m.overflow m.incomplete (d.get Ent.lossScale) (d.get Ent.lsCleanSteps) (d.get Ent.lsMin) (d.get Ent.lsMax)
    (d.get Ent.lsGrowthInterval)

/-! ### VOTE_DOWN (R364, R368, R408, R411, R419) -/

/-- The step record. -/
def Dev.stepRecord (d : Dev) (m : VoteMsg) (scale : Nat) : Dev :=
  let h := d.collHead
  let mb := h.maskBytes
  let roots := d.rootRounds
  let size := 64 + 2 * mb * roots.length
  let a := h.journalBase + m.step % h.journalRecs * size
  let fp := d.fpFor m.step
  let shard := match d.coll.upsSent.find? fun u => u.step == m.step with
    | some u => u.shard
    | none => d.get Ent.shardFp
  d.stackWrite a (leBytes 4 m.step ++ leBytes 4 scale ++ leBytes 4 (d.get Ent.lossScale) ++ leBytes 4 (d.get Ent.lsCleanSteps)
    ++ leBytes 1 m.flagByte ++ leBytes 7 0 ++ leBytes 8 (fp.getD 0) ++ leBytes 8 shard ++ leBytes 24 0
    ++ roots.flatMap fun x => leBytes mb (x.maskOf m.step).on ++ leBytes mb (x.maskOf m.step).fold)

/-- u, u_prev, v and the flags of v (R419). -/
def Dev.voteHistoryAdd (d : Dev) (m : VoteMsg) : Dev :=
  let old := d.get Ent.voteHistory
  let u := getBytes old 0 4
  let d := if m.skip then d else (d.putB Ent.voteHistory 4 4 u).putB Ent.voteHistory 0 4 m.step
  d.putB Ent.voteHistory 8 8 (m.step + m.flagByte <<< 32)

/-- Section 0x0009 (R431). -/
def Dev.lastStage (d : Dev) : Bool := bitOf (leAt (d.section 0x0009) 1 1) 0
def Dev.lossRows (d : Dev) : Nat := leAt (d.section 0x0009) 2 2
def Dev.lossArea (d : Dev) : Nat := leAt (d.section 0x0009) 8 8

/-- The device withheld its contribution for a step, as its VOTE_UP says; before that, as it stands. -/
def Dev.withheldFor (d : Dev) (step : Nat) : Bool :=
  match d.coll.upsSent.find? fun u => u.step == step with
  | some u => u.withheld
  | none => d.withheld

/-- A due snapshot step (R408): freeze marks or a missed generation; true marks the runs. -/
def Dev.freezeMark (d : Dev) (m : VoteMsg) : Dev × Bool :=
  let n := d.get Ent.snapInterval
  let due := d.resil.due || (n != 0 && m.step % n == 0)
  if n = 0 || !due then (d, false)
  else if m.skip then ({ d with resil := { d.resil with due := true } }, false)
  else
    let d := { d with resil := { d.resil with due := false } }
    let ok := d.resil.drain.isNone && (upTo 8).all fun b => !d.hasPart b || d.sb b 5 1 == 0xFF
    if !ok then (d.fault 0x0726 Unit.device m.step, false)
    else
      let rows := if d.lastStage then d.read d.lossArea (4 * d.lossRows) else []
      let d := { d with resil := { d.resil with
        witnessRows := rows, witnessValid := d.lastStage && !d.withheldFor m.step
        drain := some ⟨m.step / n % 2, m.step, 0, 0, d.burnHead.partMask, d.scaleOf m.step, sget 0 d.resil.cleanAt m.step, false, false⟩ } }
      ((d.putB Ent.snapStatus 0 4 m.step).putB Ent.snapStatus 17 1 (d.getB Ent.snapStatus 17 1 / 2 * 2), true)

/-- The runs that follow a VOTE_DOWN (R383). -/
def Dev.markRuns (d : Dev) (m : VoteMsg) (freeze : Bool) : Dev :=
  (upTo 8).foldl (fun d b =>
    if d.hasPart b then d.modBurner b fun x => { x with marked := x.marked ++ [⟨m.step, m.skip, freeze, true, false, 0⟩] } else d) d

/-- VOTE_UPs are kept until their VOTE_DOWN has been applied (R370). -/
def Dev.dropVotes (d : Dev) (step : Nat) : Dev :=
  { d with coll := { d.coll with upsSent := d.coll.upsSent.filter fun u => decide (step < u.step) } }

/-- The first VOTE_DOWN of the current vote step is forwarded and applied (R364). The messages of the vote are CONTROL
flits (R361), which R330 has in class 3; R306's table has the vote in class 2, and the model follows R330 (DESIGN
CHOICE, log 110). -/
def Dev.applyDown (d : Dev) (bs : List Byte) : Dev :=
  let m := VoteMsg.ofBytes bs
  if !d.hasColl || m.step != d.coll.downStep then d
  else if d.frozen then { d with coll := { d.coll with heldDown := some bs } }
  else
    let h := d.collHead
    let d := h.voteChildren.foldl (fun d c => d.sendControl c bs) d
    let old := d.scaleOf m.step
    let own := d.scaleNext m
    let d := if own.1 != m.scale then d.fault 0x0708 Unit.device m.step else d
    let d := (d.put Ent.lossScale m.scale).put Ent.lsCleanSteps own.2
    let d := { d with coll := { d.coll with
      scales := sset 0 (sclear d.coll.scales 0 (m.step - 4)) (m.step + 1 + h.scaleLag) m.scale
      downStep := m.step + 1, heldDown := none
      sent := d.coll.sent.filter fun s => decide (m.step ≤ s.step) } }
    let d := match d.coll.upsSent.find? fun u => u.step == m.step with
      | some u => d.hist 5 ((d.measured - u.at_) / 65536)
      | none => d
    let d := (d.stepRecord m old).put Ent.voteLast (leNat (bs.take 32))
    let d := d.voteHistoryAdd m
    let f := d.freezeMark m
    (f.1.markRuns m f.2).dropVotes m.step

/-! ### VOTE_UP (R363) -/

/-- The root's checks, skip and scale, and its VOTE_DOWN. -/
def Dev.rootVote (d : Dev) (m : VoteMsg) : Dev :=
  let stages := m.stages.map fun s => { s with disagree := s.disagree || (s.fpSet && s.sumSet && s.fp != s.sum) }
  let wrong := m.stages.any fun s => s.fpSet && s.sumSet && s.fp != s.sum
  let d := if wrong then d.fault 0x0712 Unit.device m.step else d
  let d := if m.incomplete then d.fault 0x0705 Unit.device m.step else d
  let down := { m with
    sub := 0x21, skip := m.overflow || m.incomplete, disagree := m.disagree || stages.any VoteStage.disagree, stages := stages
    scale := (d.scaleNext m).1 }
  d.applyDown down.toBytes

/-- The device sends its VOTE_UP, in class 3 as VOTE_DOWN (log 110), once its rounds have closed and its children's
have arrived, or the deadline has passed; not while it is held (R369). -/
def Dev.tryVote (d : Dev) : Dev :=
  let n := d.coll.voteStep
  let h := d.collHead
  if !d.hasColl || !d.inRun || d.frozen || decide (d.step < n) then d
  else
    let mine := d.coll.ups.filter fun u => (VoteMsg.ofBytes u.2).step == n
    let all := h.voteChildren.all fun c => mine.any fun u => u.1 == c
    if !d.rootRounds.all (fun x => decide (n < x.expected)) || !(all || d.coll.deadlineSeen) then d
    else
      let m := mine.foldl (fun m u => m.join (VoteMsg.ofBytes u.2)) (d.ownVote n)
      let m := { m with incomplete := m.incomplete || !all }
      let d := d.captureFlags n
      let d := { d with coll := { d.coll with
        voteStep := n + 1, ups := d.coll.ups.filter fun u => decide (n < (VoteMsg.ofBytes u.2).step)
        upsSent := ⟨n, m.toBytes, d.get Ent.shardFp, d.withheld, d.measured⟩ :: d.coll.upsSent, overflow := false, deadlineSeen := false } }
      if h.voteParent = 0xFFFF then d.rootVote m else d.sendControl h.voteParent m.toBytes

/-- A child's VOTE_UP: late, or for another step, it is discarded with 0x0713; so is one of a device that is no child
(DESIGN CHOICE, log 119). -/
def Dev.voteUp (d : Dev) (src : Nat) (bs : List Byte) : Dev :=
  if !d.hasColl then d
  else
    let m := VoteMsg.ofBytes bs
    if m.step != d.coll.voteStep || !d.collHead.voteChildren.contains src then d.fault 0x0713 Unit.device m.step
    else
      ({ d with coll := { d.coll with ups := (src, bs) :: d.coll.ups.filter fun u =>
        !(u.1 == src && (VoteMsg.ofBytes u.2).step == m.step) } }).tryVote

/-- The vote deadline beat is observed. -/
def Dev.voteDeadline (d : Dev) : Dev :=
  if d.hasColl && d.inRun && !d.frozen
      && decide (d.startBeatOf d.coll.voteStep + d.collHead.voteDeadline ≤ d.get Ent.logicalBeat) then
    ({ d with coll := { d.coll with deadlineSeen := true } }).tryVote
  else d

/-- The collective unit at the start of a run, or where an adoption joins. -/
def Dev.openColl (d : Dev) (step : Nat) : Dev :=
  let lag := d.collHead.scaleLag
  let scales := (upTo (lag + 2)).foldl (fun m k => sset 0 m (step + k) (d.get Ent.lossScale)) []
  ({ d with coll := { CollState.reset with
      voteStep := step, downStep := step, scales := scales, lastFpFail := d.coll.lastFpFail } }).openRounds step

/-! ### Unloading (R534, R429) -/

/-- Entries of one retention class back to their defaults, but for those kept (R489). -/
def Dev.resetClass (d : Dev) (cls : Nat) (keep : List Nat) : Dev :=
  let left := d.tack.store.filter fun e => entRetention e.1 != cls || keep.contains e.1
  { d with tack := { d.tack with store := left } }

/-- The Loom map, stream tables, multicast table and release words are empty (R318). -/
def Dev.clearMaps (d : Dev) : Dev :=
  let d := { d with weave := { d.weave with loom := [], combines := [] } }
  (d.zeroRange streamBase 0xA00).zeroRange mcastBase 0x80000

/-- The Pattern is removed: panels reset, Shuttle queues discarded, maps cleared. A chunk that is PREPARED is
committed in the same command that prepared it. -/
def Dev.unload (d : Dev) : Dev :=
  let d := (upTo 128).foldl (fun d p => d.panelReset p) d
  let d := { d with
    shuttles := [], burn := [], pat := Pattern.none, coll := { CollState.reset with lastFpFail := d.coll.lastFpFail }
    contract := { ContractState.reset with transit := d.contract.transit, inPause := d.contract.inPause }
    resil := { ResilState.reset with hostOut := d.resil.hostOut, witnessRows := d.resil.witnessRows, witnessValid := d.resil.witnessValid }
    wide := { d.wide with claims := [] }
    power := { d.power with digest := 0 }
    weave := { d.weave with pends := [], sends := [], waits := [], outHeld := [] } }
  ((d.clearMaps).put Ent.patternDigest 0).put Ent.streamState 0

/-! ### After every command -/

/-- A disabled port holds its transmitter idle (R299, R415). -/
def Dev.idlePorts (d : Dev) : Dev :=
  (upTo 8).foldl (fun d i =>
    if bitOf (d.get Ent.portEnable) i || d.portState i == PortSt.disabled then d
    else (d.freshLink i false).setPortState i PortSt.disabled) d

/-- The moments of BOOT_TIMES, in ms from the start, and the last step of BOOT_STATUS, are marked as they come
(R552, R579). -/
def Dev.bootMark (d : Dev) (k : Nat) (reached : Bool) : Dev :=
  if reached && d.getB Ent.bootTimes (4 * k) 4 == 0 then
    d.putB Ent.bootTimes (4 * k) 4 ((d.time.clock - d.boot.startedAt) / (1000000 * 65536))
  else d

def Dev.bootStep (d : Dev) (k : Nat) (done : Bool) : Dev :=
  if done && decide (d.getB Ent.bootStatus 0 1 < k) then d.putB Ent.bootStatus 0 1 k else d

def Dev.domainsOn (d : Dev) (from_ to_ : Nat) : Bool := (upTo (to_ + 1 - from_)).all fun k => d.getB Ent.domainStatus (from_ + k) 1 == 1

/-- Every memory stack is ready or failed; every enabled port is UP or FAILED; time is locked (R553). -/
def Dev.stacksSettled (d : Dev) : Bool := (upTo 24).all fun i => d.stackStatus i == 1 || d.stackStatus i == 3
def Dev.portsSettled (d : Dev) : Bool :=
  (upTo 8).all fun i => !bitOf (d.get Ent.portEnable) i || d.portState i == PortSt.up || d.portState i == PortSt.failed
def Dev.timeLocked (d : Dev) : Bool := if d.time.root == some d.deviceId then d.time.rootLocked else d.time.inLock == 8

def Dev.bootMarks (d : Dev) : Dev :=
  if d.devState != St.configured then d
  else
    let d := (((d.bootMark 3 d.power.stackUp).bootMark 4 d.stacksSettled).bootMark 5 d.portsSettled).bootMark 6 d.timeLocked
    (((d.bootStep 5 (d.domainsOn 64 67)).bootStep 6 (d.domainsOn 56 63 && d.domainsOn 68 75)).bootStep 7 d.power.stackUp).bootStep 8 d.timeLocked

/-- A pending STOW, RESUME or REINSTATE is over once the device has left STOWED, or CONFIGURED (R533). -/
def Dev.commandOver (d : Dev) : Dev :=
  let w := d.getB Ent.stateCmdStatus 0 2
  if (w = 0x107 || w = 0x108) && d.devState != St.stowed || w = 0x105 && d.devState != St.configured then
    d.put Ent.stateCmdStatus (w + 0x100)
  else d

/-- A device that has newly withheld voids its leaves and tells its replica (R355); rounds that are complete
close, held votes are applied, and a vote that is due goes out. A retired device has no Pattern (R429). -/
def Dev.settle (d : Dev) : Dev :=
  let d := d.noteFreeze.idlePorts.bootMarks.commandOver
  let d := if d.devState = St.retired && d.pat.loaded then d.unload else d
  if !d.hasColl then d
  else
    let d :=
      if d.withheld && !d.coll.ownVoid && !d.frozen && d.inState [St.running, St.held, St.braced, St.stowed, St.adopting] then
        ({ d with coll := { d.coll with quietVoid := false } }).sendVoids (!d.coll.quietVoid)
      else d
    if d.frozen then d
    else
      let d := d.coll.rounds.foldl (fun d x => d.tryClose x.node x.round) d.flushReduce
      let d := match d.coll.heldDown with
        | some bs => d.applyDown bs
        | none => d
      d.tryVote

/-- A command's effect on the device: nothing happens while VSTBY is down (R613). -/
def Dev.powered (f : Dev → Dev) (d : Dev) : Dev := if d.boot.vstby then (f d).settle else d

/-- A command whose effect is a change of the device and what follows from it: it always completes. -/
def act (f : Dev → Dev) (s : State) : Host.Outcome State Fault Refusal := lift (Dev.powered f) s

end Sys2Proof.Machine
end

