-- ==== Sys2Proof/Machine/Resilience.lean ====
section
/-!
DEFINITION. Mirrors, snapshots, adoption and restore (*Snapshots, mirrors and hot spares*, R402–R431), with the
commands of the Burnishers, of the vote and of section 0x000B's control messages.
-/
namespace Sys2Proof.Machine
open Sys2Proof

/-- Units of 2⁻¹⁶ ns in one microsecond. -/
def clockUs : Nat := 1000 * 65536

/-- The parts the device holds. -/
def Dev.parts (d : Dev) : List Nat := (upTo 8).filter d.hasPart

/-! ### The buddy handshake (R404, R405) -/

/-- MIRROR_HELLO to the buddy. -/
def Dev.sendHello (d : Dev) : Dev :=
  let h := d.collHead
  let d := d.sendControl (d.get Ent.buddyId) (leBytes 1 0x30 ++ leBytes 1 0 ++ leBytes 2 d.deviceId
    ++ leBytes 1 (d.get Ent.powerZone) ++ leBytes 1 h.stage ++ leBytes 2 h.leaf ++ List.replicate 232 0#8)
  { d with resil := { d.resil with helloAt := some d.time.clock, helloOk := false } }

/-- STATUS of a HELLO_ACK, checked in the order of R405. -/
def Dev.helloStatus (d : Dev) (zone stage leaf : Nat) : Nat :=
  if zone = d.get Ent.powerZone then 1
  else if !d.pat.loaded then 4
  else if stage != d.collHead.stage then 2
  else if leaf = d.collHead.leaf then 3
  else 0

/-- A MIRROR_HELLO is answered. -/
def Dev.mirrorHello (d : Dev) (sender zone stage leaf : Nat) : Dev :=
  d.sendControl sender (leBytes 1 0x31 ++ leBytes 1 (d.helloStatus zone stage leaf) ++ leBytes 2 d.deviceId
    ++ List.replicate 236 0#8)

/-- The handshake failed: every part is marked broken. -/
def Dev.helloFailed (d : Dev) (detail : Nat) : Dev :=
  let d := { d with resil := { d.resil with helloAt := none, helloOk := false } }
  d.parts.foldl (fun d b => (d.breakMirror b).showMirror b) (d.fault 0x0732 Unit.device detail)

/-- A HELLO_ACK arrives. -/
def Dev.helloAck (d : Dev) (status : Nat) : Dev :=
  if d.resil.helloAt.isNone then d
  else if status != 0 then d.helloFailed status
  else
    let d := { d with resil := { d.resil with helloAt := none, helloOk := true } }
    d.parts.foldl (fun d b => d.remirrorGo b) d

/-- No answer within E2E_TIMEOUT_US. -/
def Dev.helloTimeout (d : Dev) : Dev :=
  match d.resil.helloAt with
  | none => d
  | some t => if t + d.get Ent.e2eTimeoutUs * clockUs ≤ d.time.clock then d.helloFailed 0xFF else d

/-! ### Snapshots (R408–R412) -/

/-- The size of the witness rows in an image. -/
def rowsSize (rows : Nat) : Nat := ceilDiv (4 * rows) 256 * 256

/-- Offset of part b's region in an image whose header names these parts. -/
def Dev.regionOff (d : Dev) (mask rows b : Nat) : Nat :=
  256 + rowsSize rows + (((upTo b).filter fun k => bitOf mask k).map fun k => 256 + (d.part k).recordOff).foldl (· + ·) 0

/-- m, v, hi and lo of a buffer at the offsets of R398, padded to 256 bytes; arrays not used hold zero. -/
def Dev.arrayImage (d : Dev) (b buf : Nat) : List Byte :=
  let p := d.part b
  let al := d.partAlgo b
  let e := p.elements
  let gap (n : Nat) (bs : List Byte) : List Byte := bs ++ List.replicate (n - bs.length) 0#8
  let body := gap (4 * p.padded) (if al.usesM then d.read (nth 0 p.m buf) (4 * e) else [])
    ++ gap (4 * p.padded) (if al.usesV then d.read (nth 0 p.v buf) (4 * e) else [])
    ++ gap (4 * p.padded) (d.read (nth 0 p.master buf) (4 * e))
    ++ gap (2 * p.padded) (if p.hasComp then d.read (nth 0 p.comp buf) (2 * e) else [])
  gap p.recordOff body

/-- CRC-32C of a part's arrays: their 14 E′ bytes (DESIGN CHOICE, log 23). -/
def partCrc (p : PartRec) (image : List Byte) : Nat := crc32c (image.take (14 * p.padded))

/-- The buffer that holds the state which entered the snapshot step. -/
def Dev.enteredBuf (d : Dev) (x : Drain) (b : Nat) : Nat := if bitOf x.ready b then d.sb b 5 1 else d.sb b 4 1
def Dev.enteredFp (d : Dev) (x : Drain) (b : Nat) : Nat :=
  if bitOf x.ready b then leAt (d.burner b).frozenBlock 40 8 else d.sb b 40 8

/-- The image header (R410). -/
def Dev.snapHeader (d : Dev) (x : Drain) (complete : Nat) : List Byte :=
  let rows := if d.lastStage then d.lossRows else 0
  let present (b : Nat) : Bool := bitOf x.parts b
  leBytes 4 0x50414E53 ++ leBytes 2 d.deviceId ++ leBytes 1 x.parts ++ leBytes 1 (bitNat d.resil.witnessValid)
    ++ leBytes 4 x.step ++ leBytes 4 complete ++ leBytes 4 x.scale ++ leBytes 4 x.clean ++ leBytes 2 rows ++ leBytes 6 0
    ++ (upTo 8).flatMap (fun b => leBytes 4 (if present b then partCrc (d.part b) (d.arrayImage b (d.enteredBuf x b)) else 0))
    ++ (upTo 8).flatMap (fun b => leBytes 8 (if present b then d.enteredFp x b else 0)) ++ leBytes 128 0

/-- One write of a drain: a class-0 put from Billet b, or a PCIe memory write (R409). -/
def Dev.drainPut (d : Dev) (x : Drain) (b off : Nat) (bs : List Byte) : Dev :=
  let a := d.get Ent.snapBase + x.gen * d.get Ent.snapBytes + off
  if bs.isEmpty then d
  else if d.get Ent.snapTarget = 0 then d.queuePuts b 0 1 [(a, bs)]
  else d.hostWrite a bs

def Dev.setDrain (d : Dev) (x : Option Drain) : Dev := { d with resil := { d.resil with drain := x } }

/-- FROZEN of the drained parts returns to 0xFF (R409 step 4). -/
def Dev.releaseFrozen (d : Dev) (x : Drain) : Dev :=
  (upTo 8).foldl (fun d b => if bitOf x.ready b then (d.setSb b 5 1 0xFF).showBurner b else d) d

/-- A drain write ends in a state other than OK. -/
def Dev.drainFail (d : Dev) (unit detail : Nat) : Dev :=
  match d.resil.drain with
  | none => d
  | some x =>
    let d := (upTo 8).foldl (fun d b => d.modBurner b fun y => { y with toSend := y.toSend.filter fun p => p.kind != 1 }) d
    (((d.fault 0x0737 unit detail).setDrain none).releaseFrozen x).putB Ent.snapStatus 16 1 2

/-- The header with COMPLETE = 0 and the witness rows, before any part. -/
def Dev.drainHead (d : Dev) (x : Drain) (b : Nat) : Dev :=
  let rows := d.resil.witnessRows
  let d := d.drainPut x b 0 (d.snapHeader x 0)
  let d := d.drainPut x b 256 (rows ++ List.replicate (rowsSize (rows.length / 4) - rows.length) 0#8)
  ((d.putB Ent.snapStatus (8 + 4 * x.gen) 4 x.step).putB Ent.snapStatus 16 1 1).setDrain (some { x with headed := true })

/-- Ready parts are written in Billet order. -/
def Dev.drainGo (d : Dev) : Dev :=
  (upTo 8).foldl (fun d b =>
    match d.resil.drain with
    | none => d
    | some x =>
      let before := (upTo b).all fun k => !bitOf x.parts k || bitOf x.issued k
      if !bitOf x.parts b || bitOf x.issued b || !bitOf x.ready b || !before then d
      else
        let d := if x.headed then d else d.drainHead x b
        let off := d.regionOff x.parts (if d.lastStage then d.lossRows else 0) b
        let d := d.drainPut x b off ((d.burner b).frozenBlock ++ d.arrayImage b (d.sb b 5 1))
        match d.resil.drain with
        | none => d
        | some y => d.setDrain (some { y with issued := setBit y.issued b true })) d

/-- The FREEZE run of a part has completed: its drain starts. -/
def Dev.drainReady (d : Dev) (b : Nat) : Dev :=
  match d.resil.drain with
  | none => (d.setSb b 5 1 0xFF).showBurner b
  | some x =>
    let x := { x with ready := setBit x.ready b true }
    let d := d.setDrain (some x)
    let d := if x.parts &&& x.ready = x.parts then d.putB Ent.snapStatus 17 1 (setBit (d.getB Ent.snapStatus 17 1) 0 true) else d
    d.drainGo

/-- What SNAP_STATUS keeps of the freeze of a part. -/
def Dev.freezeStarted (d : Dev) (b : Nat) : Dev :=
  (d.putB Ent.snapStatus 20 4 (d.sb b 16 4)).putB Ent.snapStatus (32 + 8 * b) 8 (d.sb b 40 8)

/-- A put of the drain is outstanding. -/
def Dev.drainOpen (d : Dev) : Bool :=
  d.weave.pends.any (fun p => match p.purpose with | .snapshot _ => true | _ => false)
    || (upTo 8).any fun b => (d.burner b).toSend.any fun p => p.kind == 1

/-- The generation is complete: the frozen buffers are released (R409 step 4). -/
def Dev.endDrain (d : Dev) (x : Drain) : Dev :=
  (((d.releaseFrozen x).setDrain none).putB Ent.snapStatus 4 4 x.step).putB Ent.snapStatus 16 1 0

/-- Every write of the drain is acknowledged (ok), or a PCIe write failed. A device without parts drains its header and
witness rows alone. The header with COMPLETE = 1 is itself acknowledged before step 4. -/
def Dev.drainComplete (d : Dev) (ok : Bool) : Dev :=
  match d.resil.drain with
  | none => d
  | some x =>
    if !ok then d.drainFail (if d.get Ent.snapTarget = 1 then Unit.selvage 0 else Unit.device) x.step
    else
      if d.drainOpen || x.issued &&& x.parts != x.parts then d
      else if !x.headed then d.drainHead x 0
      else if x.closing then d.endDrain x
      else
        let d := d.drainPut x ((upTo 8).find? (fun b => bitOf x.parts b) |>.getD 0) 0 (d.snapHeader x 1)
        if d.get Ent.snapTarget = 0 then d.setDrain (some { x with closing := true }) else d.endDrain x

/-- A put of a drain completes; the last header's ends the drain. -/
def Dev.snapshotCompleted (d : Dev) (b status : Nat) : Dev :=
  if status != 0 then d.drainFail (Unit.billet b) status
  else
    let d := d.pump b
    match d.resil.drain with
    | some x => if x.closing && !d.drainOpen then d.endDrain x else d
    | none => d

/-! ### Votes between devices (R356, R370, R419) -/

/-- VOTE_QUERY is answered from VOTE_HISTORY. -/
def Dev.voteQuery (d : Dev) (src : Nat) : Dev :=
  let v := d.get Ent.voteHistory
  d.sendControl src (leBytes 1 0x33 ++ leBytes 3 0 ++ leBytes 13 (getBytes v 0 13) ++ List.replicate 223 0#8)

/-- REPLICA_VOID for a step: the device withholds, without telling its replica again (R356). -/
def Dev.replicaVoid (d : Dev) (step : Nat) : Dev :=
  let d := d.bump Ent.lateCounts 24 8 1
  if !d.hasColl || step != d.step || !d.inState [St.running, St.held, St.braced] then d
  else
    let d := d.fault 0x0709 Unit.device step
    let quiet := d.coll.quietVoid || !d.withheld
    ({ d with coll := { d.coll with quietVoid := quiet } }).withhold

/-- REDUCE_REPLAY of a step from an adopting parent: kept rounds, and the VOTE_UP of a step not yet voted
(R370, R407). -/
def Dev.reduceReplay (d : Dev) (src step : Nat) : Dev :=
  if !d.hasColl then d
  else
    let d := d.replayRounds src step
    match d.coll.upsSent.find? fun u => u.step == step with
    | some u => if d.collHead.voteParent = src then d.sendControl src u.bytes else d
    | none => d

/-! ### Adoption (R416–R422) -/

/-- ADOPT_STATUS phase (R432). -/
def Dev.adoptPhase (d : Dev) : Nat := d.getB Ent.adoptStatus 0 1
def Dev.setPhase (d : Dev) (p : Nat) : Dev := d.putB Ent.adoptStatus 0 1 p

/-- Every required port is UP and matched (R331). -/
def Dev.portsReady (d : Dev) : Bool := (upTo 8).all fun i => !d.requiredPort i || (d.portUp i && d.matched i)

/-- The ports are ready: phase RESTORE, VOTE_QUERY. -/
def Dev.adoptPorts (d : Dev) : Dev :=
  if d.devState != St.adopting || d.adoptPhase != 2 || !d.portsReady then d
  else
    let d := d.setPhase 3
    let h := d.collHead
    let to_ := if h.voteParent = 0xFFFF then h.voteChildren.head? else some h.voteParent
    match to_ with
    | some p => d.sendControl p (leBytes 1 0x32 ++ List.replicate 239 0#8)
    | none => d

/-- A range cut at 16 MiB boundaries: offset and length. -/
def cutRange : Nat → Nat → Nat → Nat → List (Nat × Nat)
  | 0, _, _, _ => []
  | k + 1, base, off, len =>
    if len = 0 then []
    else
      let n := min len (0x1000000 - (base + off) % 0x1000000)
      (off, n) :: cutRange k base (off + n) (len - n)

/-- Reads of a part's mirror area leave while fewer than 64 are outstanding. -/
def Dev.restorePump : Nat → Dev → Dev
  | 0, d => d
  | k + 1, d =>
    match d.resil.toRead with
    | [] => d
    | (b, off, len) :: rest =>
      if 64 ≤ d.burnOut b then d
      else
        let d := { d with resil := { d.resil with toRead := rest } }
        let t := d.translate (16 + b) ((d.part b).mirror + off) .read false .none
        match t.2 with
        | .ok (.device id a _) =>
          Dev.restorePump k (t.1.issue FlitType.getReq 0 id a len 0 0 0 [] (16 + b) (t.1.freeNum (16 + b) 1024) (.restore b off))
        | _ => Dev.restorePump k { t.1 with resil := { t.1.resil with readFailed := b :: t.1.resil.readFailed } }

/-- VOTE_REPLY: the recovery scan, then the reads of each part's mirror area. -/
def Dev.voteReply (d : Dev) (u uPrev v : Nat) : Dev :=
  if d.devState != St.adopting || d.adoptPhase != 3 || d.resil.voted.isSome then d
  else
    let d := d.parts.foldl (fun d b => d.recoveryScan b) d
    let todo := d.parts.flatMap fun b =>
      let p := d.part b
      (cutRange (p.padded + 8) p.mirror 0 (p.recordOff + 768 + 8 * p.padded)).map fun r => (b, r.1, r.2)
    let d := { d with resil := { d.resil with voted := some (u, uPrev, v), reads := [], readFailed := [], toRead := todo } }
    (d.putB Ent.adoptStatus 4 4 u).restorePump (todo.length)

/-- A read of a mirror area ends. -/
def Dev.restoreCompleted (d : Dev) (b off status : Nat) (bs : List Byte) : Dev :=
  let d := if status = 0 then { d with resil := { d.resil with reads := d.resil.reads ++ [(b, off, bs)] } }
    else { d with resil := { d.resil with readFailed := b :: d.resil.readFailed } }
  d.restorePump d.resil.toRead.length

/-- What a mirror record says (R398). -/
structure MirrorRec where
  seq : Nat
  update : Nat
  step : Nat
  chunk : Nat
  acc : Nat
  fp : Nat
  complete : Bool
deriving DecidableEq, Repr

/-- The mirror record that was read, if valid (R420). -/
def Dev.mirrorRec (d : Dev) (b : Nat) : Option MirrorRec :=
  let p := d.part b
  let r := d.readArea b p.recordOff 64
  let chunk := leAt r 24 4
  if leAt r 0 4 == logMagic && leAt r 44 4 == crc32c (r.take 44 ++ leBytes 16 0) && decide (chunk < p.chunks)
      && leAt r 28 4 == p.chunkLen chunk then
    some ⟨leAt r 8 8, leAt r 16 4, leAt r 20 4, chunk, leAt r 48 8, leAt r 56 8, chunk + 1 == p.chunks⟩
  else none

/-- The step of gradient area q, if its record is valid (R406, R420). -/
def Dev.gradStep (d : Dev) (b q : Nat) : Option Nat :=
  let p := d.part b
  let r := d.readArea b (p.gradOff q) 64
  if leAt r 0 4 == 0x44415247 && leAt r 8 1 == b && leAt r 12 4 == p.elements
      && leAt r 16 4 == crc32c (d.readArea b (p.gradOff q + 256) (4 * p.elements)) then some (leAt r 4 4)
  else none

/-- The area that holds GR(s), its own place first. -/
def Dev.gradOf (d : Dev) (b s : Nat) : Option Nat := [s % 2, 1 - s % 2].find? fun q => d.gradStep b q == some s

/-- How a part is restored: gradient areas, plus 1, of the interrupted run and of the run of u redone, and
whether that gradient is to be rebuilt. -/
structure RestorePlan where
  first : Nat
  redo : Bool
  grad : Nat
  rebuild : Bool
deriving DecidableEq, Repr

/-- The table of R420. -/
def restorePlan (r : MirrorRec) (updateBase u uPrev : Nat) (gu gp : Option Nat) : Option RestorePlan :=
  let current := r.complete && (r.step == u || (u == 0xFFFFFFFF && (r.update + 1) % 2 ^ 32 == updateBase))
  if current then some ⟨0, false, 0, false⟩
  else if r.step = u then
    if gu = some (u % 2) then some ⟨u % 2 + 1, false, 0, false⟩ else none
  else if r.step = uPrev then
    match gu with
    | some q =>
      if r.complete then (if q = u % 2 then some ⟨0, true, q + 1, false⟩ else none)
      else match gp with
        | some q' => if q' = q then none else some ⟨q' + 1, true, q + 1, false⟩
        | none => none
    | none =>
      if r.complete then some ⟨0, true, 0, true⟩
      else if gp = some (uPrev % 2) then some ⟨uPrev % 2 + 1, true, 0, true⟩
      else none
  else none

/-- The fingerprint of elements 0 to n − 1 of given masters (R386, R387). -/
def Dev.masterFp (d : Dev) (b n : Nat) (hi lo : List Byte) : Nat :=
  let p := d.part b
  ((upTo n).map fun e =>
    elemHash (d.elemPlace b e).2.2.1
      (workingWeight p.hasComp (BitVec.ofNat 32 (leAt hi (4 * e) 4)) (if p.hasComp then leAt lo (2 * e) 2 else 0))).foldl (· + ·) 0 % 2 ^ 64

/-- w16 of every element of buffer A is published. -/
def Dev.publish (d : Dev) (b : Nat) : Dev :=
  let p := d.part b
  (upTo p.elements).foldl (fun d e =>
    d.stackPut (d.elemPlace b e).2.1 2 (workingWeight p.hasComp (BitVec.ofNat 32 (d.readNat (nth 0 p.master 0 + 4 * e) 4))
      (if p.hasComp then d.readNat (nth 0 p.comp 0 + 2 * e) 2 else 0))) d

/-- Arrays of an image of R398's layout go into buffer A, and every log record becomes FREE. -/
def Dev.arraysBack (d : Dev) (b : Nat) (image : List Byte) : Dev :=
  let p := d.part b
  let al := d.partAlgo b
  let e := p.elements
  let e' := p.padded
  let d := if al.usesM then d.stackWrite (nth 0 p.m 0) (image.take (4 * e)) else d
  let d := if al.usesV then d.stackWrite (nth 0 p.v 0) ((image.drop (4 * e')).take (4 * e)) else d
  let d := d.stackWrite (nth 0 p.master 0) ((image.drop (8 * e')).take (4 * e))
  let d := if p.hasComp then d.stackWrite (nth 0 p.comp 0) ((image.drop (12 * e')).take (2 * e)) else d
  (upTo 4).foldl (fun d k => d.stackPut (p.log + k * 0x100000 + 4) 1 0) d

/-- A part restored from its mirror. -/
def Dev.restorePart (d : Dev) (b u : Nat) (r : MirrorRec) (k : RestorePlan) : Dev :=
  let p := d.part b
  let d := d.arraysBack b (d.readArea b 0 (14 * p.padded))
  let update := if r.complete then (r.update + 1) % 2 ^ 32 else r.update
  let d := d.stackWrite p.state (leBytes 4 sbMagic ++ leBytes 1 0 ++ leBytes 1 0xFF ++ leBytes 1 (if r.complete then 0 else 1)
    ++ leBytes 1 0 ++ leBytes 8 (r.seq + 1) ++ leBytes 4 update ++ leBytes 4 r.step
    ++ leBytes 4 (if r.complete then 0 else r.chunk + 1) ++ leBytes 4 0 ++ leBytes 8 r.acc ++ leBytes 8 r.fp
    ++ leBytes 8 r.seq ++ leBytes 200 0)
  let d := (d.gradBack b k.first).publish b
  let d := if r.complete then d.stackPut p.fpOut 8 r.fp else d
  let d := d.modBurner b fun _ => { Burnisher.reset with
    run := if r.complete then none else some ⟨r.step, false, false, false, false, 0⟩
    marked := if k.redo then [⟨u, false, false, false, k.rebuild, k.grad⟩] else [] }
  (d.showBurner b).putB Ent.adoptStatus 1 1 (setBit (d.getB Ent.adoptStatus 1 1) b true)

/-- A part is verified by R421 and restored by R420; false where it has no usable mirror. -/
def Dev.adoptPart (d : Dev) (b u uPrev : Nat) : Dev × Option RestorePlan :=
  let none_ (d : Dev) : Dev × Option RestorePlan :=
    (((d.fault 0x0735 (Unit.billet b) b).setPhase 7).putB Ent.adoptStatus 2 2 0x0735, none)
  if d.resil.readFailed.contains b then none_ d
  else match d.mirrorRec b with
    | none => none_ d
    | some r =>
      match restorePlan r d.burnHead.updateBase u uPrev (d.gradOf b u) (d.gradOf b uPrev) with
      | none => none_ d
      | some k =>
        let p := d.part b
        let n := if r.complete then p.elements else min p.elements (chunkElems * (r.chunk + 1))
        let e' := p.padded
        let fp := d.masterFp b n (d.readArea b (8 * e') (4 * p.elements)) (d.readArea b (12 * e') (2 * p.elements))
        if fp != (if r.complete then r.fp else r.acc) then none_ (d.fault 0x0736 (Unit.billet b) b)
        else (d.restorePart b u r k, some k)

/-- The step in progress as an adopting spare sees it: the one after the last voted step (DEDUCED, log 24). -/
def Dev.adoptStep (d : Dev) (v : Nat) : Nat := if v = 0xFFFFFFFF then d.pat.firstStep else v + 1

/-- Phase REPLAY, then LIVE: MIRROR_HELLO, REDUCE_REPLAY, REPLICA_VOID (R418 step 8). -/
def Dev.adoptLive (d : Dev) (u v : Nat) (rebuild : Bool) : Dev :=
  let n := d.adoptStep v
  let d := ((d.setPhase 4).put Ent.stepCounter n).openColl n
  let d := d.sendHello
  let d := if rebuild then (d.openRounds u).askReplay u else d
  ((d.askReplay n).sendVoids true).setPhase 5

/-- The restore reads have ended: verify, restore, and go on to LIVE, or FAILED (R420–R422). -/
def Dev.adoptVerify (d : Dev) : Dev :=
  let open_ := !d.resil.toRead.isEmpty || d.weave.pends.any fun p => match p.purpose with | .restore _ _ => true | _ => false
  match d.resil.voted with
  | none => d
  | some (u, uPrev, v) =>
    if d.devState != St.adopting || d.adoptPhase != 3 || open_ then d
    else
      let res := d.parts.foldl (fun (st : Dev × List (Option RestorePlan)) b =>
        let r := st.1.adoptPart b u uPrev
        (r.1, st.2 ++ [r.2])) (d, [])
      if res.2.any Option.isNone then res.1
      else res.1.adoptLive u v (res.2.any fun k => match k with | some k => k.rebuild | none => false)

/-! ### Restoring a snapshot (R424, R425) -/

/-- RESIL_COMMAND refused. -/
def Dev.resilRefused (d : Dev) (code : Nat) : Dev := d.fault 0x0733 Unit.device code

/-- Witness rows of an image. -/
def imageRows (image : List Byte) : List Byte := (image.drop 256).take (4 * leAt image 24 2)

/-- Region of part b in an image. -/
def Dev.imageRegion (d : Dev) (image : List Byte) (b : Nat) : List Byte :=
  (image.drop (d.regionOff (leAt image 6 1) (leAt image 24 2) b)).take (256 + (d.part b).recordOff)

/-- The target copy is check-valid. -/
def Dev.targetValid (d : Dev) (n : Nat) (image : List Byte) : Bool :=
  leAt image 0 4 == 0x50414E53 && leAt image 4 2 == d.deviceId && leAt image 12 4 == 1 && leAt image 8 4 == n
    && d.parts.all fun b =>
      let r := (d.imageRegion image b).drop 256
      let p := d.part b
      bitOf (leAt image 6 1) b && partCrc p r == leAt image (32 + 4 * b) 4
        && d.masterFp b p.elements (r.drop (8 * p.padded)) (r.drop (12 * p.padded)) == leAt image (64 + 8 * b) 8

/-- The local copy exists: SNAP_STATUS shows n as the last frozen step, and the stacks have been kept. -/
def Dev.localExists (d : Dev) (n : Nat) : Bool := bitOf (d.getB Ent.snapStatus 17 1) 0 && d.getB Ent.snapStatus 0 4 == n

def Dev.localValid (d : Dev) : Bool :=
  d.parts.all fun b =>
    let p := d.part b
    let r := d.arrayImage b (1 - d.sb b 4 1)
    d.masterFp b p.elements (r.drop (8 * p.padded)) (r.drop (12 * p.padded)) == d.getB Ent.snapStatus (32 + 8 * b) 8

/-- The saved state block of the local copy. -/
def Dev.localBlock (d : Dev) (b : Nat) : List Byte :=
  let f := (d.burner b).frozenBlock
  let base := if f.isEmpty then d.read (d.part b).state 256 else f
  base.take 16 ++ leBytes 4 (d.getB Ent.snapStatus 20 4) ++ base.drop 20

/-- One part restored from a copy: its saved block and arrays. -/
def Dev.restoreCopy (d : Dev) (b : Nat) (block arrays : List Byte) (fp : Nat) : Dev :=
  let p := d.part b
  let d := (d.arraysBack b arrays).stackWrite p.state block
  let d := ((((d.setSb b 4 1 0).setSb b 5 1 0xFF).setSb b 6 1 0).setSb b 24 4 0).setSb b 40 8 fp
  let d := (d.publish b).stackPut p.fpOut 8 fp
  (d.modBurner b fun _ => Burnisher.reset).showBurner b

/-- RESTORE_TARGET or RESTORE_LOCAL. image is what the snapshot target returns, or none where it holds no
copy (log 19). -/
def Dev.restoreSnapshot (d : Dev) (local_ : Bool) (image : Option (List Byte)) : Dev :=
  if d.devState != St.loaded then d.resilRefused (if local_ then 2 else 1)
  else
    let n := d.get Ent.restoreStep
    let target := match image with | some i => d.targetValid n i | none => false
    let hasLocal := d.localExists n
    let loc := hasLocal && d.localValid
    let d := if image.isSome && !target then d.fault 0x0738 Unit.device 0 else d
    let d := if hasLocal && !loc then d.fault 0x0738 Unit.device 1 else d
    let img := image.getD []
    let differs := target && loc && d.parts.any fun b => (d.imageRegion img b).drop 256 != d.arrayImage b (1 - d.sb b 4 1)
    let d := d.putB Ent.snapStatus 17 1 (setBit (d.getB Ent.snapStatus 17 1) 1 differs)
    let d := if differs then d.fault 0x073A Unit.device n else d
    if !(if local_ then loc else target) then d.putB Ent.snapStatus 18 1 2
    else
      let d := d.parts.foldl (fun d b =>
        if local_ then d.restoreCopy b (d.localBlock b) (d.arrayImage b (1 - d.sb b 4 1)) (d.getB Ent.snapStatus (32 + 8 * b) 8)
        else
          let r := d.imageRegion img b
          d.restoreCopy b (r.take 256) (r.drop 256) (leAt img (64 + 8 * b) 8)) d
      let d := if target then (d.put Ent.lossScale (leAt img 16 4)).put Ent.lsCleanSteps (leAt img 20 4) else d
      let d := { d with resil := { d.resil with
        restored := some n
        witnessRows := if target then imageRows img else d.resil.witnessRows
        witnessValid := if target then bitOf (leAt img 7 1) 0 else d.resil.witnessValid } }
      d.putB Ent.snapStatus 18 1 1

/-- WITNESS (R426). -/
def Dev.witnessArm (d : Dev) : Dev :=
  if d.devState = St.loaded && d.resil.restored.isSome then { d with resil := { d.resil with armed := true } }
  else d.resilRefused 3

/-- REMIRROR (R423). -/
def Dev.remirror (d : Dev) : Dev :=
  if d.inState [St.loaded, St.running] || (d.devState == St.adopting && d.adoptPhase == 5) then
    let d := d.parts.foldl (fun d b => d.modBurner b fun x => { x with remirroring := 1 }) d
    d.sendHello
  else d.resilRefused 4

/-! ### The commands -/

def execReduceData (f : ReduceF) (first blocks : Nat) (data : List Byte) : State → Host.Outcome State Fault Refusal :=
  act fun d => d.reduceData f first blocks data
def execReduceClose (f : ReduceF) (on fold : Nat) : State → Host.Outcome State Fault Refusal :=
  act fun d => d.reduceClose f on fold
def execReduceVoid (f : ReduceF) : State → Host.Outcome State Fault Refusal := act fun d => d.reduceVoid f
def execRoundDeadline (node round : Nat) : State → Host.Outcome State Fault Refusal := act fun d => d.roundDeadline node round
/-- A doorbell write of R349; during a witness run it is discarded (R426). -/
def Dev.outsideWitness (d : Dev) (f : Dev → Dev) : Dev := if d.resil.witnessFrom.isSome then d else f d

def execLeafClose (tree round step : Nat) : State → Host.Outcome State Fault Refusal :=
  act fun d => d.outsideWitness fun d => d.leafClose tree round step
def execFpOpen (tag : Nat) : State → Host.Outcome State Fault Refusal := act fun d => d.outsideWitness fun d => d.fpOpen tag
def execFpCheck (tag : Nat) : State → Host.Outcome State Fault Refusal := act fun d => d.outsideWitness fun d => d.fpCheck tag
def execVoteUp (src : Nat) (msg : List Byte) : State → Host.Outcome State Fault Refusal := act fun d => d.voteUp src msg
def execVoteDeadline : State → Host.Outcome State Fault Refusal := act Dev.voteDeadline
def execVoteDown (msg : List Byte) : State → Host.Outcome State Fault Refusal := act fun d => d.applyDown msg
def execReplicaVoid (step : Nat) : State → Host.Outcome State Fault Refusal := act fun d => d.replicaVoid step
def execReduceReplay (src step : Nat) : State → Host.Outcome State Fault Refusal := act fun d => d.reduceReplay src step

/-- A part's run starts; a FREEZE run leaves its mark in SNAP_STATUS (R432). -/
def Dev.burnStart (d : Dev) (b : Nat) : Dev :=
  let d' := d.startRun b
  match (d.burner b).run, (d'.burner b).run with
  | none, some k => if k.freeze then d'.freezeStarted b else d'
  | _, _ => d'

/-- A part's run completes; a FREEZE run starts its drain, and a commanded REMIRROR goes on. -/
def Dev.runComplete (d : Dev) (b : Nat) : Dev :=
  let r := d.finishRun b
  match r.2 with
  | some k => (if k.freeze && !k.skip then r.1.drainReady b else r.1).remirrorGo b
  | none => r.1

def execBurnisherRunStart (part : Nat) : State → Host.Outcome State Fault Refusal := act fun d => d.burnStart part
def execBurnisherChunkCommit (part : Nat) : State → Host.Outcome State Fault Refusal := act fun d => d.commitChunk part
def execBurnisherRunComplete (part : Nat) : State → Host.Outcome State Fault Refusal := act fun d => d.runComplete part
def execSnapshotDrainComplete (ok : Bool) : State → Host.Outcome State Fault Refusal := act fun d => d.drainComplete ok
def execMirrorHello (sender zone stage leaf : Nat) : State → Host.Outcome State Fault Refusal :=
  act fun d => d.mirrorHello sender zone stage leaf
def execHelloAck (status : Nat) : State → Host.Outcome State Fault Refusal := act fun d => d.helloAck status
def execHelloTimeout : State → Host.Outcome State Fault Refusal := act Dev.helloTimeout
def execVoteQuery (src : Nat) : State → Host.Outcome State Fault Refusal := act fun d => d.voteQuery src
def execVoteReply (u uPrev v : Nat) : State → Host.Outcome State Fault Refusal := act fun d => d.voteReply u uPrev v
def execAdoptPortsReady : State → Host.Outcome State Fault Refusal := act Dev.adoptPorts
def execAdoptVerify : State → Host.Outcome State Fault Refusal := act Dev.adoptVerify

end Sys2Proof.Machine
end

