-- ==== Sys2Proof/Machine/Memory.lean ====
section
/-!
DEFINITION. Scrubbing and block checks of the memory tiers (*Memory tiers and placement*, R272–R281).
-/
namespace Sys2Proof.Machine
open Sys2Proof

/-- The Felt scrubber reads one line: words with a single-bit error are counted and rewritten with their
corrected value; words with an uncorrectable error, given with the bits they now hold, are poisoned (R272). Lines above
those of the Felt's addresses are those of the spare groups, region by region. A spare group has no address: its errors
are counted, and no word is marked (DESIGN CHOICE, log 107). -/
def Dev.feltScrub (d : Dev) (line : Nat) (single : List Nat) (bad : List (Nat × Nat)) : Dev :=
  let spare := line - feltSize / 256
  if feltSize / 256 + 16 * 2 * 0x4000 ≤ line || !d.power.stackUp then d
  else if feltSize / 256 ≤ line then
    let n (ws : List Nat) : Nat := (ws.filter fun w => decide (w < 32)).length
    let at_ := 8 * (spare / 0x8000)
    let d := { d with tier := { d.tier with feltScrubAt := (line + 1) % (feltSize / 256 + 16 * 2 * 0x4000) } }
    (d.bump Ent.feltErrCount at_ 4 (n single)).bump Ent.feltErrCount (at_ + 4) 4 (n (bad.map Prod.fst))
  else
    let d := { d with tier := { d.tier with feltScrubAt := line + 1 } }
    let ok := single.filter fun w => decide (w < 32)
    let d := d.bump Ent.feltErrCount (8 * (256 * line / 0x8000000)) 4 ok.length
    (bad.filter fun w => decide (w.1 < 32)).foldl (fun d w =>
      let a := 256 * line + 8 * w.1
      ({ d with mem := memWrite d.mem a (leBytes 8 w.2) }).poisonWord (a / 8)) d

/-- Counters of a block read that needed more than a clean read (R277, R292). -/
def Dev.blockRead (d : Dev) (block : Nat) (r : BlockRead) : Dev :=
  let s := stackIndex (256 * block)
  match r with
  | .clean => d
  | .corrected => d.bump Ent.stackErrCount (16 * s) 4 1
  | .reread => (d.bump Ent.stackErrCount (16 * s + 4) 4 1).count (0x440 + 32 * billetOf s + 4) 1
  | .lost => d.loseBlock block

/-- The stack of a block is ready. -/
def Dev.blockReady (d : Dev) (block : Nat) : Bool := inStack (256 * block) && d.stackStatus (stackIndex (256 * block)) == 1

/-- A Billet's patrol scrub reads one block (R278, R279); it pauses while the stack is in self-refresh. -/
def Dev.patrolScrub (d : Dev) (block : Nat) (r : BlockRead) : Dev :=
  if !d.blockReady block then d
  else
    let s := stackIndex (256 * block)
    let d := { d with tier := { d.tier with patrolAt := sset 0 d.tier.patrolAt s (block + 1) } }
    let found (d : Dev) : Dev := d.fault 0x0313 (Unit.billet (billetOf s)) (256 * block)
    if sget false d.tier.lostBlocks block then found (d.bump Ent.stackErrCount (16 * s + 12) 4 1)
    else
      let d := d.blockRead block r
      if r = .lost then found d else d

/-- A block whose check failed is read once more (R277). A poison block is lost at once. -/
def Dev.blockReread (d : Dev) (block : Nat) (ok : Bool) : Dev :=
  if !d.blockReady block || sget false d.tier.lostBlocks block then d
  else d.blockRead block (if ok then .reread else .lost)

/-- A ready memory stack stops responding (R281): its contents are treated as lost. -/
def Dev.stackSilent (d : Dev) (s : Nat) : Dev :=
  if 24 ≤ s || d.stackStatus s != 1 then d
  else
    let d := d.putB Ent.stackStatus s 1 3
    let unit := Unit.billet (billetOf s)
    if d.inState [St.running, St.held, St.braced, St.adopting] then d.faultEnter 0x0321 unit s else d.fault 0x0320 unit s

def execFeltScrub (line : Nat) (single : List Nat) (bad : List (Nat × Nat)) : State → Host.Outcome State Fault Refusal :=
  act fun d => d.feltScrub line single bad
def execPatrolScrub (block : Nat) (r : BlockRead) : State → Host.Outcome State Fault Refusal := act fun d => d.patrolScrub block r
def execStackBlockReread (block : Nat) (ok : Bool) : State → Host.Outcome State Fault Refusal := act fun d => d.blockReread block ok
def execStackNotResponding (stack : Nat) : State → Host.Outcome State Fault Refusal := act fun d => d.stackSilent stack

end Sys2Proof.Machine
end

