-- ==== Sys2Proof/Machine/Stack.lean ====
section
/-!
DEFINITION. Coupling, sparing, tuning, bank groups and the power-up of the bonded stack (*The bonded stack:
coupling, clocks and regulation*, R434–R457).
-/
namespace Sys2Proof.Machine
open Sys2Proof

/-! ### Groups (R435) -/

/-- What a coupling group belongs to. -/
inductive GroupOwner where
  | panel (p : Nat) | island (i : Nat) | hub
deriving DecidableEq, Repr

def groupCount : Nat := 22688

def groupOwner (g : Nat) : GroupOwner :=
  if g < 16384 then .panel (g / 128) else if g < 22656 then .island ((g - 16384) / 392) else .hub

/-- The island that counts a group, hub 16. -/
def GroupOwner.island_ : GroupOwner → Nat
  | .panel p => islandOf p
  | .island i => i
  | .hub => 16

def GroupOwner.unit : GroupOwner → Nat
  | .panel p => p
  | .island i => Unit.island i
  | .hub => Unit.hub

/-- Groups that stay in service through the pause: 192–195 of a service array, and the hub array (R448). -/
def staysInService (g : Nat) : Bool :=
  match groupOwner g with
  | .panel _ => false
  | .island _ => decide (192 ≤ (g - 16384) % 392 % 196)
  | .hub => true

def islandUnit (i : Nat) : Nat := if i < 16 then Unit.island i else Unit.hub

/-- The partner of a group. -/
def partnerGroup (g : Nat) : Nat := if g % 2 = 0 then g + 1 else g - 1

/-- One more of an island's coupling events; off is its place in COUPLING_COUNTS. -/
def Dev.coupling (d : Dev) (g off len : Nat) : Dev := d.bump Ent.couplingCounts (24 * (groupOwner g).island_ + off) len 1

/-! ### Sparing (R441–R443) -/

/-- A group has failed. -/
def Dev.groupFailed (d : Dev) (g pos : Nat) : Dev :=
  let d := d.putB Ent.couplingMap g 1 (0xC0 + pos % 16)
  match groupOwner g with
  | .panel p => d.fencePanel 0x0210 p
  | .island i =>
    let d := d.fault 0x0203 (Unit.island i) g
    let d := (upTo 8).foldl (fun d k => d.fenceBits (8 * i + k)) d
    if d.inState [St.loaded, St.running, St.held, St.adopting, St.spare] then (d.fault 0x073B Unit.device 0).enterState St.retired 0x0203 else d
  | .hub => d.faultEnter 0x0204 Unit.hub g

/-- A position of a group fails its test (R442). -/
def Dev.positionFailed (d : Dev) (g pos : Nat) : Dev :=
  let here := d.getB Ent.couplingMap g 1
  let free (x : Nat) : Bool := fieldOf (d.getB Ent.couplingMap x 1) 7 6 == 0
  let partner := partnerGroup g
  if groupCount ≤ g || 17 ≤ pos then d
  else match fieldOf here 7 6 with
    | 0 =>
      if free partner then
        ((d.putB Ent.couplingMap g 1 (if pos = 16 then 0x80 else 0x40 + pos)).fault 0x0202 (groupOwner g).unit g).coupling g 20 4
      else d.groupFailed g pos
    | 1 => if pos = fieldOf here 3 0 then d else d.groupFailed g pos
    | 2 => if pos = 16 then d else d.groupFailed g pos
    | _ => d

/-- Channel tests of some groups; results for other groups are not taken. -/
def Dev.channelTests (d : Dev) (tested : Nat → Bool) (tests : List (Nat × List Nat)) : Dev :=
  (tests.filter fun t => tested t.1).foldl (fun d t => t.2.foldl (fun d pos => d.positionFailed t.1 pos) d) d

/-- New delay codes of some groups. -/
def Dev.setCodes (d : Dev) (which : Nat → Bool) (codes : List (Nat × Nat)) : Dev :=
  (codes.filter fun c => which c.1 && decide (c.1 < groupCount)).foldl (fun d c => d.putB Ent.delayCodes c.1 1 (c.2 % 128)) d

/-! ### Frames and check words (R435–R438) -/

/-- The group of the opposite direction at the same position of the same array. -/
def oppositeGroup (g : Nat) : Nat :=
  let swap (base n : Nat) : Nat := if (g - base) % (2 * n) < n then g + n else g - n
  match groupOwner g with
  | .panel _ => swap 0 64
  | .island _ => swap 16384 196
  | .hub => swap 22656 16

/-- The CRC field: CRC-32C over the payload, followed by the 7 bits of SEQ, bit 0 first (DESIGN CHOICE, log 109). -/
def frameCrc (payload : List Byte) (seq : Nat) : Nat :=
  let whole := crc32c payload ^^^ 0xFFFFFFFF
  crcBits 7 0x82F63B78 (whole ^^^ (seq % 128)) ^^^ 0xFFFFFFFF

/-- A check word: NAK_VALID and NAK_SEQ where a frame is asked for again, SEQ and CRC of the frame checked. -/
def checkWord (nak : Option Nat) (seq : Nat) (payload : List Byte) : Nat :=
  (match nak with | some n => 2 ^ 47 + (n % 128) <<< 40 | none => 0) + (seq % 128) <<< 32 + frameCrc payload seq

/-- The spare of a group is FREE. -/
def Dev.spareFree (d : Dev) (g : Nat) : Bool := fieldOf (d.getB Ent.couplingMap g 1) 7 6 == 0

/-- SEQ of the frame of a group that is checked next. -/
def Dev.frameSeq (d : Dev) (g : Nat) : Nat := sget 0 d.stack.frames g % 128

/-- The check word the sender makes for a frame of a group; the NAK it carries is the one that waits there. -/
def Dev.sentCheck (d : Dev) (g : Nat) (payload : List Byte) : Nat :=
  checkWord (match sget 0 d.stack.nakSend g with | 0 => none | n + 1 => some n) (d.frameSeq g) payload

/-- The 128 bits that the FREE spare of a group carries: the check word of its own frame, the backup slot, which holds
the partner's check word when the partner's spare is not FREE, and the lane pattern. -/
def Dev.spareStream (d : Dev) (g : Nat) (own partner : List Byte) : BitVec 128 :=
  let p := partnerGroup g
  let backup := if d.spareFree p then 0 else d.sentCheck p partner
  BitVec.ofNat 128 (d.sentCheck g own + backup <<< 48 + (Config.lanePattern g (d.frameSeq g)).toNat <<< 96)

/-- The check word of a group in the stream that carries it: its own spare's, or the backup slot of its partner's. -/
def Dev.gotCheck (d : Dev) (g : Nat) (f : FrameF) : Nat :=
  if d.spareFree g then fieldOf f.spare.toNat 47 0 else fieldOf f.spare.toNat 95 48

/-- SEQ and CRC fit the frame received. -/
def Dev.frameMatches (d : Dev) (g : Nat) (f : FrameF) : Bool :=
  d.gotCheck g f % 2 ^ 39 == checkWord none (d.frameSeq g) f.payload

/-- The lane pattern of a FREE spare shows errors: in 4 frames out of any 65,536 its group is to be tested (R441). -/
def Dev.lanePatternCheck (d : Dev) (g : Nat) (f : FrameF) : Dev :=
  let n := sget 0 d.stack.frames g
  if !d.spareFree g || fieldOf f.spare.toNat 127 96 == (Config.lanePattern g (d.frameSeq g)).toNat then d
  else
    let seen := (sget [] d.stack.patternFails g).filter fun k => decide (n < k + 65536)
    let seen := seen ++ [n]
    { d with stack := { d.stack with
      patternFails := sset [] d.stack.patternFails g seen
      spareDue := if 4 ≤ seen.length && !d.stack.spareDue.contains g then d.stack.spareDue ++ [g] else d.stack.spareDue } }

/-- What a check word brings whatever its check finds: the lane pattern, a NAK of the opposite direction, and the
number of the next frame. The NAK that waited at this group has left with it. -/
def Dev.frameTaken (d : Dev) (g : Nat) (f : FrameF) : Dev :=
  let d := d.lanePatternCheck g f
  let w := d.gotCheck g f
  { d with stack := { d.stack with
    frames := sset 0 d.stack.frames g (sget 0 d.stack.frames g + 1)
    nakSend := sset 0 d.stack.nakSend g 0
    nakGot := if bitOf w 47 then sset 0 d.stack.nakGot (oppositeGroup g) (fieldOf w 46 40 + 1) else d.stack.nakGot } }

/-- Groups are tuned: their frames are numbered anew, and no re-send is asked of them. -/
def Dev.renumber (d : Dev) (which : Nat → Bool) : Dev :=
  { d with stack := { d.stack with
    frames := d.stack.frames.filter fun e => !which e.1
    nakSend := d.stack.nakSend.filter fun e => !which e.1
    nakGot := d.stack.nakGot.filter fun e => !which e.1
    patternFails := d.stack.patternFails.filter fun e => !which e.1 } }

/-- Groups whose spares are due for a test, taken off the list. -/
def Dev.spareTested (d : Dev) (which : Nat → Bool) : Dev :=
  { d with stack := { d.stack with
    spareDue := d.stack.spareDue.filter fun g => !which g
    patternFails := d.stack.patternFails.filter fun e => !(which e.1 && d.stack.spareDue.contains e.1) } }

/-! ### Frames (R438–R440) -/

/-- What the Felt held for an island leaves (R440). -/
def Dev.releaseFelt (d : Dev) (i : Nat) : Dev :=
  let mine := d.stack.feltHeld.filter fun h => h.island == i
  let d := { d with stack := { d.stack with feltHeld := d.stack.feltHeld.filter fun h => h.island != i } }
  mine.foldl (fun d h => d.sendRouted h.type h.cls h.tag h.dest h.late h.payload) d

/-- Closes whose frames have passed take effect; none is left while a frame has failed (R440). -/
def Dev.releaseCloses (d : Dev) : Dev :=
  if !d.stack.failing.isEmpty then d
  else
    let cs := d.stack.heldCloses
    let d := { d with stack := { d.stack with heldCloses := [] } }
    cs.foldl (fun d c => d.leafClose c.tree c.round c.step) d

/-- Some frame of an island's groups is still to be re-sent. -/
def Dev.islandFailing (d : Dev) (i : Nat) : Bool := d.stack.failing.any fun g => (groupOwner g).island_ == i

/-- A frame passes its check. -/
def Dev.framePass (d : Dev) (g : Nat) (f : FrameF) : Dev :=
  if groupCount ≤ g then d
  else
    let d := d.frameTaken g f
    let i := (groupOwner g).island_
    let d := d.coupling g 0 8
    let d := if d.islandFailing i then d else d.releaseFelt i
    d.releaseCloses

/-- A frame fails its check: the next check word of the opposite direction asks for it again, and closes that wait
for it are void. -/
def Dev.frameFail (d : Dev) (g : Nat) (f : FrameF) : Dev :=
  if groupCount ≤ g then d
  else
    let seq := d.frameSeq g
    let d := d.frameTaken g f
    let d := { d with stack := { d.stack with nakSend := sset 0 d.stack.nakSend (oppositeGroup g) (seq + 1) } }
    let i := (groupOwner g).island_
    let d := (d.coupling g 0 8).coupling g 8 4
    let d := if i < 16 then d.evI i 0x03A 1 else d
    let cs := d.stack.heldCloses
    let d := { d with stack := { d.stack with
      failing := if d.stack.failing.contains g then d.stack.failing else d.stack.failing ++ [g]
      failedSince := sset 0 d.stack.failedSince g (sget 0 d.stack.failedSince g + 1)
      failedStep := if d.stack.failedStep.contains g then d.stack.failedStep else d.stack.failedStep ++ [g]
      heldCloses := [] } }
    cs.foldl (fun d c => match d.nodeOf c.tree with
      | some n => d.leafVoid n c.round c.step
      | none => d) d

/-- A re-sent payload that differs, or an uncorrectable command word: 0x0201, and the device withholds (R439). -/
def Dev.frameDiffers (d : Dev) (g : Nat) : Dev :=
  ((d.fault 0x0201 (groupOwner g).unit g).coupling g 16 4).withhold

/-- Bytes of a held request replaced. -/
def Dev.patchHeld (d : Dev) (k off : Nat) (bs : List Byte) : Dev :=
  { d with stack := { d.stack with feltHeld := (d.stack.feltHeld.zip (upTo d.stack.feltHeld.length)).map fun h =>
    if h.2 = k then { h.1 with payload := h.1.payload.take (32 + off) ++ bs ++ h.1.payload.drop (32 + off + bs.length) } else h.1 } }

/-- A frame is re-sent over its destination. -/
def Dev.frameResend (d : Dev) (g : Nat) (differs : Bool) (dest : FrameDest) (bs : List Byte) : Dev :=
  if !d.stack.failing.contains g then d
  else
    let d := ({ d with stack := { d.stack with
      failing := d.stack.failing.erase g, nakGot := sset 0 d.stack.nakGot g 0 } }).coupling g 12 4
    let d :=
      if differs then
        let d := match dest with
          | .memory a => d.write a bs
          | .held k off => d.patchHeld k off bs
          | .consumed => d
        d.frameDiffers g
      else d
    let i := (groupOwner g).island_
    let d := if d.islandFailing i then d else d.releaseFelt i
    d.releaseCloses

/-! ### Tracking (R447) -/

def Dev.islandGroup (i g : Nat) : Bool := decide ((groupOwner g).island_ = i)

/-- Every code of an island moves by one step. -/
def Dev.stepCodes (d : Dev) (i : Nat) (up : Bool) : Dev :=
  let old := d.get Ent.delayCodes
  let bs := (upTo groupCount).map fun g =>
    let c := getBytes old g 1
    if Dev.islandGroup i g then (if up then min 127 (c + 1) else c - 1) else c
  d.put Ent.delayCodes (leNat (bs.map fun c => BitVec.ofNat 8 c))

/-- The island is to be re-tuned in step recovery, and the device withholds. -/
def Dev.askRetune (d : Dev) (code i : Nat) : Dev :=
  if d.stack.retune.contains i then d
  else (({ d with stack := { d.stack with retune := d.stack.retune ++ [i] } }).fault code (islandUnit i) i).withhold

/-- Every 4,096 cycles: one step toward the sentinel's drift, given in 1/256 cycle. -/
def Dev.sentinelTrack (d : Dev) (i : Nat) (drift : Int) : Dev :=
  if 17 ≤ i || !d.power.stackUp then d
  else
    let d := d.putB Ent.sentinelDrift (2 * i) 2 ((drift % 65536).toNat)
    let target := drift.tdiv 4
    let now := sget 0 d.stack.applied i
    let d := if now < target then
        ({ d with stack := { d.stack with applied := sset 0 d.stack.applied i (now + 1) } }).stepCodes i true
      else if target < now then
        ({ d with stack := { d.stack with applied := sset 0 d.stack.applied i (now - 1) } }).stepCodes i false
      else d
    if drift ≤ -64 ∨ 64 ≤ drift then d.askRetune 0x0205 i else d

/-- The sentinels' references of islands are set to zero. -/
def Dev.zeroSentinels (d : Dev) (is_ : List Nat) : Dev :=
  is_.foldl (fun d i =>
    ({ d with stack := { d.stack with applied := sset 0 d.stack.applied i 0 } }).putB Ent.sentinelDrift (2 * i) 2 0) d

/-! ### Bank groups (R451–R454) -/

/-- The place that a physical group serves, if it serves one. -/
def Dev.placeOf (d : Dev) (phys : Nat) : Option Nat :=
  let serves (place : Nat) : Nat :=
    match sget 0 d.stack.bgMap place with
    | 0 => 34 * (place / 32) + place % 32
    | k + 1 => k
  ((upTo 32).map fun g => 32 * (phys / 34) + g).find? fun place => serves place == phys

/-- A monitor reading of one group at a pause (R452). -/
def Dev.monitor (d : Dev) (phys : Nat) (s : Int) : Dev :=
  if 544 ≤ phys then d
  else
    let st := d.getB Ent.bgState (2 * phys + 1) 1
    let a := st % 4
    let margin : Int := 120 + s - 40 * a
    let fall := decide (margin < 20) && a != 0
    let a' := if fall then a - 1 else a
    let m := if fall then margin + 40 else margin
    let d := (d.putB Ent.bgState (2 * phys) 1 (min 255 m.toNat)).putB Ent.bgState (2 * phys + 1) 1 (st / 4 * 4 + a')
    let low := decide (m < ((d.get Ent.marginGuard : Nat) : Int)) && a' == 0
    let n := if low then sget 0 d.stack.lowMargin phys + 1 else 0
    let d := { d with stack := { d.stack with lowMargin := sset 0 d.stack.lowMargin phys n } }
    match d.placeOf phys with
    | some place => if n = 3 then (d.fault 0x0207 Unit.felt phys).beginRetire place else d
    | none => d

/-- Monitors and added delays at stack power-up: the class sets the delay (R445 step 8, R451). -/
def Dev.monitorsAtStart (d : Dev) (speeds : List (Nat × Int)) : Dev :=
  let d := (upTo 544).foldl (fun d phys =>
    let r := phys / 34
    let g := phys % 34
    let a := 3 - d.getB Ent.bgClass phys 1 % 4
    let kind := if g < 32 then (if (d.placeOf phys).isNone then 3 else 0)
      else if (d.placeOf phys).isSome then 0
      else if 34 - d.getB Ent.feltBgSpares r 1 ≤ g then 1 else 3
    let kind := if bitOf (d.get Ent.feltBgFenced) (32 * r + g) && g < 32 then 3 else kind
    d.putB Ent.bgState (2 * phys + 1) 1 (a + 4 * kind)) d
  speeds.foldl (fun d s => d.monitor s.1 s.2) d

/-- The scrubber has copied a retiring group to its spare. -/
def Dev.copyDone (d : Dev) (place : Nat) : Dev :=
  if sget 0 d.stack.retiring place != 0 && !d.stack.copied.contains place then
    { d with stack := { d.stack with copied := d.stack.copied ++ [place] } }
  else d

/-- At a step start the spares whose copies are complete take their places (R453 step 3). -/
def Dev.swapIn (d : Dev) : Dev :=
  d.stack.copied.foldl (fun d place =>
    let r := place / 32
    let spare := 34 * r + (sget 0 d.stack.retiring place - 1)
    let old := match sget 0 d.stack.bgMap place with | 0 => 34 * r + place % 32 | k + 1 => k
    let mark (d : Dev) (phys kind : Nat) : Dev :=
      d.putB Ent.bgState (2 * phys + 1) 1 (d.getB Ent.bgState (2 * phys + 1) 1 % 4 + 4 * kind)
    let d := { d with stack := { d.stack with
      bgMap := sset 0 d.stack.bgMap place (spare + 1)
      retiring := sset 0 d.stack.retiring place 0
      copied := d.stack.copied.erase place } }
    let d := (mark (mark d old 3) spare 0).fault 0x0208 Unit.felt place
    d.putB Ent.feltBgSpares r 1 (d.getB Ent.feltBgSpares r 1 - 1)) d

/-! ### Pauses and recovery (R214, R441, R447, R448) -/

/-- The pause beat is observed: the pause starts, with what its tests will find. -/
def Dev.pauseStart (d : Dev) (f : TuneF) : Dev :=
  { d with
    stack := { d.stack with tuning := some f }
    contract := { d.contract with inPause := true, pauseTraffic := false } }

/-- The pause ends: re-tuning, or a skipped pause (R448). -/
def Dev.pauseEnd (d : Dev) : Dev :=
  match d.stack.tuning with
  | none => { d with contract := { d.contract with inPause := false } }
  | some f =>
    let skip : Bool := d.contract.pauseTraffic
    let d := { d with
      contract := { d.contract with inPause := false }
      stack := { d.stack with tuning := none, skippedPauses := if skip then d.stack.skippedPauses + 1 else 0 } }
    let d := (upTo 17).foldl (fun d i =>
      if skip then d.bump Ent.retuneStatus i 1 1 else d.putB Ent.retuneStatus i 1 0) d
    let d : Dev := f.speeds.foldl (fun d s => d.monitor s.1 s.2) d
    if skip then
      (if d.stack.skippedPauses = 4 then (upTo 17).foldl (fun d i => d.askRetune 0x0206 i) d else d)
    else
      let due := d.stack.failedSince
      let d := { d with stack := { d.stack with failedSince := [] } }
      let spare := d.stack.spareDue
      let d := d.channelTests (fun g => !staysInService g && (decide (4 ≤ sget 0 due g) || spare.contains g)) f.tests
      let d := (d.spareTested fun g => !staysInService g).renumber fun _ => true
      (d.setCodes (fun _ => true) f.codes).zeroSentinels (upTo 17)

/-- Step 5 of step recovery: tests of groups that failed a frame in the step, and re-tuning (R441, R447). -/
def Dev.recoveryTests (d : Dev) (f : TuneF) : Dev :=
  let due := d.stack.failedStep
  let tune := d.stack.retune
  let d := { d with stack := { d.stack with failedStep := [], retune := [], failing := [] } }
  let spare := d.stack.spareDue
  let d := (d.channelTests (fun g => due.contains g || spare.contains g) f.tests).spareTested fun _ => true
  let d := d.renumber fun g => tune.contains (groupOwner g).island_
  let d := d.setCodes (fun g => tune.contains (groupOwner g).island_) f.codes
  let d := d.zeroSentinels tune
  if tune.isEmpty then d else { d with stack := { d.stack with skippedPauses := 0 } }

/-! ### Stack power-up (R445, R271, R384) -/

/-- The Felt, the Tree and the structures of R270 are zero. -/
def Dev.zeroStack (d : Dev) : Dev :=
  let d := ((d.zeroRange 0 feltSize).zeroRange 0x100000000 0x10000000).zeroRange 0x200800000 0x200000
  { d with
    wide := WideState.reset
    panels := smapv Panel.reset d.panels fun _ (x : Panel) => { Panel.reset with lastErrorStep := x.lastErrorStep }
    islands := smapv Island.reset d.islands fun _ (x : Island) =>
      { Island.reset with cycle := x.cycle, reLastErrorStep := x.reLastErrorStep, thermal := x.thermal }
    shuttles := smapv Shuttle.reset d.shuttles fun n (x : Shuttle) =>
      if n < 16 then { x with inFlight := [], left := 0, phase := if x.phase = 0 then 0 else 3, opening := false } else x }

def Dev.domains (d : Dev) (from_ to_ v : Nat) : Dev :=
  (upTo (to_ + 1 - from_)).foldl (fun d k => d.putB Ent.domainStatus (from_ + k) 1 v) d

/-- The Girth powers the stack up: domains on, groups tuned and tested, monitors read, SRAM zeroed. -/
def Dev.powerUp (d : Dev) (f : TuneF) : Dev :=
  let d := d.domains 0 55 1
  let d := { d with
    power := { d.power with stackUp := true }
    stack := { d.stack with failing := [], failedSince := [], failedStep := [], retune := [], skippedPauses := 0,
                            feltHeld := [], heldCloses := [], tuning := none, spareDue := [] } }
  let d := d.renumber fun _ => true
  let d := (d.setCodes (fun _ => true) f.codes).zeroSentinels (upTo 17)
  let d := f.noWindow.foldl (fun d w => (d.fault 0x020A (groupOwner w.1).unit w.1).positionFailed w.1 w.2) d
  let d := d.channelTests (fun _ => true) f.tests
  (d.monitorsAtStart f.speeds).zeroStack.deliverDone

/-- A frame and its check word have come; the comparison decides, under either name of the command (log 109). -/
def Dev.frameCheck (d : Dev) (g : Nat) (f : FrameF) : Dev := if d.frameMatches g f then d.framePass g f else d.frameFail g f

def execFrameCheckPass (group : GroupFrame) : State → Host.Outcome State Fault Refusal := act fun d => d.frameCheck group.group group.frame
def execFrameCheckFail (group : GroupFrame) : State → Host.Outcome State Fault Refusal := act fun d => d.frameCheck group.group group.frame
def execFrameResend (group : Nat) (differs : Bool) (dest : FrameDest) (bytes : List Byte) : State → Host.Outcome State Fault Refusal :=
  act fun d => d.frameResend group differs dest bytes
def execSentinelTrack (island : Nat) (drift : Int) : State → Host.Outcome State Fault Refusal := act fun d => d.sentinelTrack island drift
def execBankGroupCopyDone (place : Nat) : State → Host.Outcome State Fault Refusal := act fun d => d.copyDone place

end Sys2Proof.Machine
end

