-- ==== Sys2Proof/Machine/Power.lean ====
section
/-!
DEFINITION. Power events: HOLD across the domain, BRACE, STOW, stack resets, domain losses and the thermal
path (*Power events, resets and low-power states*; *The bonded stack*; *Package, lands and electrical
characteristics*).
-/
namespace Sys2Proof.Machine
open Sys2Proof

/-! ### Raw boundaries (R465) -/

/-- BEAT_PERIOD_NS in units of the clock. -/
def Dev.beatUnits (d : Dev) : Nat := d.get Ent.beatPeriodNs * 65536

/-- Index of the last raw boundary that has fallen. -/
def Dev.rawIndex (d : Dev) : Nat := d.time.clock / d.beatUnits

/-- The first raw boundary at least 40 µs ahead (R468). -/
def Dev.resumeAt (d : Dev) : Nat := ceilDiv (d.time.clock + 40 * clockUs) d.beatUnits

def Dev.modPower (d : Dev) (f : PowerState → PowerState) : Dev := { d with power := f d.power }

/-- A bit of POWER_EVENT_STATUS (R492). -/
def Dev.pes (d : Dev) (bit : Nat) (v : Bool) : Dev := d.put Ent.powerEventStatus (setBit (d.get Ent.powerEventStatus) bit v)
def Dev.pesBit (d : Dev) (bit : Nat) : Bool := bitOf (d.get Ent.powerEventStatus) bit
def Dev.powerCount (d : Dev) (k : Nat) : Dev := d.bump Ent.powerEventCounts (4 * k) 4 1

/-- The device takes part in the step in progress. -/
def Dev.contributing (d : Dev) : Bool := d.inState [St.running, St.held, St.braced, St.stowed, St.adopting]

/-- The contribution is withheld where there is one. -/
def Dev.withholdIf (d : Dev) : Dev := if d.contributing && d.pat.loaded then d.withhold else d

/-! ### The hold table and its messages (R464–R469) -/

/-- A flooded hold message: SUBTYPE, CAUSE, ORIGIN, HOLD_SEQ, FREEZE_BEAT or RESUME_AT, releaser. -/
def holdBytes (subtype cause origin seq w releaser : Nat) : List Byte :=
  leBytes 1 subtype ++ leBytes 1 cause ++ leBytes 2 origin ++ leBytes 4 seq ++ leBytes 8 w ++ leBytes 2 releaser
    ++ List.replicate 222 0#8

/-- UP ports that carry a direction, but for one. -/
def Dev.holdPorts (d : Dev) (but : Option Nat) : List Nat := (d.floodPorts but).filter fun p => (d.dirOf p).isSome

/-- A hold message goes out on every such port, and is known from then on. -/
def Dev.holdFlood (d : Dev) (but : Option Nat) (subtype cause origin seq w releaser : Nat) : Dev :=
  let d := d.modPower fun x => { x with seen := (subtype, origin, seq) :: x.seen }
  let body := holdBytes subtype cause origin seq w releaser
  (d.holdPorts but).foldl (fun d p => d.sendBy p FlitType.control 3 0 origin d.deviceId body) d

/-- The entry of a device ID, active while it stands in the table. -/
def Dev.holdOf (d : Dev) (origin : Nat) : Option HoldEnt := d.power.holds.find? fun h => h.origin == origin

/-- A new entry, or a newer hold in place of one. A RUNNING device becomes HELD (R463). -/
def Dev.addHold (d : Dev) (e : HoldEnt) : Dev :=
  let d := d.modPower fun x => { x with
    since := if x.holds.isEmpty then some d.time.clock else x.since
    holds := (x.holds.filter fun h => h.origin != e.origin) ++ [e] }
  if d.devState = St.running then d.enterState St.held 0 else d

/-- Entries that remain; with the last gone, request timers run again from where they stopped (R316). -/
def Dev.keepHolds (d : Dev) (left : List HoldEnt) : Dev :=
  if left.isEmpty && !d.power.holds.isEmpty then
    let now := d.time.clock
    let from_ := d.power.since.getD now
    let d := { d with weave := { d.weave with pends := d.weave.pends.map fun (p : Pend) =>
      { p with sentAt := p.sentAt.map fun t => if t ≤ from_ then t + (now - from_) else now } } }
    d.modPower fun x => { x with holds := [], since := none, limit := false }
  else d.modPower fun x => { x with holds := left }

/-- This device's own hold, not yet released. -/
def Dev.ownHold (d : Dev) : Option HoldEnt := d.power.holds.find? fun h => h.origin == d.deviceId && h.resume.isNone

/-- A hold of this device is issued (R464). -/
def Dev.issueHold (d : Dev) (cause : Nat) : Dev :=
  let seq := d.power.ownSeq + 1
  let freeze := d.get Ent.logicalBeat + ceilDiv 20000 (d.get Ent.beatPeriodNs) + 1
  let d := d.modPower fun x => { x with ownSeq := seq }
  ((d.holdFlood none 1 cause d.deviceId seq freeze 0).count 0x403 1).addHold ⟨d.deviceId, seq, freeze, none⟩

/-- A hold cause arises; the first one issues the hold. -/
def Dev.holdCause (d : Dev) (cause : Nat) : Dev :=
  let d := d.modPower fun x => { x with causes := if x.causes.contains cause then x.causes else x.causes ++ [cause] }
  if d.ownHold.isSome then d else d.issueHold cause

/-- RELEASE of a hold is sent, and applied here. -/
def Dev.sendRelease (d : Dev) (origin seq : Nat) : Dev :=
  let r := d.resumeAt
  let d := d.holdFlood none 2 0 origin seq r d.deviceId
  let d := d.modPower fun x => { x with holds := x.holds.map fun h =>
    if origin = 0xFFFF || (h.origin == origin && h.seq == seq) then { h with resume := some r } else h }
  if origin = 0xFFFF || origin = d.deviceId then d.modPower fun x => { x with causes := [] } else d

/-- Causes end; with the last, the own hold is released (R468). -/
def Dev.endCauses (d : Dev) (ended : List Nat) : Dev :=
  let had := !d.power.causes.isEmpty
  let d := d.modPower fun x => { x with causes := x.causes.filter fun c => !ended.contains c }
  match d.ownHold with
  | some h => if had && d.power.causes.isEmpty then d.sendRelease d.deviceId h.seq else d
  | none => d

/-- HOLD_RELEASE of a device ID, or 0xFFFF; the second result is false where it is refused (R468). The RELEASE
of every hold carries this device's next HOLD_SEQ (DESIGN CHOICE, log 26). -/
def Dev.holdRelease (d : Dev) (x : Nat) : Dev × Bool :=
  if x = 0xFFFF then
    if d.power.holds.isEmpty then (d, true)
    else
      let seq := d.power.ownSeq + 1
      ((d.modPower fun p => { p with ownSeq := seq }).sendRelease 0xFFFF seq, true)
  else match d.holdOf x with
    | some h => (d.sendRelease x h.seq, true)
    | none => (d, false)

/-- A received message is the first of its SUBTYPE, ORIGIN and HOLD_SEQ; it is then forwarded. -/
def Dev.firstSeen (d : Dev) (subtype origin seq : Nat) : Bool := !d.power.seen.contains (subtype, origin, seq)

/-- HOLD from another device (R467, R469). -/
def Dev.holdIn (d : Dev) (port : Option Nat) (cause origin seq freeze : Nat) : Dev :=
  if d.firstSeen 1 origin seq then
    let d := d.holdFlood port 1 cause origin seq freeze 0
    let l := d.get Ent.logicalBeat
    let d := if freeze ≤ l then
        ((d.fault 0x0103 Unit.device origin).modPower fun x => { x with skip := x.skip + (l - freeze + 1) }).withholdIf
      else d
    (d.count 0x404 1).addHold ⟨origin, seq, freeze, none⟩
  else d

/-- RELEASE from another device (R468, R469). -/
def Dev.releaseIn (d : Dev) (port : Option Nat) (origin seq resume releaser : Nat) : Dev :=
  if d.firstSeen 2 origin seq then
    let d := d.holdFlood port 2 0 origin seq resume releaser
    let hits (h : HoldEnt) : Bool := origin == 0xFFFF || (h.origin == origin && h.seq == seq)
    if d.power.holds.any hits then
      let d := if resume ≤ d.rawIndex then (d.fault 0x0104 Unit.device origin).withholdIf else d
      let d := d.modPower fun x => { x with holds := x.holds.map fun h => if hits h then { h with resume := some resume } else h }
      if origin = 0xFFFF || origin = d.deviceId then d.modPower fun x => { x with causes := [] } else d
    else d
  else d

/-- STOW_NOTICE is passed on. -/
def Dev.stowNoticeIn (d : Dev) (port : Option Nat) (origin seq : Nat) : Dev :=
  if d.firstSeen 3 origin seq then d.holdFlood port 3 0 origin seq 0 0 else d

/-- HOLD_QUERY is answered: ACTIVE, HELD and the own beat. -/
def Dev.holdQueryIn (d : Dev) (src seq : Nat) : Dev :=
  let active := d.power.holds.any fun h => h.origin == src && h.seq == seq
  let body := leBytes 1 5 ++ leBytes 1 (bitNat active + 2 * bitNat d.frozen) ++ leBytes 6 0
    ++ leBytes 8 (d.get Ent.logicalBeat) ++ List.replicate 224 0#8
  d.sendControl src body

/-- The beats that raw boundary r brings: none while counting is frozen, and those missed by a late RELEASE
(R465, R469). -/
def Dev.boundaryBeats (d : Dev) (r : Nat) : Dev × Nat :=
  let was := d.frozen
  let next := d.get Ent.logicalBeat + 1
  let ends (h : HoldEnt) : Bool := match h.resume with | some a => decide (a ≤ r) | none => false
  let last := (d.power.holds.filter fun h => ends h && decide (h.freeze ≤ next)).foldl
    (fun m h => max m (h.resume.getD 0)) d.power.lastResume
  let d := d.keepHolds (d.power.holds.filter fun h => !ends h)
  let d := if d.devState = St.held && d.power.holds.isEmpty then d.enterState St.running 0 else d
  if d.frozen then (d.modPower fun x => { x with lastResume := last }, 0)
  else
    let k := if was && 0 < last then r - last + 1 else 1
    let s := d.power.skip
    (d.modPower fun x => { x with lastResume := 0, skip := s - k }, k - s)

/-- An entry has been active for HOLD_LIMIT_S (R480). -/
def Dev.holdLimit (d : Dev) : Dev :=
  if d.power.holds.isEmpty || d.power.limit then d
  else ((d.modPower fun x => { x with limit := true }).fault 0x0106 Unit.device 0).powerCount 7

/-- 0x2122:00 HOLD_STATUS. -/
def Dev.holdStatus (d : Dev) : Nat :=
  let hs := d.power.holds
  let age := match d.power.since with | some t => (d.time.clock - t) / (1000 * clockUs) | none => 0
  leNat (leBytes 2 hs.length ++ leBytes 2 ((hs.head?.map HoldEnt.origin).getD 0) ++ leBytes 4 d.power.ownSeq
    ++ leBytes 8 (hs.foldl (fun m h => min m h.freeze) (2 ^ 64 - 1)) ++ leBytes 4 (min age 0xFFFFFFFF)
    ++ leBytes 1 (bitNat d.frozen + 2 * bitNat (d.holdOf d.deviceId).isSome + 4 * bitNat d.power.limit))

/-- 0x2123:00 HOLD_TABLE. -/
def Dev.holdTable (d : Dev) : Nat := d.power.holds.foldl (fun m h => m ||| 1 <<< h.origin) 0

/-! ### Stretch (R215, R471, R628) -/

def Island.setStretch (x : Island) (k : Nat) : Island := { x with stretch := k, stretchMax := max x.stretchMax k }

/-- Every island at code 12, or back at its thermal code. -/
def Dev.stretchAll (d : Dev) (on : Bool) : Dev :=
  ((upTo 16).foldl (fun d i => d.modIsland i fun x => x.setStretch (if on then 12 else x.thermal)) d).pes 3 on

/-- The states of R482. -/
def Dev.outsideRun (d : Dev) : Bool := d.inState [St.ready, St.spare, St.retired, St.faulted]

/-! ### The stack removed (R446, R484–R487) -/

/-- The Girth removes the 56 stack domains; a lost one stays marked. -/
def Dev.stackOff (d : Dev) : Dev :=
  let d := (upTo 56).foldl (fun d k => if d.getB Ent.domainStatus k 1 = 2 then d else d.putB Ent.domainStatus k 1 0) d
  d.modPower fun x => { x with stackUp := false }

/-- Ready memory stacks enter self-refresh, or leave it (R473, R488). -/
def Dev.stacksRest (d : Dev) (rest : Bool) : Dev :=
  (upTo 24).foldl (fun d i =>
    let s := d.stackStatus i
    if rest && s == 1 then d.putB Ent.stackStatus i 1 2 else if !rest && s == 2 then d.putB Ent.stackStatus i 1 1 else d) d

/-- A counter of the stack: islands, hub, histograms 6–21 (R586). -/
def stackCounter (n : Nat) : Bool := decide (n < 0x440) || decide (0x800 + 32 * 6 ≤ n)

/-- The stack's counters are zero. -/
def Dev.zeroStackCounters (d : Dev) : Dev :=
  let left := d.tally.counters.filter fun e => !stackCounter e.1
  { d with tally := { d.tally with counters := left, last := [], shadows := [], opened := [], buffered := [] } }

/-- Entries of the hub kept in its Selvage copy across a stack reset (R464). -/
def keptBySelvage : List Nat := [Ent.logicalBeat, Ent.stepCounter]

/-- A stack reset removes the stack: its status, counters, S-class entries, and the end of the contribution
(R485–R487). kind 1 orderly, 2 forced, 3 power event. -/
def Dev.stackLost (d : Dev) (kind code cause : Nat) : Dev :=
  let d := d.stackOff.zeroStackCounters
  let d := (({ d with flags := FlagState.reset }).resetClass 5 keptBySelvage).bump Ent.resetCount 0 4 1
  let d := d.put Ent.resetCause (if kind = 2 then 6 else 5)
  let reload := d.pat.loaded && d.inState [St.loaded, St.running, St.held, St.braced, St.adopting]
  let d := d.put Ent.stackResetStatus
    (leNat (leBytes 1 kind ++ leBytes 1 (bitNat reload) ++ leBytes 2 cause ++ leBytes 4 d.step))
  let d := (d.powerCount (if kind = 2 then 5 else 6)).fault code Unit.device cause
  let d := { d with contract := { d.contract with inPause := false } }
  if reload then d.abandonRounds.withholdIf else d

/-- STACK_RESET_STATUS › reload. -/
def Dev.reloadState (d : Dev) : Nat := d.getB Ent.stackResetStatus 1 1

def sliceBase (n : Nat) : Nat := nearBase n + stowOffset

/-- COMPLETE = 0 in the slice headers: they stand so until every block of a new image is visible (R287). -/
def Dev.markIncomplete (d : Dev) : Dev :=
  ((upTo 16).filter fun n => d.stackStatus n == 1).foldl (fun d n => d.stackPut (sliceBase n + 28) 4 0) d

/-- A forced stack reset (R486). During a STOW the image stays incomplete instead (R476, R491). -/
def Dev.forcedReset (d : Dev) (cause : Nat) : Dev :=
  if !d.power.stackUp then d
  else if d.power.stowing then
    let d := d.markIncomplete.fault 0x0105 Unit.device cause
    ((((d.modPower fun x => { x with stowing := false, saved := none }).stackOff).stacksRest true).pes 4 false).pes 5 true
      |>.powerCount 4
  else d.stackLost 2 0x010A cause

/-! ### BRACE (R471, R472) -/

/-- The device braces, and issues its hold. -/
def Dev.brace (d : Dev) (cause : Nat) : Dev :=
  let st := d.devState
  let d := d.modPower fun x => { x with before := if st = St.running then St.held else st }
  let d := ((d.enterState St.braced 0x0101).stretchAll true).fault 0x0101 Unit.device 0
  (d.powerCount 0).holdCause cause

/-- The states in which the warn condition braces (R463). -/
def Dev.canBrace (d : Dev) : Bool := d.inState [St.loaded, St.running, St.held, St.adopting]

/-! ### STOW (R285–R288, R473, R474) -/

/-- Bytes copied from one range to another. -/
def Dev.copyRange (d : Dev) (src len dst : Nat) : Dev :=
  let bs := srange d.mem src (src + len)
  let m := bs.foldl (fun m b => sset 0#8 m (b.1 - src + dst) b.2) (sclear d.mem dst (dst + len))
  { d with mem := m, tier := clearPoison d.tier dst len }

/-- Slice n: where each memory lies, its length, and its offset in the slice (R286). -/
def sliceParts (n : Nat) : List (Nat × Nat × Nat) :=
  [(scratchBase (8 * n), 0x800000, 0x1000000), (accBase (8 * n), 0x400000, 0x1800000),
   (bundleBase (8 * n), 0x200000, 0x1C00000), (sideBase n, 0x200000, 0x1E00000), (n * 0x8000000, 0x8000000, 0x2000000)]

/-- The header of slice n (R287). -/
def Dev.sliceHeader (d : Dev) (n : Nat) : List Byte :=
  leBytes 4 0x574F5453 ++ leBytes 1 n ++ leBytes 3 0 ++ leBytes 8 d.tier.stowSeq ++ leBytes 8 (d.get Ent.logicalBeat)
    ++ leBytes 4 d.step ++ leBytes 4 1 ++ leBytes 48 d.power.digest ++ leBytes 176 0

/-- The image is written, the stacks rest, and the stack goes off. A stack that is not ready takes no slice. -/
def Dev.stowComplete (d : Dev) : Dev :=
  let d := { d with tier := { d.tier with stowSeq := d.tier.stowSeq + 1 } }
  let d := ((upTo 16).filter fun n => d.stackStatus n == 1).foldl (fun d n =>
    let d := (sliceParts n).foldl (fun d q => d.copyRange q.1 q.2.1 (sliceBase n + q.2.2)) d
    d.write (sliceBase n) (d.sliceHeader n)) d
  let s : StowSave :=
    { panels := d.panels, islands := d.islands, shuttles := d.shuttles, wide := d.wide, flags := d.flags,
      poison := d.tier.poisonWords, window := srange d.mem 0x200800000 0x200A00000 }
  let d := d.modPower fun x => { x with saved := some s, stowing := false }
  let d : Dev := ((d.stackOff.stacksRest true).pes 4 false).pes 5 true
  if d.getB Ent.stateCmdStatus 0 2 = 0x107 then d.put Ent.stateCmdStatus 0x207 else d

/-- STOW starts (R473), with a hold of the given cause where none is active. The headers are marked incomplete at its start,
before any of its writes (DEDUCED, log 106). -/
def Dev.startStow (d : Dev) (cause : Nat) : Dev :=
  let st := d.devState
  let d := if st = St.braced then d else d.modPower fun x => { x with before := if st = St.running then St.held else st }
  let d := ((d.enterState St.stowed 0x0102).fault 0x0102 Unit.device 0).powerCount 2
  let d := d.holdCause cause
  let d := d.holdFlood none 3 0 d.deviceId d.power.ownSeq 0 0
  ((d.modPower fun x => { x with stowing := true, resumeGiven := false }).pes 4 true).markIncomplete

/-- The image, as the headers and the lost blocks tell (R288). -/
def Dev.stowValid (d : Dev) : Bool :=
  let h (n : Nat) : List Byte := d.read (sliceBase n) 80
  d.power.saved.isSome && (upTo 16).all fun n =>
    d.stackStatus n == 1 && leAt (h n) 0 4 == 0x574F5453 && leAt (h n) 28 4 == 1 && (h n).drop 8 == (h 0).drop 8
      && leAt (h n) 32 48 == d.power.digest
      && (srange d.tier.lostBlocks (sliceBase n / 256) ((sliceBase n + 0xA000000) / 256)).isEmpty

/-- A valid image is restored whole. -/
def Dev.stowRestore (d : Dev) : Dev :=
  match d.power.saved with
  | none => d
  | some s =>
    let d := (upTo 16).foldl (fun d n => (sliceParts n).foldl (fun d q => d.copyRange (sliceBase n + q.2.2) q.2.1 q.1) d) d
    let m := s.window.foldl (fun m b => sset 0#8 m b.1 b.2) d.mem
    let upper := d.shuttles.filter fun e => decide (16 ≤ e.1)
    { d with
      mem := m, panels := s.panels, islands := s.islands, wide := s.wide, flags := s.flags
      shuttles := (s.shuttles.filter fun e => decide (e.1 < 16)) ++ upper
      tier := { d.tier with poisonWords := s.poison } }

/-- Step 5 of warm resume fails (R478). -/
def Dev.resumeFails (d : Dev) : Dev := (d.modPower fun x => { x with awaiting := [] }).faultEnter 0x0108 Unit.device 0

/-- Step 6 of warm resume: the islands restart and the power cause ends (R477). -/
def Dev.resumeDone (d : Dev) : Dev :=
  let own := d.power.commanded
  let to_ := d.power.before
  let d := d.modPower fun x => { x with awaiting := [], saved := none, commanded := false, resumeGiven := false }
  let d := ((((d.pes 5 false).stretchAll false).enterState to_ 0x010B).fault 0x010B Unit.device 0).powerCount 3
  let d := if d.getB Ent.stateCmdStatus 0 2 = 0x108 then d.put Ent.stateCmdStatus 0x208 else d
  d.endCauses (if own then [1, 2, 4, 5] else [1, 2, 5])

/-- HOLD_REPLY during step 5 (R478). -/
def Dev.holdReplyIn (d : Dev) (src : Nat) (active : Bool) (beat : Nat) : Dev :=
  if d.devState = St.stowed && d.power.awaiting.contains src then
    if active && beat = d.get Ent.logicalBeat then
      let d := d.modPower fun x => { x with awaiting := x.awaiting.erase src }
      if d.power.awaiting.isEmpty then d.resumeDone else d
    else d.resumeFails
  else d

/-- No reply within 10 ms. -/
def Dev.holdQueryTimeout (d : Dev) : Dev :=
  if d.devState = St.stowed && !d.power.awaiting.isEmpty then d.resumeFails else d

/-! ### VBULK and the pins (R461, R463, R482, R491) -/

/-- The warn condition holds. -/
def Dev.warn (d : Dev) (pin : Bool) (mv : Nat) : Dev :=
  let d := ((((d.put Ent.vbulkNowMv mv).pes 0 true).pes 1 false).pes 2 pin).modPower fun x => { x with pwrWarn := pin }
  if d.canBrace then d.brace (if pin then 2 else 1)
  else if d.devState = St.stowed && !d.power.awaiting.isEmpty then
    (((d.modPower fun x => { x with awaiting := [] }).stackOff).stacksRest true).pes 5 true
  else if d.outsideRun then d.stretchAll true
  else d

/-- The clear condition holds. A stack that a power event took down outside a run comes up with its next
power-up. -/
def Dev.clear (d : Dev) (mv : Nat) : Dev :=
  let d := ((((d.put Ent.vbulkNowMv mv).pes 0 false).pes 1 true).pes 2 false).modPower fun x => { x with pwrWarn := false }
  if d.devState = St.braced then
    (((d.stretchAll false).enterState d.power.before 0).powerCount 1).endCauses [1, 2, 5]
  else if d.outsideRun then d.stretchAll false
  else d

/-- A stack that must go down without an image (R482). -/
def Dev.powerDown (d : Dev) : Dev :=
  if d.power.stackUp then (d.stackLost 3 0x0109 0).pes 5 true else d

/-- The brace timer expires. -/
def Dev.braceTimer (d : Dev) : Dev :=
  if d.devState = St.braced then d.startStow 1
  else if d.outsideRun && d.pesBit 0 then d.powerDown
  else d

/-- Two samples below 4,200 mV. -/
def Dev.stowNow (d : Dev) (mv : Nat) : Dev :=
  let d := d.put Ent.vbulkNowMv mv
  if d.devState = St.braced then d.startStow 5
  else if d.canBrace then (d.brace 5).startStow 5
  else if d.outsideRun then d.powerDown
  else d

/-- Two samples below 3,950 mV. -/
def Dev.resetCrossing (d : Dev) (mv : Nat) : Dev :=
  let d := d.put Ent.vbulkNowMv mv
  if !d.power.stackUp then d
  else if d.power.stowing then d.forcedReset 0
  else (((d.fault 0x0107 Unit.girth mv).forcedReset 0x0107).pes 1 false).pes 5 true

/-! ### Domains and clocks lost (R446, R450, R456, R457, R614) -/

/-- A lost domain is counted and marked. -/
def Dev.domainLost (d : Dev) (k : Nat) : Dev := (d.bump Ent.girthEvents (2 * k) 2 1).putB Ent.domainStatus k 1 2

/-- 0x0230 and its forced stack reset; the third within 1,000 steps is fatal. -/
def Dev.lossReset (d : Dev) (detail : Nat) : Dev :=
  let near := d.stack.lossSteps.filter fun s => decide (d.faultStep ≤ s + 1000)
  let d := (d.fault 0x0230 Unit.girth detail).forcedReset 0x0230
  let d := { d with stack := { d.stack with lossSteps := d.faultStep :: near } }
  if 2 ≤ near.length then d.faultEnter 0x0231 Unit.girth detail else d

def Dev.domainLoss (d : Dev) (k : Nat) : Dev :=
  if 56 ≤ k || !d.power.stackUp then d else (d.domainLost k).lossReset k

def Dev.overvoltage (d : Dev) (mv : Nat) : Dev :=
  if d.power.stackUp then
    (((d.put Ent.vbulkNowMv mv).fault 0x0112 Unit.girth mv).lossReset 0xFF).pes 1 false
  else (d.put Ent.vbulkNowMv mv).fault 0x0112 Unit.girth mv

/-- A lost domain of R456; the stacks of a lost rail group lose their contents. -/
def Dev.peripheryLoss (d : Dev) (k : Nat) : Dev :=
  if k < 56 || 76 ≤ k then d
  else
    let d := d.domainLost k
    let d := if 68 ≤ k then
        let b := k - 68
        [2 * b, 2 * b + 1, 16 + b].foldl (fun d i => d.putB Ent.stackStatus i 1 0) d
      else d
    d.faultEnter 0x0233 (if k < 64 then Unit.billet (k - 56) else if k < 68 then Unit.selvage ((k - 64) / 2) else Unit.billet (k - 68)) k

def Dev.coilLost (d : Dev) (i : Nat) : Dev :=
  if 17 ≤ i || !d.power.stackUp then d else (d.fault 0x0234 (islandUnit i) i).forcedReset 0x0234

/-! ### Temperature (R628–R630) -/

/-- Sensor k of STACK_TEMPS, in units of 1/16 °C. -/
def Dev.temp (d : Dev) (k : Nat) : Int := signExt 16 (d.getB Ent.stackTemps (2 * k) 2)

def Dev.hottest (d : Dev) (from_ count : Nat) : Int :=
  (upTo count).foldl (fun m k => max m (d.temp (from_ + k))) (d.temp from_)

/-- The excess of island i, and whether a Felt or Girth term set it. -/
def Dev.excess (d : Dev) (i : Nat) : Int × Bool :=
  let tree := max (d.temp i - 95 * 16) (d.temp 16 - 95 * 16)
  let lower := max (d.hottest 17 16 - 100 * 16) (d.hottest 33 8 - 112 * 16)
  (max tree lower, decide (tree < lower))

/-- The 100 µs thermal control: the sensors' readings, and the islands whose excess has stayed below −3 °C for
1 ms. -/
def Dev.thermalControl (d : Dev) (temps : List Int) (cool : List Nat) : Dev :=
  let d := d.put Ent.stackTemps (leNat ((temps.take 41).flatMap fun t => leBytes 2 (ofInt 16 t)))
  (upTo 16).foldl (fun d i =>
    let e := d.excess i
    let k := (d.island i).thermal
    let k' := if 0 ≤ e.1 then min (k + 1) 8 else if cool.contains i then k - 1 else k
    let d := d.modIsland i fun x =>
      let x := { x with thermal := k' }
      if x.stretch = 12 then x else x.setStretch k'
    if k = 0 && k' != 0 then
      (if e.2 then d.faultOnce 0x0232 Unit.felt i else d.faultOnce 0x0110 (Unit.island i) i)
    else d) d

/-- A sensor reaches its trip limit (R629). -/
def Dev.thermalTrip (d : Dev) (sensor : Nat) : Dev :=
  let d := (d.fault 0x0111 Unit.device sensor).enterState St.faulted 0x0111
  let d := d.modPower fun x => { x with thermTrip := true, stowing := false, awaiting := [],
                                        saved := if x.stowing then none else x.saved }
  (d.pes 4 false).stackOff.stacksRest true

/-! ### The commands -/

def execWarnCondition (pin : Bool) (mv : Nat) : State → Host.Outcome State Fault Refusal := act fun d => d.warn pin mv
def execClearCondition (mv : Nat) : State → Host.Outcome State Fault Refusal := act fun d => d.clear mv
def execBraceTimerExpiry : State → Host.Outcome State Fault Refusal := act Dev.braceTimer
def execStowNowCrossing (mv : Nat) : State → Host.Outcome State Fault Refusal := act fun d => d.stowNow mv
def execResetCrossing (mv : Nat) : State → Host.Outcome State Fault Refusal := act fun d => d.resetCrossing mv
def execVbulkOvervoltage (mv : Nat) : State → Host.Outcome State Fault Refusal := act fun d => d.overvoltage mv
def execHoldQueryTimeout : State → Host.Outcome State Fault Refusal := act Dev.holdQueryTimeout
def execHoldLimit : State → Host.Outcome State Fault Refusal := act Dev.holdLimit
def execHold (port cause origin seq freeze : Nat) : State → Host.Outcome State Fault Refusal :=
  act fun d => d.holdIn (some port) cause origin seq freeze
def execRelease (port origin seq resume releaser : Nat) : State → Host.Outcome State Fault Refusal :=
  act fun d => d.releaseIn (some port) origin seq resume releaser
def execStowNotice (port origin seq : Nat) : State → Host.Outcome State Fault Refusal := act fun d => d.stowNoticeIn (some port) origin seq
def execHoldQuery (src seq : Nat) : State → Host.Outcome State Fault Refusal := act fun d => d.holdQueryIn src seq
def execDomainLoss (domain : Nat) : State → Host.Outcome State Fault Refusal := act fun d => d.domainLoss domain
def execPeripheryDomainLoss (domain : Nat) : State → Host.Outcome State Fault Refusal := act fun d => d.peripheryLoss domain
def execCoilLockLoss (island : Nat) : State → Host.Outcome State Fault Refusal := act fun d => d.coilLost island
def execThermalControl (temps : List Int) (cool : List Nat) : State → Host.Outcome State Fault Refusal :=
  act fun d => d.thermalControl temps cool
def execThermalTrip (sensor : Nat) : State → Host.Outcome State Fault Refusal := act fun d => d.thermalTrip sensor

end Sys2Proof.Machine
end

