-- ==== Sys2Proof/Machine/Time.lean ====
section
/-!
DEFINITION. Weave time: the choice of the root, SYNC and link delay, the discipline of the clock, PPS, and the
IEEE 1588 service (*Weave time and the time reference*). Stamps are operands of the commands, in the form of a
total; a command with a stamp brings the clock to it.
-/
namespace Sys2Proof.Machine
open Sys2Proof

def Dev.modTime (d : Dev) (f : TimeState → TimeState) : Dev := { d with time := f d.time }

/-- A flit of a class waits for a link credit. -/
def Link.starved (l : Link) (cls : Nat) : Bool :=
  [0, 1].any fun vc =>
    match l.out.find? fun o => o.cls == cls && o.vc == vc with
    | some o => !o.pieces.isEmpty && l.credits (2 * cls + vc) == 0
    | none => false

/-- The nanoseconds in which flits wait for link credits (R585). -/
def Dev.countStarved (d : Dev) (ns : Nat) : Dev :=
  (upTo 8).foldl (fun d p =>
    if d.carries p then
      (upTo 4).foldl (fun d c => if (d.link p).starved c then d.count (0x586 + 16 * p + c) ns else d) d
    else d) d

/-- Time passes to a total. Each second with no Pattern loaded is a fault step (R637). -/
def Dev.timeTo (d : Dev) (t : Nat) : Dev :=
  if t ≤ d.time.clock then d
  else
    let secs := t / clockSecond - d.time.clock / clockSecond
    let d := d.countStarved (t / 65536 - d.time.clock / 65536)
    let d := (d.modTime fun x => { x with clock := t }).bump Ent.powerOnS 0 8 secs
    if d.pat.loaded then d else d.bump Ent.faultStep 0 4 secs

/-- One nanosecond, and picoseconds, in clock units. -/
def clockNs : Int := 65536
def psUnits (ps : Int) : Int := ps * 65536 / 1000

/-! ### The root (R496–R498, R636) -/

/-- Candidate a is better than b: priority, then the lower device ID. -/
def betterRoot (a b : Nat × Nat) : Bool := decide (b.1 < a.1) || (a.1 == b.1 && decide (a.2 < b.2))

def Dev.rootPriority (d : Dev) : Nat := d.get Ent.timeRootPriority

/-- The best live candidate: priority and device ID. -/
def Dev.bestRoot (d : Dev) : Option (Nat × Nat) :=
  let own := if d.rootPriority = 0 then none else some (d.rootPriority, d.deviceId)
  (d.time.candidates.filter Candidate.live).foldl (fun best c =>
    match best with
    | none => some (c.priority, c.root)
    | some b => if betterRoot (c.priority, c.root) b then some (c.priority, c.root) else best) own

def Dev.isRoot (d : Dev) : Bool := d.time.root == some d.deviceId
def Dev.ppsEn (d : Dev) : Bool := bitOf (d.get Ent.timeInput) 0

/-- Time is acquired: LOGICAL_BEAT becomes the raw boundary index (R636). -/
def Dev.acquire (d : Dev) : Dev :=
  if d.time.acquired then d
  else ((d.modTime fun x => { x with acquired := true }).put Ent.logicalBeat d.rawIndex)

/-- The best live candidate becomes the root; a change is recorded (R498). A root without PPS_EN is locked at
once (R506). -/
def Dev.chooseRoot (d : Dev) : Dev :=
  let best := d.bestRoot.map Prod.snd
  let port := match best with
    | none => none
    | some r => (d.time.candidates.find? fun c => c.root == r && c.live).map Candidate.port
  if best = d.time.root then d.modTime fun x => { x with parent := port }
  else
    let d := if d.time.root.isSome then d.fault 0x0420 Unit.device (best.getD 0) else d
    let d := d.modTime fun x => { x with
      root := best, parent := port, inLock := 0, outOfRange := 0, holdover := false, rootLocked := false }
    if d.isRoot then
      let d := d.modTime fun x => { x with alignHold := false }
      if d.ppsEn then d else (d.modTime fun x => { x with rootLocked := true }).acquire
    else d

/-- SOURCE of this root (R506). -/
def Dev.timeSource (d : Dev) : Nat := if d.ppsEn && d.time.ppsLive then 1 else if d.ppsEn && d.time.ppsSeen then 2 else 3

/-- The payload of TIME_ANNOUNCE. -/
def announceBytes (source root priority hops : Nat) (frozen : Bool) (seq beat raw : Nat) : List Byte :=
  leBytes 1 0x10 ++ leBytes 1 source ++ leBytes 2 root ++ leBytes 1 priority ++ leBytes 1 hops ++ leBytes 1 (bitNat frozen)
    ++ leBytes 1 0 ++ leBytes 4 seq ++ leBytes 8 beat ++ leBytes 8 raw ++ List.replicate 212 0#8

/-- The count follows the domain's until the first Pattern load (R636). -/
def Dev.alignBeat (d : Dev) (frozen : Bool) (beat raw : Nat) : Dev :=
  if d.time.everLoaded || !d.time.acquired || d.isRoot then d
  else if frozen then (d.put Ent.logicalBeat beat).modTime fun x => { x with alignHold := true }
  else (d.put Ent.logicalBeat (beat + d.rawIndex - raw)).modTime fun x => { x with alignHold := false }

/-- TIME_ANNOUNCE received on a port. -/
def Dev.announceIn (d : Dev) (port source root priority hops : Nat) (frozen : Bool) (seq beat raw : Nat) : Dev :=
  if priority = 0 || root = d.deviceId then d
  else
    let old := d.time.candidates.find? fun c => c.root == root
    let fresh := match old with | some c => !c.live || decide (c.annSeq < seq) | none => true
    let nearer := match old with
      | some c => c.annSeq == seq && (decide (hops < c.hops) || (c.hops == hops && decide (port < c.port)))
      | none => false
    let c : Candidate := ⟨root, priority, source, hops, port, seq, true⟩
    let d := if fresh || nearer then
        d.modTime fun x => { x with candidates := (x.candidates.filter fun q => q.root != root) ++ [c] }
      else d
    let d := d.chooseRoot
    if d.time.root = some root then
      let d := d.alignBeat frozen beat raw
      if fresh then
        (d.floodPorts (some port)).foldl (fun d p => d.sendBy p FlitType.control 3 0 root d.deviceId
          (announceBytes source root priority (hops + 1) frozen seq beat raw)) d
      else d
    else d

/-- Every 62.5 ms the root floods its own ANNOUNCE. -/
def Dev.announceTimer (d : Dev) : Dev :=
  let d := d.chooseRoot
  if d.isRoot then
    let seq := d.time.annSeq + 1
    let d := d.modTime fun x => { x with annSeq := seq }
    d.flood none d.deviceId (announceBytes d.timeSource d.deviceId d.rootPriority 0 d.frozen seq (d.get Ent.logicalBeat) d.rawIndex)
  else d

/-- No ANNOUNCE of a candidate for 500 ms. -/
def Dev.candidateExpiry (d : Dev) (root : Nat) : Dev :=
  (d.modTime fun x => { x with candidates := x.candidates.map fun (c : Candidate) =>
    if c.root == root then { c with live := false } else c }).chooseRoot

/-- A device of priority 0 hears no candidate (R514). -/
def Dev.noRootCandidate (d : Dev) : Dev :=
  if d.rootPriority = 0 && d.bestRoot.isNone then d.fault 0x0424 Unit.device 0 else d

/-! ### SYNC (R499–R505) -/

/-- Link delay of a port: the mean of the last 8 measurements; 0 before the first (DESIGN CHOICE, log 28). -/
def Dev.linkDelay (d : Dev) (port : Nat) : Int :=
  let ms := sget [] d.time.delays port
  if ms.isEmpty then 0 else ms.foldl (· + ·) 0 / (ms.length : Int)

/-- An ingress stamp with the port's asymmetry. -/
def Dev.ingress (d : Dev) (port : Nat) (stamp : Nat) : Int :=
  (stamp : Int) + psUnits (signExt 16 (d.getB Ent.portAsymPs (2 * port) 2))

/-- The payload of TIME_SYNC. -/
def syncBytes (root seq origin : Nat) (corr : Int) : List Byte :=
  leBytes 1 0x11 ++ leBytes 1 0 ++ leBytes 2 root ++ leBytes 4 seq ++ leBytes 12 (timeWord origin) ++ leBytes 8 (ofInt 64 corr)
    ++ List.replicate 212 0#8

/-- An Int offset taken off the clock. -/
def Dev.stepClock (d : Dev) (o : Int) : Dev := d.modTime fun x => { x with clock := ((x.clock : Int) - o).toNat }

/-- Seconds, to the nearest, and what remains. -/
def nearestSeconds (o : Int) : Int × Int :=
  let s : Int := clockSecond
  let n := (o + s / 2) / s
  (n, o - n * s)

/-- The clock is disciplined with an offset: whole seconds, one step before READY, or a slew (R502, R507). The
result is the offset that remains. -/
def Dev.discipline (d : Dev) (o : Int) : Dev × Int :=
  let r := nearestSeconds o
  if r.1 != 0 && r.2.natAbs ≤ 1000 * 65536 && !d.pat.loaded then
    (((d.stepClock (r.1 * (clockSecond : Int))).fault 0x0426 Unit.device 0).modTime fun x => { x with slew := -r.2 }, r.2)
  else if !d.time.everReady && 1000 * 65536 < o.natAbs then ((d.stepClock o).modTime fun x => { x with slew := 0 }, 0)
  else (d.modTime fun x => { x with slew := -o }, o)

/-- The offset of a SYNC counts towards lock, or towards 0x0423 (R503, R505). -/
def Dev.judgeOffset (d : Dev) (o : Int) : Dev :=
  let far := decide (50 * 65536 < o.natAbs)
  let counts := far && d.pat.loaded && !d.frozen
  let d := d.modTime fun x => { x with
    holdover := false
    inLock := if o.natAbs ≤ 2 * 65536 then min 8 (x.inLock + 1) else 0
    outOfRange := if counts then x.outOfRange + 1 else 0 }
  if d.time.outOfRange = 8 then d.faultEnter 0x0423 Unit.device 0 else d

/-- TIME_SYNC: accepted on the parent port from the root; the copies leave at egress. A flit with RESENT set has no
stamp (R499), so neither step of R501 can be done with it: its SYNC moves no clock and is not copied (DEDUCED, log 113). The
filter and the frequency adjustment shown are the part's own (free values, log 7). -/
def Dev.syncIn (d : Dev) (port root seq origin : Nat) (corr : Int) (stamp egress : Nat) (resent : Bool) : Dev :=
  if resent || d.isRoot || d.time.root != some root || d.time.parent != some port then d
  else
    let d := d.timeTo stamp
    let s := d.ingress port stamp
    let delay := d.linkDelay port
    let residence := (egress : Int) - s
    let r := d.discipline (s - ((origin : Int) + corr + delay))
    let d := (r.1.acquire).judgeOffset r.2
    let f := d.freeNat 2
    let g := f.1.freeNat 3
    let d := g.1.modTime fun x => { x with offsetPs := f.2 % 2 ^ 32, freqPpb := g.2 % 2 ^ 32 }
    (d.floodPorts (some port)).foldl (fun d p => d.sendBy p FlitType.control 3 0 (d.neighbourId p) d.deviceId
      (syncBytes root seq origin (corr + delay + residence))) d

/-- The root sends SYNC on every UP port. -/
def Dev.syncTimer (d : Dev) (now : Nat) : Dev :=
  let d := d.timeTo now
  if d.isRoot then
    let seq := d.time.syncSeq + 1
    let d := d.modTime fun x => { x with syncSeq := seq }
    (d.floodPorts none).foldl (fun d p => d.sendBy p FlitType.control 3 0 (d.neighbourId p) d.deviceId
      (syncBytes d.deviceId seq d.time.clock 0)) d
  else d

/-- No SYNC for four intervals: holdover. -/
def Dev.syncLoss (d : Dev) : Dev :=
  if d.isRoot || d.time.parent.isNone || d.time.holdover then d
  else (d.modTime fun x => { x with holdover := true, inLock := 0 }).fault 0x0422 Unit.device 0

/-! ### Link delay (R500) -/

def Dev.delayMeasure (d : Dev) (now : Nat) : Dev :=
  let d := d.timeTo now
  (d.floodPorts none).foldl (fun d p =>
    let seq := d.time.delaySeq + 1
    let d := d.modTime fun x => { x with delaySeq := seq, delayReqs := sset none x.delayReqs p (some (seq, now)) }
    d.sendHop p (leBytes 1 0x12 ++ leBytes 3 0 ++ leBytes 4 seq ++ List.replicate 232 0#8)) d

/-- DELAY_REQ: answered with its ingress and the answer's egress. -/
def Dev.delayReq (d : Dev) (port seq t2 t3 : Nat) : Dev :=
  let d := (d.timeTo t2).timeTo t3
  let t2' := (d.ingress port t2).toNat
  d.sendHop port (leBytes 1 0x13 ++ leBytes 3 0 ++ leBytes 4 seq ++ leBytes 12 (timeWord t2') ++ leBytes 12 (timeWord t3)
    ++ List.replicate 208 0#8)

/-- DELAY_RESP: one measurement. -/
def Dev.delayResp (d : Dev) (port seq t2 t3 t4 : Nat) (resent : Bool) : Dev :=
  let d := d.timeTo t4
  match sget none d.time.delayReqs port with
  | none => d
  | some (q, t1) =>
    if q != seq then d
    else
      let d := d.modTime fun x => { x with delayReqs := sset none x.delayReqs port none }
      if resent then d
      else
        let m := ((d.ingress port t4 - (t1 : Int)) - ((t3 : Int) - (t2 : Int))) / 2
        d.modTime fun x => { x with delays := sset [] x.delays port ((m :: sget [] x.delays port).take 8) }

/-! ### PPS (R506, R507, R511) -/

/-- The clock's SECONDS become v at the second nearest to it. -/
def Dev.setSeconds (d : Dev) (v : Nat) : Dev :=
  let r := nearestSeconds (d.time.clock : Int)
  d.modTime fun x => { x with clock := ((v : Int) * (clockSecond : Int) + r.2).toNat, setPending := none }

/-- TIME_PPS_IN rises at a stamp. The first edge before READY sets the phase (DEDUCED, log 29). -/
def Dev.ppsEdge (d : Dev) (stamp : Nat) : Dev :=
  let d := d.timeTo stamp
  if !d.ppsEn || !d.isRoot then d
  else
    let e := (stamp : Int) - psUnits (signExt 32 (d.get Ent.ppsInDelayPs))
    let r := (nearestSeconds e).2
    let first := !d.time.ppsSeen && !d.time.everReady
    if r.natAbs ≤ 1000 * 65536 || first then
      let d := if 1000 * 65536 < r.natAbs then (d.stepClock r).modTime fun x => { x with slew := 0 }
        else d.modTime fun x => { x with slew := -r }
      let d := d.modTime fun x => { x with ppsSeen := true, ppsLive := true, rootLocked := true }
      let d := match d.time.setPending with | some v => d.setSeconds v | none => d
      d.acquire
    else d.fault 0x0425 Unit.device 0

/-- No valid edge for 2 s: holdover, or, when none came since the election, free run. -/
def Dev.ppsLoss (d : Dev) : Dev :=
  if !d.isRoot || !d.ppsEn then d
  else if d.time.ppsLive then (d.modTime fun x => { x with ppsLive := false }).fault 0x0421 Unit.device 0
  else if d.time.ppsSeen then d
  else (d.modTime fun x => { x with rootLocked := true }).acquire

/-- The next Weave second: PPS_OUT rises where it is driven. -/
def Dev.ppsOutPulse (d : Dev) : Dev :=
  let d := d.timeTo ((d.time.clock / clockSecond + 1) * clockSecond)
  if bitOf (d.get Ent.timeInput) 2 && (d.isRoot || d.timeLocked) then d.modTime fun x => { x with ppsOut := x.ppsOut + 1 }
  else d

/-- 0x3005:00 TIME_SET_S at a root with no Pattern loaded: at the next edge, or at once in free run. -/
def Dev.timeSet (d : Dev) (v : Nat) : Dev :=
  if d.timeSource = 3 then
    let ns := d.time.clock % clockSecond
    d.modTime fun x => { x with clock := v * clockSecond + ns, setPending := none }
  else d.modTime fun x => { x with setPending := some v }

/-- 0x3007:00 TIME_STATUS. -/
def Dev.timeStatus (d : Dev) : Nat :=
  let c := d.time.candidates.find? fun c => some c.root == d.time.root
  let state := if d.time.root.isNone then 0 else if d.isRoot then 4 else if d.time.holdover then 3
    else if d.time.inLock = 8 then 2 else 1
  leNat (leBytes 1 state ++ leBytes 1 (if d.isRoot then d.timeSource else (c.map Candidate.source).getD 0)
    ++ leBytes 2 (d.time.root.getD 0) ++ leBytes 1 (if d.isRoot then 0xFF else d.time.parent.getD 0xFF)
    ++ leBytes 1 (if d.isRoot then 0 else (c.map Candidate.hops).getD 0) ++ leBytes 2 0
    ++ leBytes 4 d.time.offsetPs ++ leBytes 4 d.time.freqPpb)

/-! ### IEEE 1588 service of the Bridle port (R512). Message layouts are those of IEEE 1588-2019 (PRESUMED,
log 30). -/

/-- The device's port identity: its EUI-64 and port 1. -/
def Dev.ptpIdentity (d : Dev) : List Byte := beBytes 8 (d.get Ent.eui64) ++ beBytes 2 1

def Dev.ptpClass (d : Dev) : Nat := if d.isRoot then (match d.timeSource with | 1 => 6 | 2 => 7 | _ => 248) else
  match (d.time.candidates.find? fun c => some c.root == d.time.root).map Candidate.source with
  | some 1 => 6
  | some 2 => 7
  | _ => 248

/-- The data set comparison: priority1, class, accuracy and variance, priority2, identity. -/
def Dev.ptpOwnSet (d : Dev) : List Nat :=
  [d.getB Ent.ptpConfig 2 1, d.ptpClass, 0x21, 0xFFFF, d.getB Ent.ptpConfig 3 1, d.get Ent.eui64]

def lexLess : List Nat → List Nat → Bool
  | a :: as, b :: bs => decide (a < b) || (a == b && lexLess as bs)
  | _, _ => false

/-- A message of the segment: Delay_Req is answered by the grandmaster; an Announce may show a better one. -/
def Dev.ptpFrame (d : Dev) (msg : List Byte) (stamp : Nat) : Dev :=
  let d := d.timeTo stamp
  let at_ (k n : Nat) : Nat := beNat ((msg.drop k).take n)
  if d.getB Ent.ptpConfig 0 1 % 2 = 0 || msg.length < 34 || at_ 1 1 % 16 != 2 || at_ 4 1 != d.getB Ent.ptpConfig 1 1 then d
  else if at_ 0 1 % 16 = 1 && !d.time.ptpPassive then
    let head := beBytes 1 9 ++ beBytes 1 0x12 ++ beBytes 2 54 ++ beBytes 1 (at_ 4 1) ++ beBytes 1 0 ++ beBytes 2 0
      ++ (msg.drop 8).take 8 ++ beBytes 4 0 ++ d.ptpIdentity ++ (msg.drop 30).take 2 ++ beBytes 1 3 ++ beBytes 1 0
    let body := beBytes 6 (stamp / clockSecond % 2 ^ 48) ++ beBytes 4 (stamp % clockSecond / 65536) ++ (msg.drop 20).take 10
    d.modTime fun x => { x with ptpOut := x.ptpOut ++ [head ++ body] }
  else if at_ 0 1 % 16 = 11 && 64 ≤ msg.length then
    let other := [at_ 47 1, at_ 48 1, at_ 49 1, at_ 50 2, at_ 52 1, at_ 53 8]
    if lexLess other d.ptpOwnSet then d.modTime fun x => { x with ptpPassive := true } else d
  else d

/-! ### The commands -/

def execTimeAnnounce (port source root priority hops : Nat) (frozen : Bool) (seq beat raw : Nat) :
    State → Host.Outcome State Fault Refusal := act fun d => d.announceIn port source root priority hops frozen seq beat raw
def execAnnounceTimer : State → Host.Outcome State Fault Refusal := act Dev.announceTimer
def execCandidateExpiry (root : Nat) : State → Host.Outcome State Fault Refusal := act fun d => d.candidateExpiry root
def execTimeSync (port root seq origin : Nat) (corr : Int) (stamp egress : Nat) (resent : Bool) :
    State → Host.Outcome State Fault Refusal := act fun d => d.syncIn port root seq origin corr stamp egress resent
def execSyncTimer (now : Nat) : State → Host.Outcome State Fault Refusal := act fun d => d.syncTimer now
def execSyncLoss : State → Host.Outcome State Fault Refusal := act Dev.syncLoss
def execDelayMeasureTimer (now : Nat) : State → Host.Outcome State Fault Refusal := act fun d => d.delayMeasure now
def execDelayReq (port seq t2 t3 : Nat) : State → Host.Outcome State Fault Refusal := act fun d => d.delayReq port seq t2 t3
def execDelayResp (port seq t2 t3 t4 : Nat) (resent : Bool) : State → Host.Outcome State Fault Refusal :=
  act fun d => d.delayResp port seq t2 t3 t4 resent
def execPpsEdge (stamp : Nat) : State → Host.Outcome State Fault Refusal := act fun d => d.ppsEdge stamp
def execPpsLoss : State → Host.Outcome State Fault Refusal := act Dev.ppsLoss
def execPpsOutPulse : State → Host.Outcome State Fault Refusal := act Dev.ppsOutPulse
def execNoRootCandidate : State → Host.Outcome State Fault Refusal := act Dev.noRootCandidate
def execPtpFrame (msg : List Byte) (stamp : Nat) : State → Host.Outcome State Fault Refusal := act fun d => d.ptpFrame msg stamp

end Sys2Proof.Machine
end

