-- ==== Sys2Proof/Machine/Tally.lean ====
section
/-!
DEFINITION. Periodic dumps, samples, shadows and the clearing of counters (*Tally performance counters*,
R586–R600). Counting itself is where the counted things happen.
-/
namespace Sys2Proof.Machine
open Sys2Proof

def Dev.modTally (d : Dev) (f : TallyState → TallyState) : Dev := { d with tally := f d.tally }

/-- A Tally vector, where it is enabled (R600). -/
def Dev.tallyVector (d : Dev) (v : Nat) : Dev := if bitOf (d.get Ent.tallyEventEnable) (v - 16) then d.msix v else d

/-- TALLY_CLEAR: the named groups are zero; bits 29 and 30 also reset the rings' words (R601). -/
def Dev.clearTally (d : Dev) (groups : Nat) : Dev :=
  let left := d.tally.counters.filter fun e => match tallyGroup e.1 with | some g => !bitOf groups g | none => true
  d.modTally fun x => { x with
    counters := left
    dumpSeq := if bitOf groups 29 then 0 else x.dumpSeq
    sampleWrite := if bitOf groups 30 then 0 else x.sampleWrite
    sampleRead := if bitOf groups 30 then 0 else x.sampleRead }

/-! ### Dumps (R592–R594, R599) -/

/-- The hub observes a beat that is a multiple of DUMP_BEATS: every counter is latched, or the latch is skipped
while the previous record is still being written. -/
def Dev.dumpLatch (d : Dev) : Dev :=
  let n := d.get Ent.dumpBeats
  let l := d.get Ent.logicalBeat
  if n = 0 || d.get Ent.dumpBase = 0 || l % n != 0 || d.tally.latchedAt = l + 1 then d
  else
    let seq := d.tally.dumpSeq + 1
    let d := d.modTally fun x => { x with dumpSeq := seq, latchedAt := l + 1 }
    match d.tally.dump with
    | some _ => (d.count 0x406 1).faultOnce 0x0911 Unit.hub 0
    | none =>
      let r : DumpRec := ⟨seq, l, d.timeNow, d.step, d.get Ent.patternDigest % 2 ^ 64, !d.power.stackUp, d.tally.counters⟩
      d.modTally fun x => { x with dump := some r }

/-- A counter as the record holds it. -/
def DumpRec.value (r : DumpRec) (n : Nat) : Nat :=
  if (tallyGroup n).isNone || (r.stackDown && (decide (n < 0x400) || decide (0x800 + 32 * 6 ≤ n))) then 0 else sget 0 r.counters n

/-- The 18,432 bytes of a dump record. -/
def Dev.dumpBytes (d : Dev) (r : DumpRec) : List Byte :=
  leBytes 4 0x594C4C54 ++ leBytes 2 d.deviceId ++ leBytes 2 (bitNat r.stackDown) ++ leBytes 8 r.seq ++ leBytes 8 r.beat
    ++ leBytes 12 r.time ++ leBytes 4 r.step ++ leBytes 8 r.digest8 ++ leBytes 16 0
    ++ ((upTo 0x600).flatMap fun n => leBytes 8 (r.value n))
    ++ ((upTo 0x2C0).flatMap fun k => leBytes 8 (r.value (0x800 + k))) ++ List.replicate 448 0#8

/-- The record's write completes; nothing moves in a beat pause. -/
def Dev.dumpDone (d : Dev) : Dev :=
  match d.tally.dump with
  | none => d
  | some r =>
    if d.contract.inPause then d
    else
      let slot := (r.seq - 1) % d.get Ent.dumpRecords
      let d := d.stackWrite (d.get Ent.dumpBase + 18432 * slot) (d.dumpBytes r)
      ((d.modTally fun x => { x with dump := none }).count 0x405 1).tallyVector 16

/-! ### Samples (R597–R600) -/

/-- A record is lost: counted at its island, 0x0912 once per step. Vector 18 is signalled, for this lost sample is the
first since the vector was last signalled (R600; DEDUCED, log 115). -/
def Dev.sampleLost (d : Dev) (island : Nat) : Dev :=
  ((d.count (64 * island + 31) 1).faultOnce 0x0912 Unit.hub 0).tallyVector 18

/-- One buffered record goes to the sample ring, or is lost where the ring is full. -/
def Dev.sampleStore (d : Dev) (island : Nat) (bytes : List Byte) : Dev :=
  let recs := d.get Ent.sampleRecords
  let w := d.tally.sampleWrite
  if recs ≤ w - d.tally.sampleRead then d.sampleLost island
  else
    let d := d.stackWrite (d.get Ent.sampleBase + 64 * (w % recs)) (bytes ++ leBytes 4 w ++ leBytes 12 0)
    let d := d.modTally fun x => { x with sampleWrite := w + 1 }
    if w + 1 - d.tally.sampleRead = d.getB Ent.sampleConfig 24 4 then d.tallyVector 17 else d

/-- The hub moves every buffered record on, outside a beat pause. -/
def Dev.sampleDrain (d : Dev) : Dev :=
  if d.contract.inPause then d
  else
    let q := d.tally.buffered
    q.foldl (fun d r => d.sampleStore r.1 r.2) (d.modTally fun x => { x with buffered := [] })

/-- LAT of a slot: the cycles from issue to its last effect (R597). -/
def SampleOpen.latency (o : SampleOpen) (slot : Nat) : Nat :=
  match nth none o.last slot with
  | some v => min (v - o.issue) 0xFFFF
  | none => 0

/-- The record's first 48 bytes, with LAT. -/
def SampleOpen.record (o : SampleOpen) : List Byte :=
  o.bytes.take 32 ++ (upTo 4).flatMap (fun k => leBytes 2 (o.latency k)) ++ o.bytes.drop 40

/-- Nothing of the operations that a sampled bundle issued is still to happen: the last latency is known (R598). -/
def Dev.sampleKnown (d : Dev) (o : SampleOpen) : Bool :=
  let x := d.panel o.panel
  let mine (c : Contrib) : Bool := c.sender == o.panel && c.issue == o.issue
  let items := (d.island (islandOf o.panel)).agenda
  !(items.any (fun t => t.panel == o.panel && t.issue == o.issue && decide (t.slot < 4) && t.work != .pathCycle o.panel)
    || (match x.load with | some j => j.issue == o.issue | none => false)
    || x.streams.any (fun j => j.issue == o.issue) || x.drains.any (fun j => j.issue == o.issue)
    || x.moves.any (fun j => j.issue == o.issue)
    || d.wide.inFlight.any mine || d.wide.adders.any (fun w => mine w.row) || d.wide.stalls.any (fun w => mine w.row)
    || d.wide.windows.any fun g => g.2.any fun w => mine w.row)

/-- The oldest open sample of a panel is complete, where its last latency is known. -/
def Dev.sampleComplete (d : Dev) (panel : Nat) : Dev :=
  match d.tally.opened.find? fun o => o.panel == panel with
  | none => d
  | some o =>
    if !d.sampleKnown o then d else
    let i := islandOf panel
    let d := d.modTally fun x => { x with opened := x.opened.erase o }
    if 64 ≤ (d.tally.buffered.filter fun b => b.1 == i).length then d.sampleLost i
    else (d.modTally fun x => { x with buffered := x.buffered ++ [(i, o.record)] }).sampleDrain

/-! ### Shadows (R591) -/

/-- The die that holds a TALLY_OPEN group refreshes the islands' shadows of its counters. -/
def Dev.shadowRefresh (d : Dev) (group : Nat) : Dev :=
  let mine := d.tally.counters.filter fun e => tallyGroup e.1 == some group
  let kept := d.tally.shadows.filter fun e => tallyGroup (e.1 % 4096) != some group
  d.modTally fun x => { x with
    shadows := (upTo 16).foldl (fun m i => mine.foldl (fun m e => sset 0 m (i * 4096 + e.1) e.2) m) kept }

/-! ### The commands -/

def execDumpLatch : State → Host.Outcome State Fault Refusal := act Dev.dumpLatch
def execDumpWriteDone : State → Host.Outcome State Fault Refusal := act Dev.dumpDone
def execSampleComplete (panel : Nat) : State → Host.Outcome State Fault Refusal := act fun d => d.sampleComplete panel
def execCounterShadowRefresh (group : Nat) : State → Host.Outcome State Fault Refusal := act fun d => d.shadowRefresh group

/-- BAR2 is served: the endpoint is ready, READY has been reached, and the stack is up (R569). R6 has an access end
in Completer Abort while the device is STOWED, R569 while the stack is not up; where a STOWED device has its stack up,
the model follows R569 (DESIGN CHOICE, log 97). -/
def Dev.bar2Ready (d : Dev) : Bool := d.power.endpoint && d.power.firstReady && d.power.stackUp && !d.power.perst

/-- The host writes SAMPLE_READ through BAR2, in the privileged view (R590, R591). -/
def execSampleReadWrite (value : Nat) : State → Host.Outcome State Fault Refusal :=
  act fun d => if d.bar2Ready then d.writeSampleRead value else d

end Sys2Proof.Machine
end

