-- ==== Sys2Proof/Machine/Sections.lean ====
section
/-!
DEFINITION. The tables of a Pattern image that the Tree holds, and the recovery copy (*The schedule contract* ›
The Pattern image, R223–R227, R273, R635). The spec gives the entries of sections 0x0002 to 0x0007 and not how
a section frames them; the frame is DESIGN CHOICE, log 31: a run of records, each a 16-byte head (U16 unit, U16
kind, U32 first, U32 count, 4 zero bytes) and its entries, padded to 16 bytes.
-/
namespace Sys2Proof.Machine
open Sys2Proof

/-- One record of a section: the unit (panel, island or region), the kind of entry, the first entry's number,
and the entries' bytes. -/
structure SecRec where
  unit : Nat
  kind : Nat
  first : Nat
  count : Nat
  data : List Byte
deriving DecidableEq, Repr

/-- Bytes of one entry, and how many units the section has: none for a kind it does not have. -/
def secEntry (type kind : Nat) : Option (Nat × Nat) :=
  if type = 2 && kind = 0 then some (32, 128)
  else if type = 3 && kind = 0 then some (32, 128)
  else if type = 4 && kind = 0 then some (4, 128)
  else if type = 5 && kind = 0 then some (64, 16)
  else if type = 5 && kind = 1 then some (4, 16)
  else if type = 6 && kind = 0 then some (16, 16)
  else if type = 7 && kind = 0 then some (32, 16)
  else if type = 7 && kind = 1 then some (2, 16)
  else none

/-- How many entries a unit holds. -/
def secLimit (type kind : Nat) : Nat :=
  if type = 2 then 8192 else if type = 3 then 64 else if type = 4 then 16
  else if type = 5 then (if kind = 0 then 2048 else 16) else if type = 6 then 1024
  else if kind = 0 then 512 else 0x40000000

/-- The records of a section: none where the framing is broken. fuel bounds the records. -/
def secRecords (type : Nat) : Nat → List Byte → Option (List SecRec)
  | 0, _ => none
  | _ + 1, [] => some []
  | k + 1, bs =>
    let r : SecRec := ⟨leAt bs 0 2, leAt bs 2 2, leAt bs 4 4, leAt bs 8 4, []⟩
    match secEntry type r.kind with
    | none => none
    | some (size, units) =>
      let n := size * r.count
      let all := 16 + ceilDiv n 16 * 16
      let first := if type = 7 && r.kind = 1 then r.first / 2 else r.first
      if bs.length < all || units ≤ r.unit || leAt bs 12 4 != 0 || secLimit type r.kind < first + r.count then none
      else (secRecords type k (bs.drop all)).map fun rs => { r with data := (bs.drop 16).take n } :: rs

def recordsOf (type : Nat) (bs : List Byte) : Option (List SecRec) := secRecords type (bs.length + 1) bs

/-- The entries of a record as numbers. -/
def SecRec.entries (r : SecRec) (size : Nat) : List (Nat × Nat) :=
  (upTo r.count).map fun k => (r.first + k, leAt r.data (size * k) size)

/-- A record goes to the table it names. -/
def Dev.placeRec (d : Dev) (type : Nat) (r : SecRec) : Dev :=
  if type = 2 then d.write (bundleBase r.unit + 32 * r.first) r.data
  else if type = 3 then d.write (addrTableBase r.unit + 32 * r.first) r.data
  else if type = 4 then
    d.modPanel r.unit fun x => { x with vconst := (r.entries 4).foldl (fun m e => sset f32Zero m e.1 (BitVec.ofNat 32 e.2)) x.vconst }
  else if type = 5 && r.kind = 0 then
    d.modIsland r.unit fun x => { x with requests :=
      ((upTo r.data.length).zip r.data).foldl (fun m b => sset 0#8 m (64 * r.first + b.1) b.2) x.requests }
  else if type = 5 then
    d.modIsland r.unit fun x => { x with consts := (r.entries 4).foldl (fun m e => sset f32Zero m e.1 (BitVec.ofNat 32 e.2)) x.consts }
  else if type = 6 then
    d.modIsland r.unit fun x => { x with statMap := (r.entries 16).foldl (fun m e => sset 0 m e.1 e.2) x.statMap }
  else if r.kind = 0 then d.write (wbEntAddr r.unit r.first) r.data
  else d.write r.first r.data

def Dev.placeSection (d : Dev) (type : Nat) (bs : List Byte) : Dev :=
  ((recordsOf type bs).getD []).foldl (fun d r => d.placeRec type r) d

/-! ### The recovery copy (R635, R273) -/

/-- Offsets of the copied sections, each on a 256-byte boundary. -/
def copyOffsets : List Nat → Nat → List Nat
  | [], _ => []
  | n :: ns, at_ => at_ :: copyOffsets ns (at_ + ceilDiv n 256 * 256)

/-- Bytes the copy needs: up to the end of the last section that is there. -/
def copyNeed (lens : List Nat) : Nat :=
  ((copyOffsets lens 0).zip lens).foldl (fun m p => if p.2 = 0 then m else p.1 + p.2) 0

/-- The sections that the recovery copy holds: type, address and length. -/
def Pattern.copies (p : Pattern) : List (Nat × Nat × Nat) :=
  ((upTo 5).zip ((copyOffsets p.copyLens 0).zip p.copyLens)).map fun q => (2 + q.1, p.copyBase + q.2.1, q.2.2)

/-- The tables are written back from the copy. A poisoned word in it ends the recovery with 0x0302. -/
def Dev.refill (d : Dev) : Dev :=
  d.pat.copies.foldl (fun d q =>
    let ws := d.poisonIn q.2.1 q.2.2
    let d := d.placeSection q.1 (d.read q.2.1 q.2.2)
    if ws.isEmpty then d else (ws.foldl (fun d w => d.poisonFault w Unit.felt) d).faultEnter 0x0302 Unit.device q.2.1) d

end Sys2Proof.Machine
end

