-- ==== Sys2Proof/Machine/Schedule.lean ====
section
/-!
DEFINITION. Beats, steps and runs (*The schedule contract*, R208–R222, R228–R229), with the witness run (R426)
and what the Shuttles do at each event (*Shuttle layout engine*).
-/
namespace Sys2Proof.Machine
open Sys2Proof

def Dev.modContract (d : Dev) (f : ContractState → ContractState) : Dev := { d with contract := f d.contract }
def Dev.beat (d : Dev) : Nat := d.get Ent.logicalBeat

/-! ### The beat (R208, R209, R465) -/

/-- Length of the beat pause in beats (R214). -/
def Dev.pauseBeats (d : Dev) : Nat := ceilDiv 4096 (d.get Ent.beatPeriodNs)

/-- The pause beat of the present step is observed. -/
def Dev.beatPause (d : Dev) (f : TuneF) : Dev :=
  if d.pat.loaded && d.power.stackUp && !d.contract.inPause && d.beat = d.startBeatOf d.step + d.pat.pauseOffset then d.pauseStart f else d

/-- The pause is over once its beats have passed; what waited for its end moves on (R599). -/
def Dev.pauseOver (d : Dev) : Dev :=
  if d.contract.inPause && decide (d.startBeatOf d.step + d.pat.pauseOffset + d.pauseBeats ≤ d.beat) then d.pauseEnd.sampleDrain else d

/-- Boundaries that the longest beat-unit wait has waited beyond its MAXWAIT (R221). -/
def Dev.waitLateness (d : Dev) : Nat :=
  (d.panels.map fun e => match e.2.held with
    | some h => if h.unit = 3 then h.beats - h.maxWait else 0
    | none => 0).foldl max 0

/-- The beats that boundary r brings are counted: the counter, each island's boundaries, and the waits that count
beats, whose lateness grows with them (R207, R148, R221, R585). -/
def Dev.countBeats (d : Dev) (k : Nat) : Dev :=
  let d := d.put Ent.logicalBeat (d.beat + k)
  let held := !d.wide.claims.isEmpty
  let stalled := if held then k else bitNat d.wide.heldInBeat
  let d := if stalled = 0 then d else d.bump Ent.stashStallBeats 0 (entSize Ent.stashStallBeats) stalled
  let d := { d with wide := { d.wide with heldInBeat := held } }
  if !d.power.stackUp then d
  else
    let d := (upTo 16).foldl (fun d i => d.count (64 * i + 29) k) d
    let d : Dev := { d with panels := smapv Panel.reset d.panels fun _ (x : Panel) => { x with held := x.held.map fun (h : Held) =>
        if h.unit = 3 then { h with beats := h.beats + k } else h } }
    let n := d.waitLateness
    if n = 0 then d else d.addLateness n

/-- The next raw boundary falls: Weave time comes to it, and it is observed or not. A STOW that waited for it
completes (R473). -/
def Dev.rawBoundary (d : Dev) : Dev :=
  let r := d.rawIndex + 1
  let d := d.timeTo (r * d.beatUnits)
  let b := d.boundaryBeats r
  let d :=
    if !b.1.time.acquired || b.1.time.alignHold then b.1
    else if b.2 = 0 then b.1.count 0x402 1
    else (b.1.countBeats b.2).pauseOver
  if d.power.stowing then d.stowComplete else d

/-! ### Steps (R210, R211) -/

/-- STRETCH_LAST and SLACK_MIN show the step that has been completed (R215). -/
def Dev.latchStep (d : Dev) : Dev :=
  let codes := (upTo 16).map fun i => BitVec.ofNat 8 (d.island i).stretchMax
  (d.put Ent.stretchLast (leNat codes)).put Ent.slackMin
    (match d.contract.slack with | some s => ofInt 32 s | none => 0x7FFFFFFF)

/-- What is observed over a step starts again. -/
def Dev.freshStep (d : Dev) : Dev :=
  { d with
    islands := smapv Island.reset d.islands fun _ (x : Island) => { x with stretchMax := x.stretch }
    contract := { d.contract with slack := none, lateness := 0 } }

/-- Bit 1 and the lateness of LATE_STATUS belong to one step. -/
def Dev.freshLate (d : Dev) : Dev := d.put Ent.lateStatus (d.get Ent.lateStatus % 256 - (if d.withheld then 2 else 0))

/-- A vote that is overdue at the start of step k (R365). -/
def Dev.voteOverdue (d : Dev) (k : Nat) : Dev :=
  if d.hasColl && d.devState != St.adopting && decide (d.coll.downStep + d.collHead.scaleLag < k) then
    (d.fault 0x0706 Unit.device (k - 1 - d.collHead.scaleLag)).withhold
  else d

/-- Panel p starts at a bundle with its loop counters and VSLOT at 0; its next pass of the step-entry bundle begins step
k. -/
def Dev.startPanel (d : Dev) (p addr k : Nat) : Dev :=
  d.modPanel p fun x => { x with
    pc := addr, rem := none, started := true, halted := false, haltedByFault := false, haltAtBoundary := false, frozen := false,
    held := none, stallFrom := none, its := [], vslot := 0, stepEntryReached := false, entryStep := k, lastIssue := (d.island (islandOf p)).cycle }

def Dev.maskPanels (d : Dev) : List Nat := (upTo 128).filter fun p => d.inMask p

/-- Each island posts a token to each panel's STEP_CTR, which its waits see two cycles later (R222, R633). -/
def Dev.postStep (d : Dev) (p : Nat) : Dev :=
  let i := islandOf p
  let c := (d.island i).cycle
  d.schedule ⟨c + 2, 0, p, c, 9, .token (d.stepCtr p) 1 0⟩ i

/-- Step 7 of recovery at the start of step k: the posts, and each panel starts at its STEP_ENTRY (R222). -/
def Dev.recoveryStart (d : Dev) (k : Nat) : Dev :=
  let d := d.maskPanels.foldl (fun d p => (d.postStep p).startPanel p (d.stepEntry p) k) d
  d.modContract fun c => { c with recoveryPending := false }

/-- The step counter takes the value k, and everything that is counted by the step starts again. -/
def Dev.beginStep (d : Dev) (k : Nat) : Dev :=
  let d := (((d.put Ent.stepCounter k).bump Ent.faultStep 0 4 1).count 0x400 1).freshStep.freshLate
  let d : Dev := { d with
    contract := { d.contract with
      nextStep := k + 1, poisonThisStep := false
      poisonSteps := if d.contract.poisonThisStep then d.contract.poisonSteps else 0 }
    coll := { d.coll with ownVoid := false, quietVoid := false }
    stack := { d.stack with failedStep := [] }
    resil := { d.resil with cleanAt := sset 0 (sclear d.resil.cleanAt 0 (k - 8)) k (d.get Ent.lsCleanSteps) } }
  let d := d.swapIn
  (upTo 64).foldl (fun (d : Dev) s => d.putB Ent.streamState (256 + 4 * s) 2 0) d

/-- A stack that a reset took down: the steps it is not back for are withheld, and a reloaded stack rejoins at
its step (R487). -/
def Dev.rejoin (d : Dev) (k : Nat) : Dev :=
  if d.reloadState = 0 then d
  else if d.reloadState = 3 && decide (d.getB Ent.stackResetStatus 8 4 ≤ k) then (d.recoveryStart k).putB Ent.stackResetStatus 1 1 0
  else d.withhold

/-- The run's last step has been completed: no further step starts (R211, R215, R229). -/
def Dev.lastStepOver (d : Dev) : Dev := d.latchStep.modContract fun c => { c with ended := true }

/-- A step's start beat is observed with the Pattern running, or waiting for a run (R210, R211, R637). -/
def Dev.stepStart (d : Dev) : Dev :=
  let k := d.contract.nextStep
  if !d.pat.loaded || d.frozen || decide (d.beat < d.startBeatOf k) then d
  else if k = 2 ^ 32 then
    (if d.inRun && !d.contract.ended then (d.fault 0x0509 Unit.device 0).lastStepOver else d)
  else if d.pat.lastStep < k then (if d.inRun && !d.contract.ended then d.lastStepOver else d)
  else if d.inState [St.running, St.held, St.braced] then
    let d := (d.latchStep.beginStep k).voteOverdue k
    let d := if d.contract.recoveryPending then d.recoveryStart k else d
    d.rejoin k
  else if d.devState = St.adopting then
    let d := d.beginStep k
    if d.adoptPhase = 5 then d.sendVoids true else d
  else (d.put Ent.stepCounter k).bump Ent.faultStep 0 4 1 |>.modContract fun c => { c with nextStep := k + 1 }

/-! ### Start and end of a run (R228, R229, R331) -/

/-- The step at which RUNNING begins. -/
def Dev.runStep (d : Dev) : Nat := if d.get Ent.runStartStep = 0 then d.pat.firstStep else d.get Ent.runStartStep

/-- Each sampler is loaded at Pattern start (R596). -/
def Dev.loadSamplers (d : Dev) : Dev :=
  let seed := d.getB Ent.sampleConfig 6 2
  let ss : Sparse Sampler := (upTo 128).foldl (fun m p => sset ⟨0, 0⟩ m p ⟨(seed + p) % 0xFFFF + 1, 0⟩) []
  { d with tally := { d.tally with samplers := ss } }

/-- The start beat of step s has been observed with no run to begin at it: it begins none later (R210, R228). -/
def Dev.passStep (d : Dev) (s : Nat) : Dev :=
  if d.contract.nextStep = s then ((d.put Ent.stepCounter s).bump Ent.faultStep 0 4 1).modContract fun c => { c with nextStep := s + 1 }
  else d

/-- The device is told of a start step, by entering LOADED or by a write, whose start beat is already past: it stays in
LOADED (R228). -/
def Dev.checkRunStep (d : Dev) : Dev :=
  if d.pat.loaded && decide (d.startBeat d.runStep ≤ (d.beat : Int)) then (d.fault 0x0508 Unit.device d.runStep).passStep d.runStep
  else d

/-- RUNNING is entered at the start beat of step s. -/
def Dev.enterRun (d : Dev) (s : Nat) : Dev :=
  let joins := d.devState == St.adopting
  let d := d.enterState (if d.power.holds.isEmpty then St.running else St.held) 0
  let d := (d.beginStep s).put Ent.lateStatus 0
  let d :=
    if joins then (d.setPhase 6).putB Ent.adoptStatus 8 4 s
    else
      let d := d.openColl s
      if d.get Ent.resilienceMode = 2 then d.sendHello else d
  let d := d.maskPanels.foldl (fun d p =>
    let first := fieldOf (sget 0 d.pat.panelTable p) 12 0
    d.startPanel p first (if first = d.stepEntry p then s else s + 1)) d
  let d := d.modContract fun c => { c with captured := none, ended := false, recoveryPending := false, recovered := 0 }
  ((d.loadSamplers).openQueues s).sendInits

/-- The hub observes the start beat of the run's first step. -/
def Dev.runStart (d : Dev) : Dev :=
  let s := d.runStep
  if !d.pat.loaded || d.contract.nextStep != s || d.frozen || decide (d.beat < d.startBeatOf s) || !d.power.stackUp then d
  else if d.devState = St.adopting && d.adoptPhase != 5 then
    (d.fault 0x073C Unit.device s).modContract fun c => { c with nextStep := s + 1 }
  else if d.inState [St.loaded, St.adopting] && d.resil.witnessFrom.isNone then
    if d.portsReady then d.enterRun s
    else (d.fault 0x040A Unit.device s).passStep s
  else d

/-- A panel is held at its step-entry wait, or waits for the start of step 7 of recovery. -/
def Dev.atStepEntry (d : Dev) (p : Nat) : Bool :=
  d.contract.recoveryPending || (match (d.panel p).held with | some h => h.ctr == d.stepCtr p && h.bundle == some (d.stepEntry p) | none => false)

/-- Every Shuttle queue is empty. -/
def Dev.queuesEmpty (d : Dev) : Bool := d.shuttles.all fun s => s.2.phase == 0 || s.2.prologue + s.2.body == 0

/-- The end of the run: every panel of the mask waits at its step entry and every queue is empty. The start beat of a run
that would begin at once is past (R228, R229). -/
def Dev.runEnd (d : Dev) : Dev :=
  let over_ := d.contract.ended || decide (d.startBeatOf (d.pat.lastStep + 1) ≤ d.beat)
  if d.devState = St.running && over_ && d.maskPanels.all d.atStepEntry && d.queuesEmpty && d.burnersIdle then
    (d.enterState St.loaded 0).checkRunStep
  else d

/-! ### Lateness and alarms (R186, R221) -/

def Dev.lateLimit (d : Dev) : Dev :=
  if d.inRun && decide (d.pat.lateLimit < d.contract.lateness) then d.faultEnter 0x0512 Unit.device d.contract.lateness else d

/-! ### Step recovery (R222) -/

/-- A panel of the mask is halted by a fault or by the halt-panel response. -/
def Dev.anyHalted (d : Dev) : Bool :=
  d.maskPanels.any fun p => (d.panel p).haltedByFault && ((d.panel p).halted || (d.panel p).haltAtBoundary)

/-- Step 3: OPEN and CLOSED entries become IDLE, the windows are cleared; in staggered mode the stash words too. -/
def Dev.clearWide (d : Dev) : Dev :=
  let ents := ((srange d.mem 0x200800000 0x200840000).map fun b => (b.1 - 0x200800000) / 32).foldl
    (fun l k => if l.contains k then l else l ++ [k]) []
  let d := ents.foldl (fun d k =>
    let e := d.wbEnt (k / 512) (k % 512)
    if e.valid && (e.state == 1 || e.state == 2) then
      let lo := k / 512 * 524288 + e.base
      ({ d with wide := { d.wide with progress := sclear d.wide.progress lo (lo + e.rows) } }).wbSet (k / 512) (k % 512) 0 0 e.step
    else d) d
  let d : Dev := { d with wide := { d.wide with windows := [], inFlight := [], stalls := [], adders := [] } }
  if d.get Ent.pipeMode = 1 then d.zeroRange stashBase 32 else d

/-- Steps 1 to 6; posts on their way at the recovery beat have come by step 2 and are zeroed with the counters. failing
lists, for panels whose accumulator is tested, how many rows fail. -/
def Dev.recover (d : Dev) (found : TuneF) (failing : List (Nat × Nat)) : Dev :=
  let tested := d.maskPanels.filter fun p => (d.panel p).accTest
  let d := d.maskPanels.foldl (fun d p => (d.panelReset p).modPanel p fun x => { x with alarm0 := none, alarm1 := none }) d
  let d := (upTo 16).foldl (fun d i => ((d.engineReset i).shuttleReset i).modIsland i fun x => { x with
    tokens := [], agenda := x.agenda.filter fun t => match t.work with | .token _ _ _ => false | _ => true }) d
  let d := d.modContract fun c => { c with transit := [] }
  let d := d.clearWide
  let d := (upTo 12).foldl (fun d k => d.discardUnstarted (16 + k)) d
  let d := (upTo 28).foldl (fun d n => d.modShuttle n fun s => if s.phase = 0 then s else { s with step := d.step }) d
  let d := tested.foldl (fun d p => d.accRepair p (((failing.find? fun f => f.1 == p).map Prod.snd).getD 0)) d
  let d := d.recoveryTests found
  let n := if d.contract.poisonThisStep then d.contract.poisonSteps + 1 else 0
  let d := d.modContract fun c => { c with recoveryPending := true, poisonSteps := n }
  let d := ((d.refill).fault 0x0511 Unit.device 0).count 0x401 1
  let late := d.get Ent.lateStatus
  let d := d.put Ent.lateStatus (setBit (setBit late 0 false) 2 true)
  if n = 3 then d.faultEnter 0x0302 Unit.device 0 else d

/-- The recovery beat of the next step is observed. -/
def Dev.stepRecovery (d : Dev) (found : TuneF) (failing : List (Nat × Nat)) : Dev :=
  let due := decide (d.startBeatOf (d.step + 1) ≤ d.beat + d.pat.recoveryBeats) && d.contract.recovered != d.step + 1
  if !d.pat.loaded || !d.inState [St.running, St.held, St.braced] || !d.clocked || d.frozen || !due then d
  else
    let d := d.modContract fun c => { c with recovered := d.step + 1 }
    if d.withheld || d.anyHalted then d.recover found failing else d.put Ent.lateStatus (setBit (d.get Ent.lateStatus) 2 false)

/-! ### The witness run (R426) -/

/-- Section 0x0009: REPLAY_BEATS, REPLAY_AREA, and a panel's REPLAY_ENTRY. -/
def Dev.replayBeats (d : Dev) : Nat := leAt (d.section 0x0009) 4 4
def Dev.replayArea (d : Dev) : Nat := leAt (d.section 0x0009) 16 8
def Dev.replayEntry (d : Dev) (p : Nat) : Nat := leAt (d.section 0x0009) (64 + 2 * p) 2

/-- The witness beat is observed: panels with an entry start in pair mode, and every Shuttle runs one body. -/
def Dev.witnessStart (d : Dev) : Dev :=
  let b := d.get Ent.witnessBeat
  match d.resil.restored with
  | none => d
  | some n =>
    if !d.resil.armed || d.resil.witnessFrom.isSome || d.devState != St.loaded || d.frozen || decide (d.beat < b) then d
    else
      let d := { d with resil := { d.resil with armed := false, witnessFrom := some b } }
      let d := d.put Ent.witnessStatus 1
      let d := (d.maskPanels.filter fun p => bitOf (d.replayEntry p) 15).foldl (fun d p =>
        (d.startPanel p (d.replayEntry p % 8192) (n + 1)).modPanel p fun x => { x with pairMode := true, fillB := false }) d
      (upTo 28).foldl (fun d m =>
        let s := d.shuttle m
        if s.body = 0 then d
        else (d.modShuttle m fun s => { s with
          phase := 2, step := n, next := s.prologue + n % s.period * s.body, left := s.body, opening := false, completed := 0 }).endOfBody m) d

/-- The witness run ends: the losses are compared. A device without LAST_STAGE has no record (log 32). -/
def Dev.witnessEnd (d : Dev) : Dev :=
  match d.resil.witnessFrom with
  | none => d
  | some b =>
    if d.beat < b + d.replayBeats then d
    else
      let d := { d with resil := { d.resil with witnessFrom := none } }
      let d := d.maskPanels.foldl (fun d p => (d.modPanel p fun x => { x with pairMode := false }).panelReset p) d
      let d : Dev := (upTo 28).foldl (fun (d : Dev) m => (d.shuttleReset m).modShuttle m fun s => { s with phase := 0 }) d
      if !d.lastStage || !d.resil.witnessValid then d.put Ent.witnessStatus 4
      else if d.read d.replayArea (4 * d.lossRows) = d.resil.witnessRows then d.put Ent.witnessStatus 2
      else (d.put Ent.witnessStatus 3).fault 0x0739 Unit.device 0

/-! ### The commands -/

def execRawBoundary : State → Host.Outcome State Fault Refusal := act Dev.rawBoundary
def execStepStart : State → Host.Outcome State Fault Refusal := act Dev.stepStart
def execRunStart : State → Host.Outcome State Fault Refusal := act Dev.runStart
def execRunEnd : State → Host.Outcome State Fault Refusal := act Dev.runEnd
def execStepRecovery (found : TuneF) (failing : List (Nat × Nat)) : State → Host.Outcome State Fault Refusal :=
  act fun d => d.stepRecovery found failing
def execBeatPause (found : TuneF) : State → Host.Outcome State Fault Refusal := act fun d => d.beatPause found
def execLateLimitExceeded : State → Host.Outcome State Fault Refusal := act Dev.lateLimit
def execBeatAlarmFire (a : At) (alarm : Nat) : State → Host.Outcome State Fault Refusal :=
  act fun d => d.onIsland (islandOf a.panel) a.cycle fun c d => d.fireAlarm a.panel c alarm
def execWitnessRunStart : State → Host.Outcome State Fault Refusal := act Dev.witnessStart
def execWitnessRunEnd : State → Host.Outcome State Fault Refusal := act Dev.witnessEnd
def execShuttleBodyStart (shuttle : Nat) : State → Host.Outcome State Fault Refusal := act fun d => d.startBody shuttle
def execDescriptorStart (shuttle : MetShuttle) : State → Host.Outcome State Fault Refusal :=
  act fun d => d.startDesc shuttle.shuttle shuttle.meets
def execStreamCreditTake (shuttle : Nat) : State → Host.Outcome State Fault Refusal := act fun d => d.takeCredits shuttle
def execShuttlePosition (shuttle : MetShuttle) : State → Host.Outcome State Fault Refusal :=
  act fun d => d.position shuttle.shuttle shuttle.meets
def execDescriptorComplete (shuttle cycle : Nat) : State → Host.Outcome State Fault Refusal := act fun d => d.completeDesc shuttle cycle

end Sys2Proof.Machine
end

