-- ==== Sys2Proof/Machine/Engines.lean ====
section
/-!
DEFINITION. The commands of the row engines and of the backward-pass structures (*Row engine and vector unit*,
*Backward-pass structures*).
-/
namespace Sys2Proof.Machine
open Sys2Proof

/-! ### Rows of a request (R91, R92, R101–R113, R122) -/

/-- What the Felt inputs of row r of a request meet: an error of the first word, or a first line that came late and
gave unspecified contents (R202, R272, R273). -/
def Dev.reMeet (d : Dev) (i : Nat) (x : ReRun) (u : Upset) : Dev × ReRun :=
  let unit := Unit.island i
  match x.fields.runs x.next with
  | [] => (d, x)
  | (a, n) :: _ =>
    match u with
    | .feltCorrected => (d.feltCorrected a, x)
    | .feltWord => ((d.poisonWord (a / 8)).meetPoison (a / 8 * 8) 8 unit, x)
    | .lateAccess other =>
      let k := min n (256 - a % 256)
      let f := (d.sentinel unit a other (.island i)).freeBytes k
      let late (t : Nat × List Byte × List Byte × List Byte) : Nat × List Byte × List Byte × List Byte :=
        if t.1 != x.next then t
        else if !t.2.1.isEmpty then (t.1, f.2 ++ t.2.1.drop k, t.2.2)
        else if !t.2.2.1.isEmpty then (t.1, t.2.1, f.2 ++ t.2.2.1.drop k, t.2.2.2)
        else (t.1, t.2.1, t.2.2.1, f.2 ++ t.2.2.2.drop k)
      (f.1, { x with fetched := x.fetched.map late })
    | .commandWord => (d.lostCommand unit, x)
    | _ => (d, x)

/-- The next row of an island's running request, where its operation is the one named and its inputs are there. A
stalled or frozen engine processes nothing. -/
def Dev.reRowEvent (d : Dev) (i cycle op : Nat) (u : Upset) : Dev :=
  d.onIsland i cycle fun c d =>
    match (d.island i).running with
    | none => d
    | some x =>
      if x.fields.op != op || decide (x.fields.rows ≤ x.next) || d.stalled (128 + i) || (d.island i).reFrozen then d
      else
        match u with
        | .uncorrectable => d.engineError i
        | _ =>
          let d := match u with
            | .corrected => d.bump Ent.sideErrCount (4 * i) 2 1
            | _ => d
          if op = 7 then d.reDoFin i x
          else match x.inputAt x.next with
            | some a => if a ≤ c then let m := d.reMeet i x u; m.1.reDoRow i m.2 a else d
            | none => d

def execReRequestStart (island cycle : Nat) : State → Host.Outcome State Fault Refusal :=
  act fun d => d.onIsland island cycle fun c d => d.reStart island c
def execReLnFwd (island cycle : Nat) (u : Upset) : State → Host.Outcome State Fault Refusal :=
  act fun d => d.reRowEvent island cycle 0x01 u
def execReLnBwd (island cycle : Nat) (u : Upset) : State → Host.Outcome State Fault Refusal :=
  act fun d => d.reRowEvent island cycle 0x02 u
def execReRmsFwd (island cycle : Nat) (u : Upset) : State → Host.Outcome State Fault Refusal :=
  act fun d => d.reRowEvent island cycle 0x03 u
def execReRmsBwd (island cycle : Nat) (u : Upset) : State → Host.Outcome State Fault Refusal :=
  act fun d => d.reRowEvent island cycle 0x04 u
def execReSmaxFwd (island cycle : Nat) (u : Upset) : State → Host.Outcome State Fault Refusal :=
  act fun d => d.reRowEvent island cycle 0x05 u
def execReSmaxBlk (island cycle : Nat) (u : Upset) : State → Host.Outcome State Fault Refusal :=
  act fun d => d.reRowEvent island cycle 0x06 u
def execReSmaxFin (island cycle : Nat) (u : Upset) : State → Host.Outcome State Fault Refusal :=
  act fun d => d.reRowEvent island cycle 0x07 u
def execReSmaxBwd (island cycle : Nat) (u : Upset) : State → Host.Outcome State Fault Refusal :=
  act fun d => d.reRowEvent island cycle 0x08 u
def execReRowdot (island cycle : Nat) (u : Upset) : State → Host.Outcome State Fault Refusal :=
  act fun d => d.reRowEvent island cycle 0x09 u
def execReXentStat (island cycle : Nat) (u : Upset) : State → Host.Outcome State Fault Refusal :=
  act fun d => d.reRowEvent island cycle 0x0A u
def execReXentGrad (island cycle : Nat) (u : Upset) : State → Host.Outcome State Fault Refusal :=
  act fun d => d.reRowEvent island cycle 0x0B u
def execReWmax (island cycle : Nat) (u : Upset) : State → Host.Outcome State Fault Refusal :=
  act fun d => d.reRowEvent island cycle 0x0C u
def execReTopk (island cycle : Nat) (u : Upset) : State → Host.Outcome State Fault Refusal :=
  act fun d => d.reRowEvent island cycle 0x0D u

/-! ### Wide buffer and stash (R137–R139, R146) -/

/-- A row from a sender, panel p or 128 + island, reaches its tile. -/
def execWbContributionRow (sender cycle : Nat) : State → Host.Outcome State Fault Refusal :=
  act fun d => d.onIsland (if sender < 128 then islandOf sender else sender - 128) cycle fun c d => d.wbArrive sender c
/-- A bank group of the Felt is numbered by address divided by 4 MiB. -/
def execWbEarlyRowApply (group cycle : Nat) : State → Host.Outcome State Fault Refusal :=
  act fun d => d.onIsland (group / 32) cycle fun c d => d.wbEarlyApply group c
def execWbSenderStallLimit (sender cycle : Nat) : State → Host.Outcome State Fault Refusal :=
  act fun d => d.onIsland (if sender < 128 then islandOf sender else sender - 128) cycle fun c d => d.wbStallLimit sender c
def execStashClaimGrant (entry : Nat) : State → Host.Outcome State Fault Refusal :=
  act fun d => if d.power.stackUp then d.grantClaim entry else d

end Sys2Proof.Machine
end

