-- ==== Sys2Proof/Machine/BankCheck.lean ====
section
/-!
DEFINITION. The loader's bank check (R198, R227 check 13): one step of an island, run on the device as the image would
leave it, with the Felt line accesses of each bank cycle.
-/
namespace Sys2Proof.Machine
open Sys2Proof

/-! ### The line accesses of an item (R197) -/

/-- The Felt lines that n bytes at an address touch, as line numbers. -/
def linesOf (a n : Nat) : List Nat :=
  if n = 0 || decide (feltSize ≤ a) then [] else (upTo ((a + n - 1) / 256 + 1 - a / 256)).map (· + a / 256)

/-- The bank of a line: its region and group, then its bank within the group (R196). -/
def bankOf (line : Nat) : Nat := line / 16384 * 8 + line % 8

/-- The lines that a fetch of runs reads as its held bytes grow from pos to need, each in the cycle of its first byte. -/
def runLines (src : List (Nat × Nat)) (need : Nat) : Nat → Nat → List Nat
  | 0, _ => []
  | k + 1, pos =>
    if need ≤ pos then []
    else
      let r := runAt src pos
      if r.2 = 0 then [] else linesOf r.1 r.2 ++ runLines src need k (pos + r.2)

/-- Part of an activation row: its address and length. -/
def rowPart (a n part : Nat) (felt : Bool) : Nat × Nat :=
  let k := if felt then firstPart a n else n
  if part = 0 then (a, k) else (a + k, n - k)

/-- Lines that a panel's input path reads in one delivery cycle, from the panel before it and after it. -/
def pathLines (x y : Panel) : List Nat :=
  let load := match x.load, y.load with
    | some j, some k => runLines j.src k.got.length 300 j.got.length
    | _, _ => []
  load ++ x.moves.flatMap fun j => match y.moves.find? fun k => k.issue == j.issue with
    | some k => runLines j.runs k.got.length 300 j.got.length
    | none => []

/-- The lines that the engine's running request reads for a part of a row. -/
def ReRun.partLines (x : ReRun) (r part : Nat) : List Nat :=
  let total := (x.fields.inputs.map Prod.fst).foldl (· + ·) 0
  runLines (x.fields.runs r) (min total (256 * (part + 1))) 300 x.got.length

/-- The line accesses of an item of island i that turned d into e. Contribution rows take no bank cycle (R199). -/
def Dev.itemLines (d e : Dev) (i : Nat) (w : Deferred) : List Nat :=
  match w with
  | .bits a n _ _ => linesOf a n
  | .streamRead p issue row part => match (d.panel p).streams.find? fun s => s.issue == issue with
    | some s => let r := rowPart (s.addr + row * s.pitch) (actLen s.typ) part (s.src == 0); linesOf r.1 r.2
    | none => []
  | .bcastRead lead ch issue row part => match (d.island i).bcasts.find? fun j => j.lead == lead && j.ch == ch && j.issue == issue with
    | some j => let r := rowPart (j.addr + row * j.pitch) (actLen j.typ) part true; linesOf r.1 r.2
    | none => []
  | .pathCycle p => pathLines (d.panel p) (e.panel p)
  | .reRead r part => match (d.island i).running with
    | some x => x.partLines r part
    | none => []
  | .reRow _ _ addr _ _ _ => match (d.island i).running with
    | some x => linesOf addr (match reKind x.fields.op with | some k => statSize k | none => 0)
    | none => []
  | .reFin first n _ => match (d.island i).running with
    | some x => ((upTo n).map (· + first)).flatMap fun r => match d.rePlace i x r with
      | some (some p) => if p.1 then linesOf p.2 8 else []
      | _ => []
    | none => []
  | .vreg _ _ _ | .token _ _ _ | .landRow _ _ | .drainRow _ _ _ | .zeroRows _ _ _ _ _ | .moveRow _ _ _ | .turnRow _ _ _
  | .turnHalf _ _ _ | .reDone _ | .reArrive _ _ | .reAccept _ | .stash _ _ _ | .wbRow _ => []

/-! ### One step of an island -/

/-- What the island's units do next apart from its agenda, each with its cycle: the running request's next row, the next
request's start, a held bundle that its counter covers now, a bundle that is due. -/
def Dev.turns (d : Dev) (i : Nat) : List (Nat × (Dev → Dev)) :=
  let s := d.island i
  let now := s.cycle
  let row : List (Nat × (Dev → Dev)) := match s.running with
    | some x =>
      if decide (x.fields.rows ≤ x.next) || d.stalled (128 + i) || s.reFrozen then []
      else if x.fields.op = 7 then [(now, fun d => d.reDoFin i x)]
      else match x.inputAt x.next with
        | some a => [(max a now, fun d => d.reDoRow i x a)]
        | none => []
    | none => []
  let start : List (Nat × (Dev → Dev)) := match s.nextStart with
    | some st => if s.reFrozen then [] else [(max st now, fun d => d.reStart i (max st now))]
    | none => []
  let panels : List (Nat × (Dev → Dev)) := (upTo 8).flatMap fun k =>
    let p := 8 * i + k
    let x := d.panel p
    if !d.canIssue p || d.stalled p then []
    else match x.held with
      | some h => if h.n ≤ d.leftFor p h.ctr then [(now, fun d => d.evWaitSatisfied ⟨p, now⟩ ⟨.none, .none, .none⟩)] else []
      | none =>
        let due := match d.fetchBundle p with
          | .ok b => max (x.lastIssue + b.2.delay) (x.stallFrom.getD 0)
          | .error _ => now
        [(due, fun d => d.evBundle p .none ⟨.none, .none, .none⟩)]
  row ++ start ++ panels

/-- The earliest of what is next; the first of those in one cycle. -/
def earliest : List (Nat × (Dev → Dev)) → Option (Nat × (Dev → Dev))
  | [] => none
  | x :: xs => match earliest xs with
    | some y => if y.1 < x.1 then some y else some x
    | none => some x

/-- Two line accesses of one bank. -/
def banksMeet : List Nat → Bool
  | [] => false
  | b :: bs => bs.contains b || banksMeet bs

/-- An island goes on until nothing more can happen in it without a token from outside. The result is true where a bank
receives two line accesses in one bank cycle; cycle and seen are the latest bank cycle and its banks so far. -/
def Dev.bankClash (i : Nat) : Nat → Dev → Nat → List Nat → Bool
  | 0, _, _, _ => false
  | k + 1, d, cycle, seen =>
    let next := earliest (d.turns i)
    let first : Option Item := match (d.island i).agenda with
      | t :: _ => if (match next with | some n => decide (t.cycle ≤ n.1) | none => true) then some t else none
      | [] => none
    match first, next with
    | some t, _ =>
      let d := d.modIsland i fun s => { s with agenda := s.agenda.tail, cycle := max s.cycle t.cycle }
      let e := d.runItem i t
      let banks := (if t.cycle = cycle then seen else []) ++ (d.itemLines e i t.work).map bankOf
      if banksMeet banks then true else Dev.bankClash i k e t.cycle banks
    | none, some n => Dev.bankClash i k (n.2 (d.modIsland i fun s => { s with cycle := max s.cycle n.1 })) cycle seen
    | none, none => false

/-- Check 13 of R227 on the device as the image would leave it: every panel of the mask starts at its STEP_ENTRY in one
cycle with its step's token posted, no page is refilled, and a token from another island, a Shuttle or a beat comes only
after all that needs none (DEDUCED, log 9). -/
def Dev.bankCheck (trial : Dev) : Bool :=
  let d := trial.maskPanels.foldl (fun d p => (d.postStep p).startPanel p (d.stepEntry p) 0) trial
  (upTo 16).any fun i => Dev.bankClash i 16777216 d 0 []

end Sys2Proof.Machine
end

