-- ==== Sys2Proof/Machine/Fabric.lean ====
section
/-!
DEFINITION. The Weave's receiving side (*Weave fabric and the global memory space*): flits at a port, transit,
requests and control messages for this device, completions, time-outs, lost links, and the commands of this
chapter.
-/
namespace Sys2Proof.Machine
open Sys2Proof

/-! ### Completions at the requester (R313, R316) -/

/-- A request of this device completes; a completion of one already complete is discarded. -/
def Dev.completeReq (d : Dev) (reqId status : Nat) (data : List Byte) : Dev :=
  match d.weave.pends.find? fun p => p.shuttle * 2048 + p.num == reqId with
  | none => d
  | some p =>
    let d := { d with weave := { d.weave with pends := d.weave.pends.filter fun q => q.shuttle * 2048 + q.num != reqId } }
    let d := d.countStatus status
    let d := if p.cls = 0 && p.sentAt.isSome then d.hist 3 ((d.measured - p.leftAt) / 65536) else d
    match p.purpose with
    | .shuttle index pos addr => d.shuttleCompleted p.shuttle index pos 1 addr status
    | .fetch index pos addr =>
      let d := if status = 0 then d.modRun p.shuttle index fun x => { x with fetched := x.fetched ++ [(addr, data)] } else d
      d.shuttleCompleted p.shuttle index pos 0 addr status
    | .mirror b => d.mirrorCompleted b status
    | .remirror b => d.mirrorCompleted b status
    | .snapshot b => d.snapshotCompleted b status
    | .restore b area => d.restoreCompleted b area status data

/-- A completion of this device's own, or one that comes up a multicast tree. Those of a STOWED device go to the
log of R475; reduce requests carry REQ_ID 0xFFFF. -/
def Dev.completionIn (d : Dev) (c : CompIn) : Dev :=
  if d.weave.combines.any fun x => x.group == c.group && x.reqId == c.reqId && x.waiting.contains c.port then
    let r := d.mcastCompletion c.port c.group c.reqId c.status
    match r.2 with
    | some (id, status) => r.1.completeReq id status []
    | none => r.1
  else if d.devState == St.stowed && !d.power.serving then d.modPower fun x => { x with completions := x.completions ++ [c] }
  else if c.reqId = 0xFFFF then d.reduceCompleted c.src c.status
  else d.completeReq c.reqId c.status []

/-- GET_RSP data at the requester. -/
def Dev.getRspIn (d : Dev) (src reqId : Nat) (data : List Byte) : Dev :=
  if d.holdsMsgs then d.holdMsg (.rsp src reqId data) else d.completeReq reqId 0 data

/-- A multicast request that arrives. -/
def Dev.mcastIn (d : Dev) (port group : Nat) (r : ReqF) : Dev :=
  let m := d.mcastAt (some port) group r
  match m.2 with
  | some (id, status) => m.1.completeReq id status []
  | none => m.1

/-- The timer of a request runs out (R316): not while the device is HELD, nor in L1 (R488). -/
def Dev.requestTimeout (d : Dev) (reqId : Nat) : Dev :=
  let due := d.weave.pends.any fun p => p.shuttle * 2048 + p.num == reqId &&
    (match p.sentAt with | some t => decide (t + d.get Ent.e2eTimeoutUs * clockUs ≤ d.time.clock) | none => false)
  if due && d.power.holds.isEmpty && d.get Ent.lpState != 1 then d.completeReq reqId 6 [] else d

/-! ### Messages for this device (R311, R325, R330, R347) -/

/-- The head of a request and its data. DESIGN CHOICE (log 96): reserved payload bytes, here and in the messages
below, are ignored whatever they hold: R300 states a response to reserved header bits alone. -/
def reqOf (h : FlitHdr) (bs : List Byte) : ReqF :=
  let n := leAt bs 8 4 % 2 ^ 24 + 1
  { src := h.src, tag := h.tag, cls := h.cls, late := h.late, addr := leAt bs 0 8, reqId := leAt bs 12 2,
    op := leAt bs 14 1, stream := leAt bs 15 1, token := leAt bs 16 4, len := n, data := (bs.drop 32).take n }

def creditOf (h : FlitHdr) (bs : List Byte) : CreditF := ⟨h.src, leAt bs 0 1, leAt bs 1 1, leAt bs 3 1, leAt bs 4 2⟩

/-- Something reserved arrived on a port: discarded (R300, R330). -/
def Dev.reservedFlit (d : Dev) (port what : Nat) : Dev := d.faultOnce 0x0404 (Unit.port port) what

def Dev.creditMsg (d : Dev) (port : Nat) (h : FlitHdr) (bs : List Byte) : Dev :=
  match leAt bs 2 1 with
  | 1 => d.creditInit (creditOf h bs)
  | 2 => d.creditReturn (creditOf h bs)
  | k => d.reservedFlit port k

/-- A REDUCE request, by its kind; one of no listed kind is refused as R350 refuses (DESIGN CHOICE, log 119). -/
def Dev.reduceMsg (d : Dev) (h : FlitHdr) (bs : List Byte) : Dev :=
  let f : ReduceF := ⟨h.src, h.tag, leAt bs 0 2, leAt bs 2 1, leAt bs 4 4, leAt bs 16 1, bitOf (leAt bs 17 1) 0, leAt bs 20 4⟩
  let body := bs.drop 32
  let mb := d.collHead.maskBytes
  match leAt bs 3 1 with
  | 1 => d.reduceData f (leAt bs 8 4) (leAt bs 12 4) body
  | 2 => d.reduceClose f (leAt body 0 mb) (leAt body mb mb)
  | 3 => d.reduceVoid f
  | _ => d.reduceRefused f .bad

/-- A control message, by its subtype. The stamps are its arrival and the egress of what it makes leave. -/
def Dev.controlMsg (d : Dev) (port : Nat) (h : FlitHdr) (bs : List Byte) (stamp egress : Nat) (resent : Bool) : Dev :=
  let u (k n : Nat) : Nat := leAt bs k n
  match leAt bs 0 1 with
  | 0x01 => d.holdIn (some port) (u 1 1) (u 2 2) (u 4 4) (u 8 8)
  | 0x02 => d.releaseIn (some port) (u 2 2) (u 4 4) (u 8 8) (u 16 2)
  | 0x03 => d.stowNoticeIn (some port) (u 2 2) (u 4 4)
  | 0x04 => d.holdQueryIn (u 2 2) (u 4 4)
  | 0x05 => d.holdReplyIn h.src (bitOf (u 1 1) 0) (u 8 8)
  | 0x10 => d.announceIn port (u 1 1) (u 2 2) (u 4 1) (u 5 1) (bitOf (u 6 1) 0) (u 8 4) (u 12 8) (u 20 8)
  | 0x11 => d.syncIn port (u 2 2) (u 4 4) (timeTotal (u 8 12)) (signExt 64 (u 20 8)) stamp egress resent
  | 0x12 => d.delayReq port (u 4 4) stamp egress
  | 0x13 => d.delayResp port (u 4 4) (timeTotal (u 8 12)) (timeTotal (u 20 12)) stamp resent
  | 0x20 => d.voteUp h.src bs
  | 0x21 => d.applyDown bs
  | 0x22 => d.replicaVoid (u 4 4)
  | 0x23 => d.reduceReplay h.src (u 4 4)
  | 0x30 => d.mirrorHello (u 2 2) (u 4 1) (u 5 1) (u 6 2)
  | 0x31 => d.helloAck (u 1 1)
  | 0x32 => d.voteQuery h.src
  | 0x33 => d.voteReply (u 4 4) (u 8 4) (u 12 4)
  | k => d.reservedFlit port k

/-- A whole message for this device. -/
def Dev.message (d : Dev) (port : Nat) (h : FlitHdr) (bs : List Byte) (stamp egress : Nat) (resent : Bool) : Dev :=
  match h.type with
  | 1 => d.putAt FlitType.put (reqOf h bs) .write
  | 2 => d.getAt (reqOf h bs)
  | 3 => d.getRspIn h.src (leAt bs 12 2) (reqOf h bs).data
  | 4 => let r := reqOf h bs
         d.putAt FlitType.atomic r (.add r.op)
  | 5 => d.mcastIn port h.dest (reqOf h bs)
  | 6 => d.reduceMsg h bs
  | 7 => d.creditMsg port h bs
  | 8 => d.completionIn ⟨port, h.src, leAt bs 0 2, leAt bs 2 1, leAt bs 4 2⟩
  | 9 => d.controlMsg port h bs stamp egress resent
  | k => d.reservedFlit port k

/-! ### Delivery to the routing stage (R301–R308) -/

/-- Subtypes that are flooded or go one hop: their receiver takes them whatever DEST holds (R330). -/
def takenByAny (subtype : Nat) : Bool :=
  (decide (1 ≤ subtype) && decide (subtype ≤ 3)) || (decide (0x10 ≤ subtype) && decide (subtype ≤ 0x13))

/-- The flit is for this device: a multicast flit, a message begun here, or one addressed here. -/
def Dev.forMe (d : Dev) (port : Nat) (h : FlitHdr) (payload : List Byte) : Bool :=
  h.type == FlitType.mcast || h.dest == d.deviceId
    || (h.type == FlitType.control && h.first && takenByAny (leAt payload 0 1))
    || (!h.first && !(sget [] (d.link port).partials (2 * h.cls + h.vc)).isEmpty)

/-- One flit of a receive queue is freed. -/
def Dev.freeFlit (d : Dev) (port q : Nat) : Dev :=
  d.modLink port fun l => { l with freed := sset 0 l.freed q ((sget 0 l.freed q + 1) % 65536) }

/-- Payload of a message for this device; with its last flit it is acted on. -/
def Dev.gatherFlit (d : Dev) (port : Nat) (h : FlitHdr) (payload : List Byte) (stamp egress : Nat) (resent : Bool) : Dev :=
  let q := 2 * h.cls + h.vc
  let old := if h.first then [] else sget [] (d.link port).partials q
  let all := old ++ payload.take h.len
  let d := d.modLink port fun l => { l with partials := sset [] l.partials q (if h.last then [] else all) }
  if h.last then d.message port h all stamp egress resent else d

/-- A flit for another device leaves by the direction R307 gives, with the VC of R308. -/
def Dev.forward (d : Dev) (port : Nat) (h : FlitHdr) (payload : List Byte) : Dev :=
  match d.direction d.coord (Coord.ofId h.dest) h.cls with
  | none => d
  | some dir =>
    let vc := d.vcFor dir ((d.dirOf port).map fun k => (k / 2, h.vc))
    let d := d.count (0x540 + 32 * selvageOfPort port + 9) 1
    d.enqueue (d.portOf dir) ⟨h.cls, vc, some (8 * port + 2 * h.cls + h.vc), [⟨{ h with vc := vc }.word, payload⟩], h.last⟩

/-- A held flit stands in this receive queue. -/
def Dev.queueHeld (d : Dev) (port q : Nat) : Bool :=
  d.weave.held.any fun m =>
    match m with
    | .flit p w _ => let h := FlitHdr.ofWord w
                     p == port && 2 * h.cls + h.vc == q
    | _ => false

/-- A received flit has a reserved TYPE, or a reserved header bit that is not 0 (R300). -/
def FlitHdr.isReserved (h : FlitHdr) : Bool := decide (0xA ≤ h.type) || h.reserved != 0

/-- A flit reaches the routing stage. Flits of classes 0–2 for a STOWED device, or one in L1, stay in their receive
queue (R475, R488), and so does the transit of a SPARE device in L1 (R488). -/
def Dev.deliver (d : Dev) (port hdr : Nat) (payload : List Byte) (stamp egress : Nat) (resent : Bool) : Dev :=
  let h := FlitHdr.ofWord hdr
  let q := 2 * h.cls + h.vc
  if h.isReserved || h.type = 0 then (d.freeFlit port q).reservedFlit port h.type
  else
    let mine := d.forMe port h payload
    let stay := if mine then decide (h.cls < 3) && d.holdsMsgs else d.devState == St.spare && d.get Ent.lpState == 1
    if stay || d.queueHeld port q then d.holdMsg (.flit port hdr payload)
    else if mine then (d.freeFlit port q).gatherFlit port h payload stamp egress resent
    else (d.freeFlit port q).forward port h payload

/-- What was held is applied, in the order it came (R475). -/
def Dev.applyHeld (d : Dev) : Dev :=
  let q := d.weave.held
  q.foldl (fun d m =>
    match m with
    | .flit port hdr payload => d.deliver port hdr payload d.time.clock d.time.clock false
    | .req type r =>
      if type = FlitType.getReq then d.getAt r
      else d.putAt type r (if type = FlitType.atomic then .add r.op else .write)
    | .rsp src reqId data => d.getRspIn src reqId data
    | .mcast port group r =>
      match port with
      | some p => d.mcastIn p group r
      | none => d
    | .reduce kind f a b data =>
      if kind = 0 then d.reduceData f a b data else if kind = 1 then d.reduceClose f a b else d.reduceVoid f)
    { d with weave := { d.weave with held := [] } }

/-- The completion log is delivered (R475, R477). -/
def Dev.deliverCompletions (d : Dev) : Dev :=
  let q := d.power.completions
  q.foldl (fun d c => d.completionIn c) (d.modPower fun x => { x with completions := [] })

/-- What was held goes on once nothing holds it: step 6 of warm resume has passed (R475, R477). -/
def Dev.releaseHeld (d : Dev) : Dev :=
  if d.holdsMsgs || (d.weave.held.isEmpty && d.power.completions.isEmpty) then d else d.deliverCompletions.applyHeld

/-! ### The receiver of a port (R301) -/

/-- Flits of the reorder buffer follow as long as the next SEQ is there. -/
def Dev.drainReorder (port stamp egress : Nat) : Nat → Dev → Dev
  | 0, d => d
  | k + 1, d =>
    let l := d.link port
    match l.reorder.find? fun r => r.1 == l.rxSeq with
    | none => d
    | some r =>
      let d := d.modLink port fun l => { l with
        rxSeq := (l.rxSeq + 1) % 4096, reorder := l.reorder.filter fun x => x.1 != r.1 }
      Dev.drainReorder port stamp egress k
        (d.deliver port (leAt r.2 0 8) ((r.2.drop 8).take 240) stamp egress (bitOf (leAt r.2 248 4) 2))

/-- A LINK flit's payload. -/
def linkOf (payload : List Byte) : LinkF :=
  let u (k n : Nat) : Nat := leAt payload k n
  ⟨(upTo 8).map fun q => u (2 * q) 2, u 16 2, u 18 1, u 19 1, u 20 1, u 21 1, u 22 1, u 23 1, u 24 2⟩

/-- A sequenced flit: delivered, held for reorder with a NAK of each SEQ newly missing, or a duplicate. -/
def Dev.sequenced (d : Dev) (port : Nat) (bytes : List Byte) (stamp egress : Nat) : Dev :=
  let low := leAt bytes 248 4
  let seq := fieldOf low 31 20
  let l := d.link port
  let ahead := seqAhead seq l.rxSeq
  if ahead = 0 then
    let d := d.modLink port fun l => { l with rxSeq := (l.rxSeq + 1) % 4096, naks := l.naks.filter fun n => n != seq }
    Dev.drainReorder port stamp egress 2048
      (d.deliver port (leAt bytes 0 8) ((bytes.drop 8).take 240) stamp egress (bitOf low 2))
  else if ahead < 2048 then
    if l.reorder.any fun r => r.1 == seq then d
    else
      let top := l.reorder.foldl (fun m r => max m (seqAhead r.1 l.rxSeq + 1)) 0
      let missing := ((upTo ahead).filter fun k => decide (top ≤ k)).map fun k => (l.rxSeq + k) % 4096
      d.modLink port fun l => { l with
        reorder := l.reorder ++ [(seq, bytes)], naks := (l.naks.filter fun n => n != seq) ++ missing }
  else d

/-- 256 bytes arrive at a port. A reserved flit is discarded after its acknowledgement; the counts of received
flits hold it, since R300 names no counter of its own (DEDUCED, log 108). DESIGN CHOICE (log 96): trailer bits
[7:4], which must be written as 0, are ignored, since the spec states no response to them. -/
def Dev.flitIn (d : Dev) (port : Nat) (bytes : List Byte) (stamp egress : Nat) : Dev :=
  let d := d.timeTo stamp
  if !d.linkOpen port then d
  else if leAt bytes 252 4 != crc32c (bytes.take 252) then
    (d.count (0x585 + 16 * port) 1).bump Ent.linkCounts (32 * port + 8) 8 1
  else
    let low := leAt bytes 248 4
    let h := FlitHdr.ofWord (leAt bytes 0 8)
    let d := ((d.count (0x581 + 16 * port) 1).count (0x583 + 16 * port) h.len).bump Ent.linkCounts (32 * port) 8 1
    let d := d.takeAck port (fieldOf low 19 8) (bitOf low 1) (bitOf low 0)
    if bitOf low 3 then
      if h.isReserved then d.reservedFlit port h.type
      else if h.type = FlitType.link then d.linkFlit port (linkOf ((bytes.drop 8).take 240))
      else d
    else if d.carries port then d.sequenced port bytes stamp egress
    else if h.isReserved then d.reservedFlit port h.type
    else d

/-- 256 bytes arrive, and what a HOLD_REPLY among them frees goes on. -/
def Dev.flitReceive (d : Dev) (port : Nat) (bytes : List Byte) (stamp egress : Nat) : Dev :=
  (d.flitIn port bytes stamp egress).releaseHeld

/-! ### Lost links (R303, R332) -/

/-- An UP port goes DOWN; a required one lost in a run starts HOLD. -/
def Dev.linkLost (d : Dev) (port : Nat) : Dev :=
  if !d.portUp port then d
  else
    let required := d.requiredPort port
    let d := d.dropLink port
    if required && d.inState [St.running, St.held, St.braced, St.stowed] then d.holdCause 3 else d

/-- No ACK progress for 2 µs: the oldest flit again, or, after 16 re-sends of it, the link is lost. -/
def Dev.ackTimeout (d : Dev) (port : Nat) : Dev :=
  match (d.link port).replay with
  | r :: _ => if 16 ≤ r.resends then d.linkLost port else d.resendOldest port
  | [] => d

/-! ### The commands -/

def execFlitReceive (port : Nat) (bytes : List Byte) (stamp egress : Nat) : State → Host.Outcome State Fault Refusal :=
  act fun d => d.flitReceive port bytes stamp egress
def execHoldReply (src : Nat) (active : Bool) (beat : Nat) : State → Host.Outcome State Fault Refusal :=
  act fun d => (d.holdReplyIn src active beat).releaseHeld
def execFlitTransmit (port : Nat) : State → Host.Outcome State Fault Refusal := act fun d => d.transmit port
def execAckTimeoutResend (port : Nat) : State → Host.Outcome State Fault Refusal := act fun d => d.ackTimeout port
def execLinkFlit (port : Nat) (f : LinkF) : State → Host.Outcome State Fault Refusal := act fun d => d.linkFlit port f
def execPortTrained (port : Nat) : State → Host.Outcome State Fault Refusal := act fun d => d.portTrained port
def execPortTrainingTimeout (port : Nat) : State → Host.Outcome State Fault Refusal := act fun d => d.trainingTimeout port
def execLinkLoss (port : Nat) : State → Host.Outcome State Fault Refusal := act fun d => d.linkLost port
def execPortRetrain (port : Nat) : State → Host.Outcome State Fault Refusal := act fun d => d.retrain port
def execPut (r : ReqF) : State → Host.Outcome State Fault Refusal := act fun d => d.putAt FlitType.put r .write
def execGetReq (r : ReqF) : State → Host.Outcome State Fault Refusal := act fun d => d.getAt r
def execGetRsp (src reqId : Nat) (data : List Byte) : State → Host.Outcome State Fault Refusal :=
  act fun d => d.getRspIn src reqId data
def execAtomic (r : ReqF) : State → Host.Outcome State Fault Refusal := act fun d => d.putAt FlitType.atomic r (.add r.op)
def execMcast (port group : Nat) (r : ReqF) : State → Host.Outcome State Fault Refusal := act fun d => d.mcastIn port group r
def execCompletion (port src reqId status group : Nat) : State → Host.Outcome State Fault Refusal :=
  act fun d => d.completionIn ⟨port, src, reqId, status, group⟩
def execCreditInit (f : CreditF) : State → Host.Outcome State Fault Refusal := act fun d => d.creditInit f
def execCreditReturn (f : CreditF) : State → Host.Outcome State Fault Refusal := act fun d => d.creditReturn f
def execRequestTimeout (reqId : Nat) : State → Host.Outcome State Fault Refusal := act fun d => d.requestTimeout reqId
def execReleaseWordWrite (stream count : Nat) : State → Host.Outcome State Fault Refusal :=
  act fun d => if stream < 64 then d.releaseWrite stream count else d
def execLoomUpdateWrite (shuttle : Nat) (record : List Byte) : State → Host.Outcome State Fault Refusal :=
  act fun d => d.loomRecord record (Unit.shuttle shuttle)

end Sys2Proof.Machine
end

