-- ==== Sys2Proof/Machine/Entries.lean ====
section
/-!
DEFINITION. What each dictionary entry's row says of reads and writes: values that only a read computes, values a
row refuses, states in which it refuses, and what a write starts (*The Tack object dictionary*, R515–R531, and
every chapter's entry table). A value with a reserved bit or byte set is refused (DEDUCED, log 33).
-/
namespace Sys2Proof.Machine
open Sys2Proof

/-! ### Status codes (R526) -/
namespace Status
def ok : Nat := 0
def noEntry : Nat := 1
def readOnly : Nat := 2
def writeOnly : Nat := 3
def size : Nat := 4
def valueRefused : Nat := 5
def state : Nat := 6
def busy : Nat := 7
def auth : Nat := 8
def offset : Nat := 9
def notReady : Nat := 0xA
def malformed : Nat := 0xB
def session : Nat := 0xC
def sequence : Nat := 0xD
end Status

/-! ### Values a row refuses -/

/-- A positive finite power of two in FP32 (R367). -/
def powerOfTwo32 (v : Nat) : Bool :=
  let e := fieldOf v 30 23
  let m := fieldOf v 22 0
  !bitOf v 31 && ((decide (1 ≤ e) && decide (e < 255) && m == 0) || (e == 0 && popcount 23 m == 1))

def isPow2 (n : Nat) : Bool := n != 0 && 2 ^ Nat.log2 n == n

/-- The type's own limits (R516): BOOL is 0 or 1, F32 neither a NaN nor an infinity. -/
def typeOk (typ v : Nat) : Bool :=
  if typ = 1 then decide (v < 2) else if typ = 7 then fieldOf v 30 23 != 255 else true

/-- Event codes of R584: panel events, then island events. -/
def panelEvents : List Nat := [0x001, 0x002, 0x003, 0x004, 0x005, 0x006, 0x007, 0x008, 0x009, 0x00A, 0x010, 0x011, 0x018, 0x019, 0x01A]
def islandEvents : List Nat := [0x000, 0x020, 0x021, 0x022, 0x023, 0x028, 0x029, 0x02A, 0x030, 0x031, 0x032, 0x038, 0x039, 0x03A, 0x03B]

/-- A selection word of R583. -/
def selectOk (w : Nat) : Bool :=
  fieldOf w 30 29 != 3 && fieldOf w 20 10 == 0 &&
    (panelEvents.contains (fieldOf w 9 0) || (islandEvents.contains (fieldOf w 9 0) && fieldOf w 28 21 == 0))

/-- A PORT_MAP value: ports 0–7, no port for two directions (R335). -/
def portMapOk (v : Nat) : Bool :=
  let ps := (upTo 6).map fun k => fieldOf v (4 * k + 3) (4 * k)
  v / 2 ^ 24 == 0 && ps.all (fun p => decide (p < 8)) && (upTo 6).all fun k => !(ps.take k).contains (nth 0 ps k)

/-- A COORDINATE value: reserved bits clear, and within the shape in force (R295). -/
def Dev.coordinateOk (d : Dev) (v : Nat) : Bool :=
  v / 2 ^ 21 == 0 && fieldOf v 7 6 == 0 && fieldOf v 15 13 == 0 &&
    d.inShape ⟨fieldOf v 5 0, fieldOf v 12 8, fieldOf v 20 16⟩

/-- A DOMAIN_SHAPE value (R295). -/
def shapeOk (v : Nat) : Bool :=
  let s (k : Nat) : Nat := fieldOf v (8 * k + 7) (8 * k)
  v / 2 ^ 27 == 0 && (upTo 3).all fun k => s k != 0 && decide (s k ≤ if k = 0 then 64 else 32)

/-- ROUTE_OVERRIDE: order codes 6 and 7 are reserved (R309). -/
def routeOk (v : Nat) : Bool := v / 2 ^ 12 == 0 && (upTo 3).all fun k => decide (fieldOf v (4 * k + 2) (4 * k) < 6)

/-- CLASS_WEIGHTS: each 1–255. -/
def weightsOk (v : Nat) : Bool := v / 2 ^ 24 == 0 && (upTo 3).all fun k => fieldOf v (8 * k + 7) (8 * k) != 0

/-- A Tally ring: within one near stack, outside the stow area, at a multiple of 256; base 0 is no ring (R595). -/
def ringOk (base size : Nat) : Bool :=
  base == 0 || (base % 256 == 0 && inNear base &&
    decide ((base - 0x4000000000) % 0x1000000000 + size ≤ stowOffset))

/-- SAMPLE_CONFIG (R596): INTERVAL, DITHER, SEED, PANELS, WATERMARK, 4 reserved bytes. All zeros, its default,
stands although its WATERMARK is 0. -/
def Dev.sampleConfigOk (d : Dev) (v : Nat) : Bool :=
  let interval := getBytes v 0 4
  let dither := getBytes v 4 2
  let mark := getBytes v 24 4
  v == 0 || (getBytes v 28 4 == 0 && (interval == 0 || (decide (64 ≤ interval) && decide (interval ≤ 16777216)))
    && (dither == 0 || (isPow2 dither && decide (dither < interval)))
    && decide (1 ≤ mark) && decide (mark ≤ d.get Ent.sampleRecords))

def within (lo hi v : Nat) : Bool := decide (lo ≤ v) && decide (v ≤ hi)

/-- Panels fenced by the device. -/
def Dev.noFenced (d : Dev) (v : Nat) : Bool := v &&& d.get Ent.panelFenced == 0

/-- Each row's limit on its value, given the other entries as they stand. -/
def rowLimits : List (Nat × (Dev → Nat → Bool)) :=
  [(Ent.stateCommand, fun _ v => within 1 8 v),
   (Ent.resetCommand, fun _ v => within 1 3 v),
   (Ent.owner, fun _ v => within 1 2 v),
   (Ent.bridleEventDest, fun _ v => decide (getBytes v 18 1 < 2) && getBytes v 19 1 == 0),
   (Ent.bridlePhy, fun _ v => v / 2 ^ 25 == 0),
   (Ent.railWaitMs, fun _ v => within 100 10000 v),
   (Ent.loadCommand, fun _ v => within 1 2 v),
   (Ent.marginGuard, fun _ v => within 5 30 v),
   (Ent.vbulkWarnMv, fun _ v => within 4300 4550 v && v % 10 == 0),
   (Ent.braceTimerMs, fun _ v => within 1 100 v),
   (Ent.holdCommand, fun _ v => within 1 2 v),
   (Ent.holdRelease, fun d v => v == 0xFFFF || (d.holdOf v).isSome),
   (Ent.lpCommand, fun _ v => decide (v < 4)),
   (Ent.beatPeriodNs, fun _ v => (upTo 7).any fun j => v == 1024 * 2 ^ j),
   (Ent.timeInput, fun _ v => decide (v < 8)),
   (Ent.ppsInDelayPs, fun _ v => decide (signExt 32 v ≤ 1000000) && decide (-1000000 ≤ signExt 32 v)),
   (Ent.timeSetS, fun _ v => v / 2 ^ 48 == 0),
   (Ent.ptpConfig, fun _ v => getBytes v 6 2 == 0)] ++
  [(Ent.coordinate, fun d v => d.coordinateOk v),
   (Ent.domainShape, fun _ v => shapeOk v),
   (Ent.portMap, fun _ v => portMapOk v),
   (Ent.routeOverride, fun _ v => routeOk v),
   (Ent.classWeights, fun _ v => weightsOk v),
   (Ent.e2eTimeoutUs, fun _ v => within 100 100000 v),
   (Ent.jobTag, fun _ v => fieldOf v 14 12 == 0),
   (Ent.loomIndex, fun _ v => decide (v < loomSize)),
   (Ent.loomEntry, fun d v => !d.loomRefused (d.get Ent.loomIndex) v),
   (Ent.stackScrubS, fun _ v => within 3600 604800 v),
   (Ent.panelMask, fun d v => d.noFenced v),
   (Ent.panelUnfence, fun _ v => decide (v < 128)),
   (Ent.arithMode, fun _ v => decide (v < 2)),
   (Ent.contractResponse, fun _ v => (upTo 4).all fun k => fieldOf v (2 * k + 1) (2 * k) != 3),
   (Ent.stepRebase, fun d v => v % 256 == 0 && decide (v ≤ d.get Ent.stepCounter)),
   (Ent.latePolicy, fun _ v => decide (v < 2)),
   (Ent.lossScale, fun d v => powerOfTwo32 v && decide (d.get Ent.lsMin ≤ v) && decide (v ≤ d.get Ent.lsMax)),
   (Ent.lsMin, fun d v => powerOfTwo32 v && decide (v ≤ d.get Ent.lossScale)),
   (Ent.lsMax, fun d v => powerOfTwo32 v && decide (d.get Ent.lossScale ≤ v)),
   (Ent.lsGrowthInterval, fun _ v => within 1 1000000 v)] ++
  [(Ent.resilienceMode, fun _ v => decide (v < 3)),
   (Ent.snapInterval, fun _ v => decide (v ≤ 1000000)),
   (Ent.snapTarget, fun _ v => decide (v < 2)),
   (Ent.adoptPlan, fun _ v => getBytes v 8 8 == 0),
   (Ent.resilCommand, fun _ v => within 1 4 v),
   (Ent.tallyOpen, fun _ v => !bitOf v 31 && !bitOf v 63),
   (Ent.tallyClear, fun _ v => !bitOf v 31),
   (Ent.dumpBeats, fun _ v => decide (v ≤ 1048576)),
   (Ent.dumpBase, fun d v => ringOk v (18432 * d.get Ent.dumpRecords)),
   (Ent.dumpRecords, fun d v => within 1 65536 v && ringOk (d.get Ent.dumpBase) (18432 * v)),
   (Ent.sampleConfig, fun d v => d.sampleConfigOk v),
   (Ent.sampleBase, fun d v => ringOk v (64 * d.get Ent.sampleRecords)),
   (Ent.sampleRecords, fun d v => within 64 1048576 v && isPow2 v && ringOk (d.get Ent.sampleBase) (64 * v)),
   (Ent.tallyEventEnable, fun _ v => decide (v < 8)),
   (Ent.tallySelect, fun _ v => (upTo 256).all fun k => selectOk (getBytes v (4 * k) 4)),
   (Ent.faultNMask, fun _ v => v % 2 == 0 && decide (v < 2 ^ 10)),
   (Ent.keyRevoke, fun _ v => decide (v < 2))]

/-- A value is accepted by the entry's row. -/
def Dev.rowOk (d : Dev) (row : EntRow) (v : Nat) : Bool :=
  typeOk row.typ v && match rowLimits.find? fun p => p.1 == row.key with
    | some p => p.2 d v
    | none => true

/-! ### States in which a write is refused (R517, R521) -/

/-- States in which the row itself refuses a write. -/
def Dev.rowRefuses (d : Dev) (k : Nat) : Bool :=
  if k = Ent.stickyClear || k = Ent.loomEntry then d.inState [St.running, St.held, St.braced]
  else if k = Ent.panelUnfence || k = Ent.rollbackAdvance || k = Ent.keyRevoke then !d.inState [St.ready]
  else if k = Ent.stepRebase then !d.inState [St.loaded]
  else if k = Ent.portMap then d.inState [St.running, St.braced]
  else if k = Ent.holdCommand then !d.inState [St.loaded, St.running, St.held, St.braced, St.adopting]
  else if [Ent.dumpBase, Ent.dumpRecords, Ent.sampleBase, Ent.sampleRecords].contains k then
    d.inState [St.loaded, St.running, St.held, St.braced, St.stowed, St.adopting]
  else if k = Ent.timeSetS then !d.isRoot || d.pat.loaded
  else false

/-- The state check of a write: SEALED and TRIMMED take RESET_COMMAND alone, RWS needs READY, LOADED or
ADOPTING. -/
def Dev.stateRefuses (d : Dev) (row : EntRow) : Bool :=
  (d.inState [St.sealed, St.trimmed] && row.key != Ent.resetCommand)
    || (row.access == 3 && !d.inState [St.ready, St.loaded, St.adopting])
    || d.rowRefuses row.key

/-! ### Values computed at a read -/

/-- The 48 bytes of a fault record (R546). -/
def FaultRec.bytes (r : FaultRec) : List Byte :=
  leBytes 4 r.seq ++ leBytes 2 r.code ++ leBytes 1 r.unit ++ leBytes 1 r.rep ++ leBytes 4 r.step ++ leBytes 4 0
    ++ leBytes 8 r.beat ++ leBytes 12 r.time ++ leBytes 8 r.detail ++ leBytes 4 0

/-- 0x9001:00 FAULT_LOG: the head, then slot (n − 1) mod 1,024 for record n. -/
def Dev.faultLog (d : Dev) : Nat :=
  let head := d.tack.newest + d.tack.cleared <<< 32 + 1024 <<< 64
  d.tack.faults.foldl (fun v r => v + leNat r.bytes <<< (8 * (64 + 48 * ((r.seq - 1) % 1024)))) head

/-- 0x6031:00 PANEL_PC. -/
def Dev.panelPc (d : Dev) : Nat :=
  leNat ((upTo 128).flatMap fun p =>
    let x := d.panel p
    leBytes 2 (x.lastPc % 8192 + bitNat x.halted <<< 13 + bitNat x.held.isSome <<< 14))

/-- 0x6113:00 STEP_FLAG_SUMMARY. -/
def Dev.flagSummary (d : Dev) : Nat := (upTo 188).foldl (fun m u => m ||| d.getB Ent.stickyLast u 1) 0

/-- 0xA002:00 MGMT_KEY_STATUS: key set, key store valid, its SEQ, the key ID. With no key set the key ID is 0
(DESIGN CHOICE, log 34). -/
def Dev.keyStatus (d : Dev) (valid : Bool) (seq : Nat) : Nat :=
  bitNat d.keySet + 2 * bitNat valid + seq <<< 32
    + (if d.keySet then leNat ((sha256 d.mgmtKey).take 8) else 0) <<< 64

/-- 0xA003:00 SECURE_STATE. -/
def Dev.secureState (d : Dev) (f : Fuses) : Nat :=
  leNat (leBytes 1 f.revoked ++ leBytes 1 f.rollback ++ leBytes 1 d.boot.keySlot ++ leBytes 1 d.boot.imageRollback
    ++ leBytes 1 (bitNat f.debugLock))

/-! Flash (R557, R566) -/

def Dev.flashBytes (d : Dev) (a n : Nat) : List Byte := (upTo n).map fun k => sget 0xFF#8 d.boot.flash (a + k)

/-- A key-store record at its place: SEQ and WRAPPED, where MAGIC, reserved bytes and CRC are right. -/
def Dev.keyRecord (d : Dev) (k : Nat) : Option (Nat × List Byte) :=
  let b := d.flashBytes (0x3000000 + 0x1000 * k) 64
  if d.boot.flashAnswers && leAt b 0 4 = 0x594B474D && leAt b 48 12 = 0 && leAt b 60 4 = crc32 (b.take 60) then
    some (leAt b 4 4, (b.drop 8).take 40) else none

/-- The valid record with the higher SEQ: which, its SEQ and WRAPPED. -/
def Dev.bestKey (d : Dev) : Option (Nat × Nat × List Byte) :=
  match d.keyRecord 0, d.keyRecord 1 with
  | some a, some b => if a.1 < b.1 then some (1, b.1, b.2) else some (0, a.1, a.2)
  | some a, none => some (0, a.1, a.2)
  | none, some b => some (1, b.1, b.2)
  | none, none => none

/-- The value of an entry as a read returns it. -/
def Dev.view (d : Dev) (f : Fuses) (k : Nat) : Nat :=
  if k = Ent.grade then f.grade
  else if k = Ent.dieStepping then f.dieStepping
  else if k = Ent.serialNumber then f.serial
  else if k = Ent.eui64 then f.eui64
  else if k = Ent.bgClass then f.bgClass
  else if k = Ent.keyHash then f.keyHash
  else if k = Ent.secureState then d.secureState f
  else if k = Ent.mgmtKeyStatus then d.keyStatus d.bestKey.isSome ((d.bestKey.map fun p => p.2.1).getD 0)
  else if k = Ent.queueState then d.queueBlob
  else if k = Ent.fpSets then d.fpBlob
  else if k = Ent.loomValid then d.loomValid
  else if k = Ent.loomEntry then d.loomWord (d.get Ent.loomIndex)
  else if k = Ent.deviceId then d.deviceId
  else if k = Ent.stepFlagSummary then d.flagSummary
  else if k = Ent.stickyFlags then d.flagBlob (d.step % 4)
  else if k = Ent.holdStatus then d.holdStatus
  else if k = Ent.holdTable then d.holdTable
  else if k = Ent.timeNow then d.timeNow
  else if k = Ent.timeStatus then d.timeStatus
  else if k = Ent.panelPc then d.panelPc
  else if k = Ent.stashState then d.readNat stashBase 32
  else if k = Ent.faultLog then d.faultLog
  else if k = Ent.faultNewest then (d.tack.newestRec.map fun r => leNat r.bytes).getD 0
  else if k = Ent.stowSeq then d.get Ent.stowSeq
  else d.get k

/-- A read of an entry's whole value. DOMAIN_SENSE is measured at the read: a free value (log 7). -/
def Dev.readValue (d : Dev) (f : Fuses) (k : Nat) : Dev × Nat :=
  if k = Ent.domainSense then
    let r := d.freeBytes 304
    (r.1, leNat r.2)
  else (d, d.view f k)

/-! ### What a write of a setting starts -/

/-- The matched bit of each port whose neighbour has identified itself (R304): an UP port, or one in low-power
idle. -/
def Dev.rematch (d : Dev) : Dev :=
  (upTo 8).foldl (fun d i =>
    let w := d.getB Ent.neighbour (8 * i) 8
    if fieldOf w 47 40 = 0 || !(d.portUp i || d.portState i == PortSt.lpi) then d
    else
      let c : Coord := ⟨fieldOf w 23 16, fieldOf w 31 24, fieldOf w 39 32⟩
      let ok := match d.dirOf i with
        | some dir => d.neighbourAt dir == some c
        | none => true
      let d := d.putB Ent.neighbour (8 * i + 7) 1 (bitNat ok)
      if ok then d.modLink i fun l => { l with told := false }
      else if d.portUp i && !(d.link i).told then
        (d.modLink i fun l => { l with told := true }).fault 0x0401 (Unit.port i) (fieldOf w 15 0)
      else d) d

/-- What follows from a written setting. -/
def Dev.afterWrite (d : Dev) (k : Nat) : Dev :=
  if k = Ent.portEnable then d.applyPortEnable
  else if k = Ent.portMap then d.rematch
  else if k = Ent.coordinate || k = Ent.domainShape then d.rematch.chooseRoot
  else if k = Ent.timeRootPriority then d.chooseRoot
  else if k = Ent.timeInput then
    if d.isRoot && !d.ppsEn then (d.modTime fun x => { x with rootLocked := true }).acquire else d
  else if k = Ent.dumpBase then { d with tally := { d.tally with dumpSeq := 0 } }
  else if k = Ent.sampleBase then { d with tally := { d.tally with sampleWrite := 0, sampleRead := 0 } }
  else if k = Ent.runStartStep then
    if d.inState [St.loaded, St.adopting] then d.checkRunStep else d
  else d

end Sys2Proof.Machine
end

