-- ==== Sys2Proof/Machine/Checks.lean ====
section
/-!
DEFINITION. What a Pattern image says and the loader's checks of it (*The schedule contract* › The Pattern image,
R223–R227, and the load-time checks of the chapters that own the sections). A check answers the fault code, its
order in R227 and the directory index of the section to blame, 0xFF for none.
-/
namespace Sys2Proof.Machine
open Sys2Proof

/-! ### The image (R223, R224) -/

/-- A section as its directory entry gives it. -/
structure Sect where
  index : Nat
  typ : Nat
  reserved : Nat
  crc : Nat
  off : Nat
  len : Nat
  data : List Byte
deriving DecidableEq, Repr

/-- Directory entry k. -/
def sectAt (bs : List Byte) (k : Nat) : Sect :=
  let o := leAt bs 104 8 + 24 * k
  let off := leAt bs (o + 8) 8
  let len := leAt bs (o + 16) 8
  ⟨k, leAt bs o 2, leAt bs (o + 2) 2, leAt bs (o + 4) 4, off, len, (bs.drop off).take len⟩

structure Image where
  bytes : List Byte
  sects : List Sect
deriving DecidableEq, Repr

/-- An image as submitted; at most 64 directory entries are read. -/
def Image.ofBytes (bs : List Byte) : Image := ⟨bs, (upTo (min 64 (leAt bs 96 4))).map (sectAt bs)⟩

/-- A header field. -/
def Image.h (m : Image) (off len : Nat) : Nat := leAt m.bytes off len

def Image.sect (m : Image) (typ : Nat) : Option Sect := m.sects.find? fun s => s.typ == typ
def Image.data (m : Image) (typ : Nat) : List Byte := ((m.sect typ).map Sect.data).getD []
/-- The directory index of a section type. -/
def Image.indexOf (m : Image) (typ : Nat) : Nat := ((m.sect typ).map Sect.index).getD 0xFF

/-- The records of a table section. -/
def Image.recs (m : Image) (typ : Nat) : List SecRec := (recordsOf typ (m.data typ)).getD []

/-- DIGEST, as a number. -/
def Image.digest (m : Image) : Nat := m.h 112 48
def Image.jobTag (m : Image) : Nat := m.h 16 2 % 4096
def Image.mask (m : Image) : Nat := m.h 24 16
def Image.staggered (m : Image) : Bool := m.h 7 1 == 1
def Image.slots (m : Image) : Nat := m.h 10 1
def Image.stepBeats (m : Image) : Nat := m.h 56 4
/-- A panel-table entry. -/
def Image.panelEntry (m : Image) (p : Nat) : Nat := leAt (m.data 1) (8 * p) 8
def Image.lag (m : Image) (s : Nat) : Nat := leAt (m.data 8) s 1

/-- The Pattern that the image describes. -/
def Image.pattern (m : Image) : Pattern :=
  { loaded := true, grade := m.h 6 1, jobTag := m.jobTag, slots := m.slots, recoveryBeats := m.h 18 2, panelMask := m.mask,
    startBeat := m.h 40 8, firstStep := m.h 48 4, rebased := 0, lastStep := m.h 52 4, stepBeats := m.stepBeats, pauseOffset := m.h 60 4,
    lateLimit := m.h 64 4, stashBase := m.h 72 8, stashBytes := m.h 80 8, copyBase := m.h 160 8, copyBytes := m.h 168 8,
    panelTable := ((upTo 128).map fun p => (p, m.panelEntry p)).filter fun e => e.2 != 0
    lags := ((upTo 64).map fun s => (s, m.lag s)).filter fun e => e.2 != 0
    copyLens := (upTo 5).map fun k => (m.data (2 + k)).length
    sections := ([9, 11, 12].map fun t => (t, m.data t)).filter fun s => !s.2.isEmpty }

/-! ### Verdicts -/

/-- The first that is refused. -/
def firstOf {α : Type} : List (Option α) → Option α
  | [] => none
  | x :: xs => match x with
    | some v => some v
    | none => firstOf xs

/-- A code where a condition holds. -/
def codeIf (bad : Bool) (code : Nat) : Option Nat := if bad then some code else none

/-- Ranges of which two share a byte. -/
def overlapping : List (Nat × Nat) → Bool
  | [] => false
  | x :: xs => xs.any (fun y => meets x.1 x.2 y.1 y.2) || overlapping xs

def allZero (bs : List Byte) : Bool := bs.all fun b => b == 0#8
def zeroAt (bs : List Byte) (off len : Nat) : Bool := leAt bs off len == 0

/-! ### Order 2: structure -/

/-- How often a type appears among the entries. -/
def Image.times (m : Image) (t : Nat) : Nat := (m.sects.filter fun s => s.typ == t).length

def Image.headerOk (m : Image) : Bool :=
  decide (256 ≤ m.bytes.length) && m.h 0 4 == 0x3254504E && m.h 4 2 == 1 && m.h 11 1 == 0 && m.h 15 1 == 0
    && decide (m.h 16 2 < 4096) && m.h 68 4 == 0 && m.h 100 4 == 0 && zeroAt m.bytes 176 80
    && within 1 64 (m.h 96 4) && m.h 104 8 % 8 == 0 && decide (256 ≤ m.h 104 8)
    && decide (m.h 104 8 + 24 * m.h 96 4 ≤ m.bytes.length)

def Image.sectOk (m : Image) (s : Sect) : Bool :=
  s.reserved == 0 && within 1 15 s.typ && s.off % 32 == 0 && decide (256 ≤ s.off) && decide (s.off + s.len ≤ m.bytes.length)
    && (m.sects.all fun o => decide (s.index ≤ o.index) || (o.typ != s.typ && !meets o.off o.len s.off s.len))
    && (!within 2 7 s.typ || (recordsOf s.typ s.data).isSome)

def Image.structureBad (m : Image) : Option Nat :=
  if !m.headerOk then some 0xFF
  else match m.sects.find? fun s => !m.sectOk s with
    | some s => some s.index
    | none => if [1, 2, 8].all fun t => m.times t == 1 then none else some 0xFF

/-! ### Order 3: checksums -/

def Image.digestOk (m : Image) : Bool :=
  leNat (sha384 (m.bytes.take 112 ++ List.replicate 48 0#8 ++ m.bytes.drop 160)) == m.digest

def Image.sums (m : Image) : Option Nat :=
  match m.sects.find? fun s => crc32 s.data != s.crc with
  | some s => some s.index
  | none => if m.digestOk then none else some 0xFF

/-! ### Orders 4 to 8 -/

def Dev.shapeMatches (d : Dev) (m : Image) : Bool :=
  m.h 12 1 == d.dimSize 0 && m.h 13 1 == d.dimSize 1 && m.h 14 1 == d.dimSize 2 && d.inShape d.coord

/-- The job tag assigned to the device: bit 15 of 0x4101:00 JOB_TAG (R321). -/
def Dev.tagAssigned (d : Dev) (tag : Nat) : Bool := bitOf (d.get Ent.jobTag) 15 && d.get Ent.jobTag % 4096 == tag

/-! ### Order 9: header, panel table, slot schedule -/

def Image.panelEntryOk (m : Image) (p : Nat) : Bool :=
  let e := m.panelEntry p
  fieldOf e 63 41 == 0 && fieldOf e 31 29 == 0 && fieldOf e 15 13 == 0 && (bitOf m.mask p || e == 0)

def Image.lagOk (m : Image) (s : Nat) : Bool :=
  let l := m.lag s
  decide (l < 4) && (m.staggered || l == 0) && (decide (s < m.slots) || l == 0)

def Image.stashOk (m : Image) : Bool :=
  let base := m.h 72 8
  let bytes := m.h 80 8
  if m.staggered then bytes % 256 == 0 && (bytes == 0 || inNear base) else base == 0 && bytes == 0

def Image.copyOk (m : Image) : Bool :=
  m.h 160 8 % 256 == 0 && decide (m.h 160 8 + m.h 168 8 ≤ feltSize)
    && decide (copyNeed ((upTo 5).map fun k => (m.data (2 + k)).length) ≤ m.h 168 8)

def Dev.headerInRange (d : Dev) (m : Image) : Bool :=
  let sb := m.stepBeats
  decide (m.h 7 1 < 2) && decide (m.h 8 1 < 2) && (upTo 4).all (fun k => fieldOf (m.h 9 1) (2 * k + 1) (2 * k) != 3)
    && within 1 64 m.slots && decide (1 ≤ m.h 18 2) && decide (m.h 48 4 ≤ m.h 52 4)
    && decide (m.h 18 2 + d.pauseBeats < sb) && decide (m.h 60 4 + d.pauseBeats ≤ sb) && within 1 sb (m.h 64 4)
    && m.stashOk && m.copyOk && decide (32768 ≤ m.h 18 2 * m.h 20 4)

/-- The section out of range, or 0xFF for the header. -/
def Dev.rangesBad (d : Dev) (m : Image) : Option Nat :=
  if !d.headerInRange m then some 0xFF
  else if (m.data 1).length != 1024 || !(upTo 128).all m.panelEntryOk then some (m.indexOf 1)
  else if (m.data 8).length != 64 || !(upTo 64).all m.lagOk then some (m.indexOf 8)
  else none

/-! ### Order 10: targets -/

/-- Keys of tables that no address names are put above every address, one run per table. -/
def pseudoBase (typ kind unit : Nat) : Nat := (typ * 2 + kind + 1) <<< 60 + unit <<< 32

/-- The bytes a record of a table section writes. -/
def SecRec.target (typ : Nat) (r : SecRec) : Nat × Nat :=
  let n := r.data.length
  if typ = 2 then (bundleBase r.unit + 32 * r.first, n)
  else if typ = 3 then (addrTableBase r.unit + 32 * r.first, n)
  else if typ = 7 && r.kind = 0 then (wbEntAddr r.unit r.first, n)
  else if typ = 7 then (r.first, n)
  else
    let size := if typ = 4 || r.kind = 1 then 4 else if typ = 5 then 64 else 16
    (pseudoBase typ r.kind r.unit + size * r.first, n)

/-- A record of section 0x000E (R289). -/
structure MemRec where
  addr : Nat
  len : Nat
  flags : Nat
  fill : Nat
  reserved : Nat
  data : List Byte
deriving DecidableEq, Repr

/-- The records of section 0x000E: none where a record breaks R289. -/
def memRecords : Nat → List Byte → Option (List MemRec)
  | 0, _ => none
  | _ + 1, [] => some []
  | k + 1, bs =>
    let r : MemRec := ⟨leAt bs 0 8, leAt bs 8 8, leAt bs 16 4, leAt bs 20 4, leAt bs 24 8, []⟩
    let n := if bitOf r.flags 0 then 0 else r.len
    if bs.length < 32 + n || r.addr % 32 != 0 || r.len % 32 != 0 || r.len == 0 || decide (2 ≤ r.flags) || r.reserved != 0 then none
    else (memRecords k (bs.drop (32 + n))).map fun rs => { r with data := (bs.drop 32).take n } :: rs

def Image.memRecs (m : Image) : Option (List MemRec) := memRecords ((m.data 14).length + 1) (m.data 14)

def MemRec.bytes (r : MemRec) : List Byte :=
  if bitOf r.flags 0 then (upTo (r.len / 4)).flatMap fun _ => leBytes 4 r.fill else r.data

/-- A queue-table entry of section 0x000A (R233). -/
structure QueueEnt where
  reserved : Nat
  period : Nat
  body : Nat
  prologue : Nat
  base : Nat
deriving DecidableEq, Repr

def Image.queue (m : Image) (n : Nat) : QueueEnt :=
  let w := leAt (m.data 10) (16 * n) 16
  ⟨fieldOf w 127 64, fieldOf w 63 56, fieldOf w 55 40, fieldOf w 39 24, 128 * fieldOf w 23 0⟩

/-- Descriptors the queue holds. -/
def QueueEnt.held (q : QueueEnt) : Nat := q.prologue + q.period * q.body

/-- Descriptors of the queues before queue n. -/
def Image.descBefore (m : Image) (n : Nat) : Nat := (upTo n).foldl (fun a k => a + (m.queue k).held) 0

/-- The bytes of a queue's descriptors as the section holds them. -/
def Image.queueBytes (m : Image) (n : Nat) : List Byte :=
  ((m.data 10).drop (448 + 128 * m.descBefore n)).take (128 * (m.queue n).held)

/-- The bytes that section 0x000A writes; what leaves the Felt is for R233 to refuse. -/
def Image.queueTargets (m : Image) : List (Nat × Nat) :=
  if (m.data 10).isEmpty then []
  else ((upTo 28).map fun n =>
    let q := m.queue n
    (q.base, min (128 * q.held) (feltSize - q.base))).filter fun t => t.2 != 0

/-- Everything the sections write, by section type; the queues as one, since their own overlap is R233's. -/
def Image.targets (m : Image) : List (Nat × Nat × Nat) :=
  ([2, 3, 4, 5, 6, 7].flatMap fun t => (m.recs t).map fun r => (t, r.target t))
    ++ m.queueTargets.map (fun t => (10, t)) ++ ((m.memRecs.getD []).map fun r => (14, r.addr, r.len))
    ++ (if m.h 168 8 = 0 then [] else [(0, m.h 160 8, m.h 168 8)])

/-- [a, a + n) is populated memory (R267). -/
def Dev.populated (d : Dev) (a n : Nat) : Bool :=
  if n = 0 then true
  else if 1 <<< 60 ≤ a then true
  else
    let last := a + n - 1
    match d.region a with
    | .felt => decide (a + n ≤ feltSize) && (upTo (last / 0x400000 + 1 - a / 0x400000)).all fun k =>
        !bitOf (d.get Ent.feltBgFenced) (a / 0x400000 + k)
    | .near m => decide (a + n ≤ nearBase m + stowOffset)
    | .deep m => decide (a + n ≤ deepBase m + 0x1000000000)
    | .hole => false
    | .scratch _ => inTree last
    | .acc _ => inTree last
    | .side _ => inTree last
    | .bundle _ => inTree last
    | .control => inControl last && ctrlAt a != .hole && ctrlAt last != .hole

/-! The areas that sections 0x000B and 0x000C name (R340, R379, R380) -/

def roundBlocks (n : NodeRec) : Nat := n.maxb * 516

/-- The near-stack areas of the section: address and bytes. -/
def Dev.collAreas (t : Dev) : List (Nat × Nat) :=
  let h := t.collHead
  let rounds (i : Nat) : List RoundRec := (upTo (t.nodeRec i).rounds).map fun r => t.roundRec i r
  let rooted := ((upTo h.nodes).filter fun i => (t.nodeRec i).isRoot).foldl (fun a i => a + (t.nodeRec i).rounds) 0
  [(h.foldBase, h.foldBytes), (h.journalBase, h.journalRecs * (64 + 2 * h.maskBytes * rooted))]
    ++ (upTo h.nodes).flatMap fun i =>
      let n := t.nodeRec i
      (if n.level = 0 then [] else [(n.staging, n.ring * n.children * roundBlocks n), (n.keep, n.rounds * roundBlocks n)])
        ++ (if n.isRoot then (rounds i).map fun r => (r.rootOut, 4 * r.elements) else [])

/-- Groups of one part name the same arrays (R379). -/
def sameArrays (a b : Algo) : Bool := a.usesM == b.usesM && a.usesV == b.usesV

/-- The areas of a part: address, bytes, alignment, whether it must be present, near only, deep only. -/
structure PartArea where
  addr : Nat
  bytes : Nat
  align : Nat
  need : Bool
  near : Bool
  deep : Bool
deriving DecidableEq, Repr

def Dev.partAreas (t : Dev) (b : Nat) : List PartArea :=
  let q := t.part b
  let a := t.partAlgo b
  let n := 4 * q.elements
  let pair (xs : List Nat) (bytes align : Nat) (need near deep : Bool) : List PartArea :=
    [⟨nth 0 xs 0, bytes, align, need, near, deep⟩, ⟨nth 0 xs 1, bytes, align, need && q.dual, near, deep⟩]
  pair q.master n 1 true false true ++ pair q.comp (2 * q.elements) 1 q.hasComp false true
    ++ pair q.m n 1 a.usesM true false ++ pair q.v n 1 a.usesV true false
    ++ [⟨q.log, 0x400000, 0x100000, true, true, false⟩, ⟨q.state, 256, 256, true, true, false⟩, ⟨q.fpOut, 8, 8, true, true, false⟩]

def partRuns (q : PartRec) : List Nat := (upTo q.runs).map fun k => q.runFirst + k

/-- Every area of the section that holds something: the parts' arrays and their runs' gradients and weights. -/
def Dev.burnAreas (t : Dev) (b : Nat) : List (Nat × Nat) :=
  if !bitOf t.burnHead.partMask b then []
  else
    ((t.partAreas b).filter fun a => a.addr != 0).map (fun a => (a.addr, a.bytes))
      ++ (partRuns (t.part b)).flatMap fun i =>
        let r := t.runRec i
        [(r.grad, 4 * r.count), (r.pub, 2 * r.count)]

/-- The windows of the stacks, by STACK_STATUS number. -/
def stackStart (s : Nat) : Nat := if s < 16 then nearBase s else deepBase (s - 16)

/-- A local range names a stack which is not ready (R267). -/
def Dev.namesAbsent (d : Dev) (a n : Nat) : Bool :=
  (upTo 24).any fun s => d.stackStatus s != 1 && meets a (max n 1) (stackStart s) 0x1000000000

/-- A range meets the stow area of some near stack (R285). -/
def meetsStow (a n : Nat) : Bool := (upTo 16).any fun s => meets a n (nearBase s + stowOffset) (nearSize - stowOffset)

/-- The local byte range from a base over element offsets lo to hi: first byte and length; none where the base is no local
address. -/
def localSpan (own base : Nat) (lo hi : Int) : List (Nat × Nat) :=
  match decodeAddr own base with
  | some (.local_ x) => [(((x : Int) + lo).toNat, (hi - lo + 1).toNat)]
  | _ => []

/-- The bytes a descriptor reads by its source address, as offsets from SRC: those of its corner elements. -/
def Desc.sourceSpan (c : Desc) : Int × Int :=
  let ext (k : Nat) : Nat := if c.gather && k + 1 == c.ndim then c.idxLimit else nth 0 c.size k
  let o := (upTo c.ndim).foldl (fun (st : Int × Int) k =>
    let v := ((ext k - 1 : Nat) : Int) * nth 0 c.ss k
    (st.1 + min 0 v, st.2 + max 0 v)) (0, 0)
  match c.typeIn with
  | some t =>
    let a := elemBytes t o.1
    let b := elemBytes t o.2
    (a.1, b.1 + (b.2 : Int) - 1)
  | none => (0, 0)

/-- Local ranges that a descriptor names. -/
def Desc.named (c : Desc) (own : Nat) : List (Nat × Nat) :=
  let base : Int := ((c.dst % 2 ^ fieldWidth (c.dst >>> 62) : Nat) : Int)
  let s := c.sourceSpan
  (match c.range with | some g => localSpan own c.dst (g.2.1 - base) (g.2.2 - base) | none => [])
    ++ (if c.total = 0 then [] else localSpan own c.src s.1 s.2)
    ++ (if c.gather then [(c.index, 4 + 4 * nth 0 c.size (c.ndim - 1))] else [])

/-- The local areas of section 0x000B: address and bytes. -/
def Dev.collNamed (t : Dev) : List (Nat × Nat) :=
  let h := t.collHead
  t.collAreas
    ++ (upTo h.roundRecs).map (fun i => let r := t.roundRecAt i; (r.own, if r.own = 0 then 0 else 516 * r.blocks))
    ++ (upTo h.gathers).flatMap fun i => let g := t.gatherRec i; [(g.data, 2 * g.elements), (g.sealAt, 8)]

/-- Local ranges that sections 0x0009, 0x000A, 0x000B and 0x000C name, by section type. -/
def Dev.named (d : Dev) (m : Image) : List (Nat × Nat × Nat) :=
  let t : Dev := { d with pat := m.pattern }
  let s9 := m.data 9
  (if s9.isEmpty then [] else [(9, leAt s9 8 8, 4 * leAt s9 2 2), (9, leAt s9 16 8, 4 * leAt s9 2 2)])
    ++ ((upTo (m.descBefore 28)).flatMap fun k =>
        ((Desc.ofBytes (((m.data 10).drop (448 + 128 * k)).take 128)).named d.deviceId).map fun a => (10, a))
    ++ (if (m.data 11).isEmpty then [] else t.collNamed.map fun a => (11, a))
    ++ (upTo 8).flatMap (fun b => (t.burnAreas b).map fun a => (12, a))

/-- A section's contents may stand there. Records of section 0x000E go to the Felt and the stacks alone (R290). -/
def Dev.placeOk (d : Dev) (t : Nat × Nat × Nat) : Bool :=
  d.populated t.2.1 t.2.2 && !d.inDumpRing t.2.1 t.2.2 && !d.inSampleRing t.2.1 t.2.2
    && !(t.1 == 14 && (inTree t.2.1 || inControl t.2.1))

def Dev.targetsBad (d : Dev) (m : Image) : Option Nat :=
  let ts := m.targets
  let bad (t : Nat × Nat × Nat) : Bool := !d.placeOk t
  let clash (t : Nat × Nat × Nat) : Bool := ts.any fun o => o.1 != t.1 && meets o.2.1 o.2.2 t.2.1 t.2.2
  let own (typ : Nat) : Bool := typ != 10 && overlapping ((ts.filter fun t => t.1 == typ).map Prod.snd)
  firstOf [
    (ts.find? bad).map fun t => m.indexOf t.1,
    (ts.find? clash).map fun t => m.indexOf t.1,
    ([2, 3, 4, 5, 6, 7, 14].find? own).map m.indexOf,
    ((d.named m).find? fun a => d.namesAbsent a.2.1 a.2.2 || (a.1 != 10 && meetsStow a.2.1 a.2.2)).map fun a => m.indexOf a.1,
    (if m.h 80 8 != 0 && !d.populated (m.h 72 8) (m.h 80 8 * 4) then some 0xFF else none)]

/-! ### Order 11, section 0x0002 (R14, R26, R37, R71, R129, R156, R159, R167–R192) -/

/-- What a matrix operation holds that can never be performed. -/
def MOp.loadFault : MOp → Option Nat
  | .load t term _ => loadTypeFault false t term
  | .loadTurn t term _ => loadTypeFault true t term
  | .stream op f group strict term kBase =>
    let x := (ElemType.ofCode f.typ).getD .bf16
    firstOf [streamFieldFault (op == .add) strict group f.typ term,
      codeIf ((f.src == 1 || f.src == 2) && f.aix != 0) 0x0582,
      codeIf (op != .add && decide (65535 < kBase + (if x == .e2m1 then 192 else kOfType x) - 1)) 0x0559]
  | .drain f =>
    let typeBad := match ElemType.ofCode f.typ with
      | some t => !t.drainOk
      | none => true
    if !f.index && typeBad then some 0x0540
    else codeIf ((f.dest == 0 && decide (31 < f.target)) || (f.dest == 2 && f.target != 0)) 0x0582
  | .refused => some 0x0582
  | .tile _ _ => none
  | .zero _ => none
  | .loadAcc _ _ _ _ => none
  | .swap => none
  | .drainWb _ => none

def VOp.loadFault : VOp → Option Nat
  | .cvt _ _ t term => firstOf [codeIf (ElemType.ofCode t).isNone 0x0540, codeIf (term != 0 && t != 1) 0x0582]
  | .drop _ a b c _ =>
    let isReg : VSrc → Bool := fun s => (match s with
      | .reg _ => true
      | .const _ => false)
    codeIf (!isReg a || isReg b || isReg c) 0x0582
  | .vu _ _ _ _ _ => none
  | .eset _ _ => none
  | .ld _ _ _ t => codeIf (ElemType.ofCode t).isNone 0x0540
  | .st _ _ _ t => codeIf (ElemType.ofCode t).isNone 0x0540
  | .reGo _ _ _ => none

def XOp.loadFault : XOp → Option Nat
  | .turn _ _ t _ =>
    match ElemType.ofCode t with
    | none => some 0x0540
    | some x => codeIf x.isMx 0x0571
  | .bcast _ _ _ t =>
    match ElemType.ofCode t with
    | none => some 0x0540
    | some x => codeIf (!x.operandOk) 0x0540
  | .move _ => none

def SOp.loadFault (repeated : Bool) : SOp → Option Nat
  | .postToken _ _ n => codeIf (n == 0) 0x0582
  | .postStash _ _ n => codeIf (n != 1) 0x0582
  | .wait f => codeIf (f.n == 0) 0x0582
  | .beat _ _ _ _ => codeIf repeated 0x0582
  | .tally _ _ _ => codeIf repeated 0x0582
  | .halt _ => codeIf repeated 0x0582
  | .loop _ _ _ => none
  | .fence _ => none

def Bundle.loadFault (b : Bundle) : Option Nat :=
  firstOf [b.m.bind MOp.loadFault, b.v.bind VOp.loadFault, b.x.bind XOp.loadFault, b.s.bind (SOp.loadFault (b.repeats != 0))]

/-- The bundles of the image: panel, address, word. -/
def Image.bundles (m : Image) : List (Nat × Nat × Nat) :=
  (m.recs 2).flatMap fun r => (r.entries 32).map fun e => (r.unit, e.1, e.2)

def bundleFault (w : Nat) : Option Nat :=
  match decodeBundle w with
  | .error c => some c
  | .ok b => b.loadFault

/-- A loop of the image: its panel, level, first and last bundle (R184). -/
structure LoopBody where
  panel : Nat
  level : Nat
  first : Nat
  last : Nat
deriving DecidableEq, Repr

def Image.loops (m : Image) : List LoopBody :=
  m.bundles.filterMap fun e => match decodeBundle e.2.2 with
    | .ok b => match b.s with
      | some (.loop level start _) => some ⟨e.1, level, start, e.2.1⟩
      | _ => none
    | .error _ => none

/-- Two loops that R185 refuses together. -/
def LoopBody.clash (a b : LoopBody) : Bool :=
  let over_ := decide (a.first ≤ b.last) && decide (b.first ≤ a.last)
  let inside := (decide (a.first ≤ b.first) && decide (b.last ≤ a.last)) || (decide (b.first ≤ a.first) && decide (a.last ≤ b.last))
  a.panel == b.panel && a.last != b.last && over_ && (a.level == b.level || !inside)

def loopsClash : List LoopBody → Bool
  | [] => false
  | x :: xs => xs.any (x.clash ·) || loopsClash xs

/-! Combinations that are certain (R26, R37, R88). A panel's bundles run in address order from its first one, loop ends
branch back only, and no wait changes the order: on the first pass over a bundle the last mm.tile of each entry is known,
and the weight tiles are known wherever no loop has ended since their loads (DEDUCED, log 99). -/

/-- What the loader knows as it follows a panel: tile words, the types and terms of the two weight tiles, and the
cycles until the first rows of the streams that have issued enter, with the code each meets under the tile active now. -/
structure Follow where
  tiles : Sparse Nat
  active : Option (Nat × Nat)
  shadow : Option (Nat × Nat)
  waiting : List (Nat × Nat)
deriving DecidableEq, Repr

/-- A panel at its first bundle (R85). -/
def Follow.start : Follow := ⟨[], some (Latch.reset.typ, Latch.reset.term), some (Latch.reset.typ, Latch.reset.term), []⟩

/-- A stream issues: the code it is sure to meet by its tile's mode, or what its first row will meet. -/
def Follow.stream (w : Follow) (arith : Bool) (op : StreamOp) (f : StreamF) (bit : Bool) (term : Nat) : Follow × Option Nat :=
  let arith := arith && op == .add
  let t := Tile.ofWord (sget 0 w.tiles f.tile)
  if streamModeFault t op (bit || arith) arith == some 0x0543 then (w, some 0x0543)
  else match w.active.bind fun a => streamRefusal (bit || arith) a.1 a.2 f.typ term with
    | some code => ({ w with waiting := w.waiting ++ [(if f.src = 3 then 4 else 14, code)] }, none)
    | none => (w, none)

/-- A bundle issues: a first row that has entered by then met its code. -/
def Follow.bundle (w : Follow) (arith : Bool) (b : Bundle) : Follow × Option Nat :=
  match w.waiting.find? fun s => decide (s.1 ≤ b.delay) with
  | some s => (w, some s.2)
  | none =>
    let w := { w with waiting := w.waiting.map fun s => (s.1 - b.delay, s.2) }
    let r : Follow × Option Nat := match b.m with
      | some (.tile e v) => if tileRefused v then (w, none) else ({ w with tiles := sset 0 w.tiles e v }, none)
      | some (.load typ term _) => ({ w with shadow := some (typ, term) }, none)
      | some (.loadTurn typ term _) => ({ w with shadow := some (typ, term) }, none)
      | some .swap =>
        if b.repeats = 0 then ({ w with active := w.shadow, shadow := w.active, waiting := [] }, none)
        else ({ w with active := none, shadow := none, waiting := [] }, none)
      | some (.stream op f _ bit term _) => w.stream arith op f bit term
      | _ => (w, none)
    match b.s with
    | some (.loop _ _ n) => if n = 0 then r else ({ r.1 with active := none, shadow := none, waiting := [] }, r.2)
    | _ => r

/-- The first code that a panel is sure to meet from bundle a on, among the bundles the image gives it. -/
def Follow.run (arith : Bool) (bundles : List (Nat × Nat)) : Nat → Nat → Follow → Option Nat
  | 0, _, _ => none
  | k + 1, a, w =>
    match bundles.find? fun e => e.1 == a with
    | none => none
    | some e => match decodeBundle e.2 with
      | .error _ => none
      | .ok b =>
        let r := w.bundle arith b
        match r.2, b.s with
        | some code, _ => some code
        | none, some (.halt _) => none
        | none, _ => Follow.run arith bundles k (a + 1) r.1

/-- The combination that a panel of the mask is certain to meet. -/
def Image.streamCheck (m : Image) : Option Nat :=
  firstOf (((upTo 128).filter fun p => bitOf m.mask p).map fun p =>
    let own := (m.bundles.filter fun e => e.1 == p).map Prod.snd
    Follow.run (m.h 8 1 == 1) own own.length (fieldOf (m.panelEntry p) 12 0) Follow.start)

def Image.bundleCheck (m : Image) : Option Nat :=
  firstOf [firstOf (m.bundles.map fun e => bundleFault e.2.2), m.streamCheck,
    codeIf (m.loops.any (fun l => decide (l.last < l.first)) || loopsClash m.loops) 0x0588]

/-! ### Section 0x0005 (R95) and 0x0006 (R99) -/

/-- Operations that use each field of a request record (R94). -/
def reUses (field op : Nat) : Bool :=
  if field = 0 then op != 7
  else if field = 1 then [1, 2, 3, 4, 8, 9, 11, 12, 13].contains op
  else if field = 2 then [1, 2, 4, 8].contains op
  else if field = 3 then op != 10
  else if field = 4 then [2, 4, 6, 11, 12, 13].contains op
  else if field = 5 then [2, 4, 5, 6, 8, 10, 11, 12, 13].contains op
  else if field = 6 then [5, 6, 8, 10, 11, 12, 13].contains op
  else if field = 7 then [6, 10].contains op
  else if field = 8 then [5, 6, 8].contains op
  else if field = 9 then [12, 13].contains op
  else if field = 10 then !([9, 12, 13].contains op)
  else [1, 3, 5, 6, 8, 11].contains op

/-- An address of the Felt outside its fenced bank groups, with the n bytes from it. -/
def Dev.inFelt (d : Dev) (a n : Nat) : Bool := decide (a < feltSize) && d.populated a (max n 1)

/-- n bytes from a lie where a request of island i may write its rows (R94). -/
def Dev.reDestOk (d : Dev) (i a n : Nat) : Bool :=
  d.inFelt a n || (decide (scratchBase (8 * i) ≤ a) && decide (a + n ≤ scratchBase (8 * i + 8)))

/-- A record that R95 refuses. SENSE is no field of re.topk's own but is taken there with either value, and re.smax.fin
gives a LEN although no input is named (DESIGN CHOICE, log 95). -/
def Dev.requestBad (d : Dev) (i : Nat) (bs : List Byte) : Bool :=
  let r := ReRec.ofBytes bs
  let u (f : Nat) : Bool := reUses f r.op
  let unused (f v : Nat) : Bool := !u f && v != 0
  let sizes := r.inputs
  let bytes (k : Nat) : Nat := let x := nth (0, true) sizes k; if x.2 then x.1 * r.rows else x.1
  let srcBad (k a : Nat) : Bool := u k && !(k == 0 && r.drained) && !d.inFelt a (bytes k)
  let dbOk : Bool := if r.op = 2 then d.inFelt r.db (512 * r.w) else if r.op = 4 then d.inFelt r.db (256 * r.w)
    else d.reDestOk i r.db (r.rows * r.outBytesB)
  let floatDst := [1, 2, 3, 4, 5, 6, 8, 11].contains r.op
  !within 1 13 r.op || fieldOf r.flags 7 3 != 0 || leAt bs 2 2 / 1024 != 0 || leAt bs 12 1 / 16 != 0 || leAt bs 13 1 != 0
    || fieldOf (leAt bs 14 2) 14 9 != 0 || (r.token.isNone && leAt bs 14 2 != 0)
    || r.len == 0 || r.rows == 0 || unused 0 r.a || unused 1 r.b || unused 2 r.c || unused 3 r.da || unused 4 r.db
    || unused 5 r.p0 || unused 6 r.p1 || unused 7 (bitNat r.first) || unused 8 (bitNat r.causal) || unused 9 r.sense
    || unused 10 r.inst || unused 11 r.const
    || ((r.op == 2 || r.op == 4) && decide (65536 ≤ r.p0))
    || (r.drained && decide (32768 < r.rows * r.w * 64)) || (!r.drained && decide (32768 < r.len))
    || (r.a == 0 && u 0 && !r.drained)
    || srcBad 0 r.a || srcBad 1 r.b || srcBad 2 r.c
    || (u 3 && !d.reDestOk i r.da (r.rows * r.outBytesA)) || (u 4 && !dbOk)
    || (if r.op = 7 then r.srcTyp != 0 else decide (2 < r.srcTyp))
    || (if floatDst then !(decide (r.dstTyp < 3) || within 4 8 r.dstTyp) else r.dstTyp != 0)
    || (r.op == 12 && decide (0x1000000 ≤ r.p1)) || (r.op == 13 && !within 1 64 (r.p1 / 0x1000000))

def Dev.requestCheck (d : Dev) (m : Image) : Option Nat :=
  codeIf ((m.recs 5).any fun r => r.kind == 0 &&
    (upTo r.count).any fun k => d.requestBad r.unit ((r.data.drop (64 * k)).take 64)) 0x0561

def Dev.statEntryBad (d : Dev) (w : Nat) : Bool :=
  let ring := fieldOf w 124 118
  let ns := fieldOf w 117 111
  let rows := fieldOf w 94 79 + 1
  let z := if fieldOf w 126 125 = 3 then 16 else 8
  let spill := (ring - ns) * rows * z
  !within 1 64 ring || decide (ring < ns) || fieldOf w 34 0 != 0
    || decide (0x200000 < fieldOf w 78 61 * 8 + ns * rows * z)
    || (spill != 0 && !d.inFelt (fieldOf w 60 35 * 32) spill)

/-- Every entry that is VALID is checked; one that is not may hold nothing. -/
def Dev.statCheck (d : Dev) (m : Image) : Option Nat :=
  codeIf ((m.recs 6).any fun r => (r.entries 16).any fun e => e.2 != 0 && d.statEntryBad e.2) 0x0562

/-! ### Sections 0x0003, 0x0007 -/

def Image.addressCheck (m : Image) : Option Nat :=
  codeIf ((m.recs 3).any fun r => (r.entries 32).any fun e => AddrEntry.refused e.2) 0x0585

/-- The wide-buffer tables as the load would leave them (R132). -/
def Dev.wideCheck (trial : Dev) (m : Image) : Option Nat :=
  codeIf ((m.recs 7).any fun r => r.kind == 0 && (r.entries 32).any fun e => trial.wbRefused false r.unit e.1 e.2) 0x0574

/-! ### Section 0x0009 (R431, R74) -/

def Dev.witnessBad (d : Dev) (m : Image) (s : List Byte) : Bool :=
  let last := bitOf (leAt s 1 1) 0
  let rows := leAt s 2 2
  let a := leAt s 8 8
  let b := leAt s 16 8
  s.length != 320 || decide (m.slots ≤ leAt s 0 1) || decide (2 ≤ leAt s 1 1) || (last != (rows != 0))
    || !within 1 m.stepBeats (leAt s 4 4) || !zeroAt s 24 40
    || (if last then !(d.populated a (4 * rows) && (decide (a < feltSize) || inNear a)) || !d.populated b (4 * rows)
        else a != 0 || b != 0)
    || (upTo 128).any fun p =>
      let e := leAt s (64 + 2 * p) 2
      fieldOf e 14 13 != 0 || (bitOf e 15 && !bitOf m.mask p)

/-- The scan of a replay's bundles in address order: what is streamed and not drained. -/
def Dev.replayScan (d : Dev) (p : Nat) : Nat → Nat → Option Nat → Bool
  | 0, _, _ => false
  | k + 1, a, open_ =>
    match decodeBundle (d.readNat (bundleBase p + 32 * (a % 8192)) 32) with
    | .error _ => false
    | .ok b =>
      let bad := match b.m with
        | some (.tile _ v) => decide (1024 < (Tile.ofWord v).count)
        | some (.stream _ f _ _ _ _) => (match open_ with | some t => t != f.tile | none => false)
        | _ => false
      let next := match b.m with
        | some (.stream _ f _ _ _ _) => some f.tile
        | some (.drain f) => if open_ = some f.tile then none else open_
        | some (.drainWb f) => if open_ = some f.tile then none else open_
        | _ => open_
      let ends := match b.s with
        | some (.halt _) => true
        | _ => false
      bad || (!ends && d.replayScan p k (a + 1) next)

def Dev.witnessCheck (trial : Dev) (m : Image) : Option Nat :=
  let s := m.data 9
  if (m.sect 9).isNone then codeIf (trial.get Ent.snapInterval != 0) 0x0730
  else firstOf [codeIf (trial.witnessBad m s) 0x0731,
    codeIf ((upTo 128).any fun p => let e := leAt s (64 + 2 * p) 2; bitOf e 15 && trial.replayScan p 8192 (e % 8192) none) 0x055B]

/-! ### Section 0x000A (R233, R240, R324) -/

def Image.queueBad (m : Image) : Bool :=
  let qs := (upTo 28).map m.queue
  let bytes (q : QueueEnt) : Nat := 128 * q.held
  (m.data 10).length != 448 + 128 * m.descBefore 28
    || qs.any (fun q => q.reserved != 0 || !([1, 2, 4].contains q.period) || decide (feltSize < q.base + bytes q))
    || overlapping (qs.map fun q => (q.base, bytes q))

def Dev.descCheck (trial : Dev) (bs : List Byte) : Option Nat :=
  let c := Desc.ofBytes bs
  firstOf [c.refused trial.deviceId, match trial.creditNeed c with
    | some (k, n) => codeIf (decide ((trial.outStream k).bufs < n)) 0x0407
    | none => none]

def Dev.queueCheck (trial : Dev) (m : Image) : Option Nat :=
  if (m.sect 10).isNone then none
  else firstOf (codeIf m.queueBad 0x060C ::
    (upTo (m.descBefore 28)).map fun k => trial.descCheck (((m.data 10).drop (448 + 128 * k)).take 128))

/-! ### Section 0x000B (R340, R341) -/

/-- An area lies in one near stack. -/
def nearArea (a : Nat × Nat) : Bool :=
  a.2 == 0 || (inNear a.1 && decide ((a.1 - 0x4000000000) % 0x1000000000 + a.2 ≤ nearSize))

def Dev.nodeBad (t : Dev) (i : Nat) : Bool :=
  let s := (t.section 0x000B).drop (256 + 128 * i)
  let n := t.nodeRec i
  let h := t.collHead
  let rec_ (r : Nat) : RoundRec := t.roundRec i r
  let raw (r off len : Nat) : Nat := leAt (t.section 0x000B) (256 + 128 * h.nodes + 32 * (n.firstRound + r) + off) len
  !zeroAt s 9 3 || !zeroAt s 20 4 || !zeroAt s 40 24 || decide (32 < n.children) || ((n.level == 0) != (n.children == 0))
    || n.rounds == 0 || !within 1 16 n.ring || (n.level == 0 && (n.staging != 0 || n.keep != 0))
    || (upTo 32).any (fun k => decide (n.children ≤ k) && nth 0 n.child k != 0xFFFF)
    || ((upTo h.nodes).any fun j => j != i && (t.nodeRec j).tree == n.tree)
    || decide (h.roundRecs < n.firstRound + n.rounds)
    || (upTo n.rounds).any fun r =>
      let x := rec_ r
      x.tree != n.tree || x.round != r || raw r 3 1 != 0 || !within 1 n.maxb x.blocks
        || (if n.isRoot then !within ((x.blocks - 1) * 256 + 1) (x.blocks * 256) x.elements else x.elements != 0 || x.rootOut != 0)
        || decide (h.voteDeadline ≤ x.deadline) || (n.level == 0 && x.deadline != 0)

def Dev.gatherBad (t : Dev) (i : Nat) : Bool :=
  let g := t.gatherRec i
  let h := t.collHead
  let e := t.mcastEnt g.group
  leAt (t.section 0x000B) (256 + 128 * h.nodes + 32 * h.roundRecs + 32 * i + 3) 1 != 0 || decide (3 < g.copy)
    || decide (2 ^ 48 ≤ g.elementBase) || g.data % 2 != 0 || g.sealAt % 8 != 0
    || decide (65536 ≤ g.group) || !e.valid || !e.deliver

def Dev.collBad (t : Dev) (m : Image) : Bool :=
  let s := t.section 0x000B
  let h := t.collHead
  let places (from_ to_ used : Nat) (vals : Nat → Nat) : Bool := (upTo to_).any fun k => decide (used ≤ k) && vals (from_ + k) != 0xFFFF
  decide (s.length < 256) || s.length != 256 + 128 * h.nodes + 32 * h.roundRecs + 32 * h.gathers
    || !zeroAt s 21 3 || !zeroAt s 52 12 || !within 1 64 h.stages || decide (h.stages ≤ h.stage) || h.leaves == 0
    || decide (h.leaves ≤ h.leaf) || decide (3 < h.scaleLag) || (!m.staggered && h.scaleLag != 0) || decide (32 < leAt s 13 1)
    || !within 1 64 (leAt s 20 1) || h.foldBytes % 4096 != 0 || !within 1 65535 h.journalRecs
    || decide (m.stepBeats ≤ h.voteDeadline) || !h.replica.contains t.deviceId
    || places 0 32 (leAt s 13 1) (fun k => leAt s (64 + 2 * k) 2) || places 0 64 (leAt s 20 1) (fun k => leAt s (128 + 2 * k) 2)
    || (upTo h.nodes).any t.nodeBad || (upTo h.gathers).any t.gatherBad
    || t.collAreas.any (fun a => !nearArea a) || overlapping t.collAreas

def Dev.collCheck (trial : Dev) (m : Image) : Option Nat :=
  if (m.sect 11).isNone then none
  else firstOf [codeIf (trial.collBad m) 0x0702, codeIf (decide (4096 < trial.collHead.leaves)) 0x0701]

/-! ### Section 0x000C (R377–R382, R283) -/

/-- A group record that R378 refuses. -/
def groupBad (s : List Byte) : Bool :=
  let f (o : Nat) : Nat := leAt s o 4
  let z (b : Bool) (o : Nat) : Bool := !b && f o != 0
  match Algo.ofCode (leAt s 0 1) with
  | none => true
  | some a =>
    let moment := a.usesM
    let second := a == .adamw || a == .adam || a == .lion
    decide (2 ≤ leAt s 1 1) || (leAt s 1 1 != 0 && a != .sgd) || decide (4 ≤ leAt s 2 1) || (leAt s 2 1 != 0 && !a.usesV)
      || !zeroAt s 3 1 || !zeroAt s 32 16
      || fieldOf (f 4) 30 23 == 255 || (bitOf (f 4) 31 && f 4 != 0x80000000)
      || z moment 12 || z moment 16 || z second 20 || z second 24 || z a.usesV 28

def Dev.partBad (t : Dev) (b : Nat) : Bool :=
  let h := t.burnHead
  let q := t.part b
  let s := (t.section 0x000C).drop (64 + 48 * h.groups + 128 * b)
  if !bitOf h.partMask b then q.elements != 0
  else
    let rs := partRuns q
    let areas := t.partAreas b
    q.elements == 0 || decide (4 ≤ leAt s 112 1) || !zeroAt s 113 15 || q.runs == 0 || decide (h.runs < q.runFirst + q.runs)
      || decide (2 ≤ q.start >>> 30) || (q.start >>> 30 == 0 && q.start % 2 ^ 30 != 0)
      || (q.start >>> 30 == 1 && (fieldOf q.start 8 0 != 0 || fieldOf q.start 16 9 == 0))
      || fieldOf q.done 9 0 != 0 || (bitOf q.done 31 && fieldOf q.done 17 10 == 0)
      || rs.any (fun i => decide (h.groups ≤ (t.runRec i).group) || (t.runRec i).count == 0)
      || rs.foldl (fun a i => a + (t.runRec i).count) 0 != q.elements
      || rs.any (fun i => !sameArrays (((t.hyper (t.runRec i).group).algo).getD .plain) (t.partAlgo b))
      || areas.any (fun a => (a.need != (a.addr != 0)) || a.addr % a.align != 0)
      || (q.mirror != 0 && t.get Ent.resilienceMode != 2)
      || (q.mirror != 0 && q.mirror >>> 62 != 1 && q.mirror >>> 62 != 2)

def Dev.burnBad (t : Dev) : Bool :=
  let s := t.section 0x000C
  let h := t.burnHead
  decide (s.length < 64) || !within 1 16 h.groups || !within 1 1048576 h.tableLen || !within 1 65535 h.runs
    || s.length != 64 + 48 * h.groups + 1024 + 32 * h.runs + 48 * h.tableLen || !zeroAt s 2 2 || !zeroAt s 16 48
    || (upTo h.groups).any (fun g => groupBad ((s.drop (64 + 48 * g)).take 48))
    || (upTo h.runs).any (fun i =>
        let r := s.drop (64 + 48 * h.groups + 1024 + 32 * i)
        !zeroAt r 5 3 || !zeroAt r 14 2)
    || (upTo h.tableLen).any (fun i =>
        let r := s.drop (64 + 48 * h.groups + 1024 + 32 * h.runs + 48 * i)
        !zeroAt r 4 4 || !zeroAt r 40 8)
    || (upTo 8).any t.partBad || overlapping ((upTo 8).flatMap t.burnAreas)

/-- An area lies in one stack of Billet b, of the tier its kind asks for (R282, R283). -/
def PartArea.placed (a : PartArea) (b : Nat) : Bool :=
  let inNearStack (s : Nat) : Bool := decide (nearBase s ≤ a.addr) && decide (a.addr + a.bytes ≤ nearBase s + nearSize)
  (!a.deep && (inNearStack (2 * b) || inNearStack (2 * b + 1)))
    || (!a.near && decide (deepBase b ≤ a.addr) && decide (a.addr + a.bytes ≤ deepBase b + 0x1000000000))

/-- R283: some area of part b lies elsewhere than in the stacks of Billet b. -/
def Dev.misplaced (t : Dev) (b : Nat) : Bool :=
  bitOf t.burnHead.partMask b &&
    ((((t.partAreas b).filter fun a => a.addr != 0).any fun a => !a.placed b)
      || (partRuns (t.part b)).any fun i =>
        let r := t.runRec i
        !(PartArea.mk r.grad (4 * r.count) 1 true true false).placed b || !(PartArea.mk r.pub (2 * r.count) 1 true true false).placed b)

def Dev.burnCheck (trial : Dev) (m : Image) : Option Nat :=
  if (m.sect 12).isNone then none
  else firstOf [codeIf trial.burnBad 0x0720, codeIf ((upTo 8).any trial.misplaced) 0x0330]

/-! ### Section 0x000D (R319, R323, R327) -/

/-- Loom records: index, count and entry. -/
def Image.loomRecs (m : Image) : List (Nat × Nat × Nat × Nat) :=
  let s := m.data 13
  (upTo (leAt s 0 4)).map fun k =>
    let o := 16 + 32 * k
    (leAt s o 4, leAt s (o + 4) 4, leAt s (o + 8) 16, leAt s (o + 24) 8)

/-- Multicast records: group, reserved bytes, entry. -/
def Image.mcastRecs (m : Image) : List (Nat × Nat × Nat) :=
  let s := m.data 13
  (upTo (leAt s 4 4)).map fun k =>
    let o := 16 + 32 * leAt s 0 4 + 16 * k
    (leAt s o 2, leAt s (o + 2) 6, leAt s (o + 8) 8)

/-- Stream records: stream, direction, reserved bytes, bits [127:64] of the entry. -/
def Image.streamRecs (m : Image) : List (Nat × Nat × Nat × Nat) :=
  let s := m.data 13
  (upTo (leAt s 8 4)).map fun k =>
    let o := 16 + 32 * leAt s 0 4 + 16 * leAt s 4 4 + 16 * k
    (leAt s o 1, leAt s (o + 1) 1, leAt s (o + 2) 6, leAt s (o + 8) 8)

/-- The Loom entry at place k of a run: SEGMENT rises by 1 at each index. -/
def loomAt (entry k : Nat) : Nat := putField entry 81 15 (fieldOf entry 95 81 + k)

def twice : List Nat → Bool
  | [] => false
  | x :: xs => xs.contains x || twice xs

def Dev.mcastBad (d : Dev) (m : Image) (r : Nat × Nat × Nat) : Bool :=
  let e := McastEnt.ofWord r.2.2
  let named := e.outPorts ++ (if e.inPort = 15 then [] else [e.inPort])
  r.2.1 != 0 || fieldOf r.2.2 37 0 != 0 || (decide (8 ≤ e.inPort) && e.inPort != 15) || e.outPorts.contains e.inPort
    || named.any (fun p => (d.dirOf p).isNone) || e.tag != m.jobTag

def streamBad (r : Nat × Nat × Nat × Nat) : Bool :=
  let e := StreamEnt.ofWord (r.2.2.2 <<< 64)
  decide (64 ≤ r.1) || decide (2 ≤ r.2.1) || r.2.2.1 != 0 || fieldOf r.2.2.2 20 0 != 0 || decide (12 < e.bufLog)
    || (e.valid && e.bufs == 0)

/-- A Loom record that R319 refuses. A MULTICAST entry's TARGET is a group, which no shape holds (DEDUCED, log 104). -/
def Dev.loomRunBad (d : Dev) (m : Image) (r : Nat × Nat × Nat × Nat) : Bool :=
  let e := LoomEnt.ofWord r.2.2.1
  decide (loomSize ≤ r.1) || !within 1 loomSize r.2.1 || decide (loomSize < r.1 + r.2.1) || r.2.2.2 != 0
    || fieldOf r.2.2.1 72 0 != 0 || e.tag != m.jobTag || (e.multicast && e.stream)
    || (!e.multicast && !d.inShape (Coord.ofId e.target)) || decide (32767 < e.segment + r.2.1)

def Dev.loomCheck (d : Dev) (m : Image) : Option Nat :=
  let s := m.data 13
  if (m.sect 13).isNone then none
  else codeIf (decide (s.length < 16) || s.length != 16 + 32 * leAt s 0 4 + 16 * leAt s 4 4 + 16 * leAt s 8 4 || !zeroAt s 12 4
    || m.loomRecs.any (d.loomRunBad m) || overlapping (m.loomRecs.map fun r => (r.1, r.2.1))
    || m.mcastRecs.any (d.mcastBad m) || twice (m.mcastRecs.map Prod.fst)
    || m.streamRecs.any streamBad || twice (m.streamRecs.map fun r => 64 * r.2.1 + r.1)) 0x0409

/-! ### Section 0x000F (R543) -/

/-- A record of settings. -/
structure SetRec where
  key : Nat
  len : Nat
  reserved : Nat
  pad : Nat
  value : Nat
deriving DecidableEq, Repr

/-- The records; none where they do not end at the section's end. -/
def setRecords : Nat → List Byte → Option (List SetRec)
  | 0, _ => none
  | _ + 1, [] => some []
  | k + 1, bs =>
    let n := leAt bs 4 2
    let all := 8 + ceilDiv n 8 * 8
    if bs.length < all then none
    else (setRecords k (bs.drop all)).map fun rs =>
      ⟨leAt bs 0 2 * 256 + leAt bs 2 1, n, leAt bs 3 1 + leAt bs 6 2, leAt bs (8 + n) (all - 8 - n), leAt bs 8 n⟩ :: rs

def Image.settings (m : Image) : Option (List SetRec) := setRecords ((m.data 15).length + 1) (m.data 15)

/-- A record that R543 refuses, given the settings before it as applied. -/
def Dev.settingBad (d : Dev) (r : SetRec) : Bool :=
  match entRow r.key with
  | none => true
  | some row =>
    !row.patternWritable || [Ent.arithMode, Ent.contractResponse, Ent.jobSeed].contains r.key || r.len != row.size || r.reserved != 0
      || r.pad != 0 || !d.rowOk row r.value

/-- The settings applied in order, while none is refused. -/
def Dev.applySettings : List SetRec → Dev → Option Dev
  | [], d => some d
  | r :: rs, d => if d.settingBad r then none else Dev.applySettings rs (d.put r.key r.value)

def Dev.settingCheck (d : Dev) (m : Image) : Option Nat :=
  match m.settings with
  | none => some 0x0932
  | some rs => codeIf ((d.applySettings rs).isNone || twice (rs.map SetRec.key)) 0x0932

/-! ### R403 -/

/-- Bytes of a snapshot image (R410). -/
def Dev.snapImageSize (t : Dev) : Nat :=
  let rows := if t.lastStage then t.lossRows else 0
  256 + ceilDiv (4 * rows) 256 * 256 + ((upTo 8).filter t.hasPart).foldl (fun a b =>
    a + 256 + ceilDiv (14 * (ceilDiv (t.part b).elements 64 * 64)) 256 * 256) 0

/-- The device that a global or Loom-mapped address names. -/
def Dev.deviceOf (t : Dev) (a : Nat) : Option Nat :=
  match decodeAddr 0x10000 a with
  | some (.global dev _) => some dev
  | some (.loom e _) => some (LoomEnt.ofWord (t.loomWord e)).target
  | _ => none

def Dev.resilBad (t : Dev) : Bool :=
  let mode := t.get Ent.resilienceMode
  let buddy := t.get Ent.buddyId
  let interval := t.get Ent.snapInterval
  let base := t.get Ent.snapBase
  let parts := (upTo 8).filter t.hasPart
  (mode == 2 && (decide (t.collHead.leaves < 2) || buddy == 0xFFFF
      || parts.any fun b => (t.part b).mirror == 0 || t.deviceOf (t.part b).mirror != some buddy || (t.part b).start >>> 30 != 1))
    || (mode == 1 && interval == 0)
    || (interval != 0 && (parts.any (fun b => !(t.part b).dual) || decide (t.get Ent.snapBytes < t.snapImageSize)))
    || (interval != 0 && t.get Ent.snapTarget == 0 && (base >>> 62 != 1 || t.deviceOf base != some buddy))
    || base % 256 != 0 || t.get Ent.snapBytes % 256 != 0

/-! ### Order 12 -/

/-- The STEP_ENTRY bundle of a panel waits on STEP_CTR. -/
def Dev.stepEntryOk (trial : Dev) (m : Image) (p : Nat) : Bool :=
  let e := m.panelEntry p
  !bitOf m.mask p || match decodeBundle (trial.readNat (bundleBase p + 32 * fieldOf e 28 16) 32) with
    | .ok b => (match b.s with
      | some (.wait f) => f.ctr == fieldOf e 40 32
      | _ => false)
    | .error _ => false

/-! ### What the sections write -/

/-- The Loom map, the stream tables and the multicast table as section 0x000D leaves them (R319). -/
def Dev.placeLoom (d : Dev) (m : Image) : Dev :=
  let d := { d with
    weave := { d.weave with loom := m.loomRecs.foldl (fun (l : Sparse Nat) (r : Nat × Nat × Nat × Nat) =>
      (upTo r.2.1).foldl (fun (l : Sparse Nat) k => sset 0 l (r.1 + k) (loomAt r.2.2.1 k)) l) [] }
    shuttles := smapv Shuttle.reset d.shuttles fun _ (x : Shuttle) => { x with cache := [] } }
  let d := (d.zeroRange streamBase 0xA00).zeroRange mcastBase 0x80000
  let d := m.mcastRecs.foldl (fun (d : Dev) (r : Nat × Nat × Nat) => d.writeNat (mcastBase + 8 * r.1) 8 r.2.2) d
  m.streamRecs.foldl (fun (d : Dev) (r : Nat × Nat × Nat × Nat) => d.writeNat (streamBase + 0x400 * r.2.1 + 16 * r.1) 16 (r.2.2.2 <<< 64)) d

/-- The tables of sections 0x0002 to 0x0007. -/
def Dev.placeTables (d : Dev) (m : Image) : Dev :=
  [2, 3, 4, 5, 6, 7].foldl (fun (d : Dev) t => d.placeSection t (m.data t)) d

/-- The header's entries, then the records of section 0x000F (R544). -/
def Dev.placeSettings (d : Dev) (m : Image) : Dev :=
  let d := ((d.put Ent.arithMode (m.h 8 1)).put Ent.contractResponse (m.h 9 1)).put Ent.jobSeed (m.h 88 8)
  (m.settings.getD []).foldl (fun (d : Dev) r => d.put r.key r.value) d

/-- The device as it would stand with the image's tables and settings, for the checks that need them. -/
def Dev.trial (d : Dev) (m : Image) : Dev :=
  let d := { d with pat := m.pattern }
  ((d.placeTables m).placeLoom m).placeSettings m

/-! ### The checks in order (R227) -/

/-- Order 11: the sections' own checks, in section-type order, then R403. -/
def Dev.sectionChecks (d t : Dev) (m : Image) : List (Nat × Option Nat) :=
  [(2, m.bundleCheck), (3, m.addressCheck), (5, d.requestCheck m), (6, d.statCheck m), (7, t.wideCheck m), (9, t.witnessCheck m),
    (10, t.queueCheck m), (11, t.collCheck m), (12, t.burnCheck m), (13, d.loomCheck m),
    (14, codeIf m.memRecs.isNone 0x0331), (15, d.settingCheck m), (0, codeIf t.resilBad 0x0730)]

/-- Order 14: faults that the loader proves certain, beyond those of Follow; which it can prove is the part's own (log 9). -/
def provable (bs : List Byte) : Option (Nat × Nat × Nat) :=
  (Config.provableFault bs).map fun c => (c, if c / 256 = 6 then 11 else 14, 0xFF)

/-- The first of checks 2 to 12 that fails. keep is the digest that a reload must match (R575). -/
def Dev.earlyRefused (d : Dev) (f : Fuses) (m : Image) (keep : Option Nat) : Option (Nat × Nat × Nat) :=
  let t := d.trial m
  let v (bad : Bool) (code order : Nat) : Option (Nat × Nat × Nat) := if bad then some (code, order, 0xFF) else none
  firstOf ([
    m.structureBad.map fun k => (0x0500, 2, k),
    m.sums.map fun k => (0x0505, 3, k),
    v (match keep with | some g => g != m.digest | none => false) 0x0505 3,
    v (m.h 6 1 != f.grade) 0x0501 4,
    v (!d.shapeMatches m) 0x0502 5,
    v (m.h 20 4 != d.get Ent.beatPeriodNs) 0x0503 6,
    v (!d.tagAssigned m.jobTag) 0x0504 7,
    v (m.mask &&& d.get Ent.panelMask != m.mask) 0x055A 8,
    (d.rangesBad m).map fun k => (0x050A, 9, k),
    (d.targetsBad m).map fun k => (0x0507, 10, k)]
    ++ (d.sectionChecks t m).map (fun c => c.2.map fun code => (code, 11, m.indexOf c.1))
    ++ [codeIf ((upTo 128).any fun p => !t.stepEntryOk m p) 0x050B |>.map fun c => (c, 12, m.indexOf 2)])

/-- The first check that fails, from order 2 on. -/
def Dev.imageRefused (d : Dev) (f : Fuses) (m : Image) (keep : Option Nat) : Option (Nat × Nat × Nat) :=
  (d.earlyRefused f m keep).orElse fun _ =>
    if (d.trial m).bankCheck then some (0x0521, 13, 0xFF) else provable m.bytes

end Sys2Proof.Machine
end

