-- ==== Sys2Proof/Machine/Loader.lean ====
section
/-!
DEFINITION. Loading a Pattern (*From power to release*, R571–R577; *The schedule contract*, R228, R634, R635;
R289, R393, R418, R487, R544). A load is one command; an event that meets it is an operand (log 4).
-/
namespace Sys2Proof.Machine
open Sys2Proof

/-! ### Outcomes -/

/-- A load that fails: its fault and 0x6202:00 LOAD_STATUS (R227, R230, R573). -/
def Dev.loadFailed (d : Dev) (code order dir : Nat) : Dev × Nat :=
  ((d.fault code Unit.loader order).put Ent.loadStatus (code + order <<< 16 + dir <<< 24), code)

/-- What the image writes outside the Tree's private tables, as address and length. -/
def Image.memoryTargets (m : Image) : List (Nat × Nat) := (m.targets.map Prod.snd).filter fun t => decide (t.1 < 1 <<< 60)

/-- Targets of a load that broke off hold unspecified contents (R573). -/
def Dev.spoil (d : Dev) (ts : List (Nat × Nat)) : Dev :=
  ts.foldl (fun (d : Dev) (t : Nat × Nat) => let r := d.freeBytes t.2; r.1.write t.1 r.2) d

/-! ### What a load writes -/

/-- 0x6012:00 SIDE_USE: side-memory and spill bytes that the VALID entries of each engine map. -/
def Dev.sideUse (d : Dev) : Nat :=
  leNat ((upTo 16).flatMap fun i =>
    let sums := (d.island i).statMap.foldl (fun (a : Nat × Nat) (e : Nat × Nat) =>
      if bitOf e.2 127 then
        let z := (fieldOf e.2 94 79 + 1) * statSize (fieldOf e.2 126 125)
        (a.1 + fieldOf e.2 117 111 * z, a.2 + (fieldOf e.2 124 118 - fieldOf e.2 117 111) * z)
      else a) ((0, 0) : Nat × Nat)
    leBytes 4 sums.1 ++ leBytes 4 sums.2)

/-- R634: panels are reset; token and stash counters are 0; no alarm is armed. -/
def Dev.prepareTree (d : Dev) : Dev :=
  let d := (upTo 128).foldl (fun (d : Dev) p => (d.panelReset p).modPanel p fun x => { x with alarm0 := none, alarm1 := none }) d
  let d := (upTo 16).foldl (fun (d : Dev) i => d.modIsland i fun x => { x with tokens := [] }) d
  d.zeroRange stashBase 32

/-- The recovery copy holds its sections as they stand in the image (R635). -/
def Dev.placeCopy (d : Dev) (m : Image) : Dev :=
  m.pattern.copies.foldl (fun (d : Dev) (q : Nat × Nat × Nat) => d.write q.2.1 (m.data q.1)) d

/-- Every queue's descriptors go to the Felt (R233). -/
def Dev.placeQueues (d : Dev) (m : Image) : Dev :=
  if (m.data 10).isEmpty then d
  else (upTo 28).foldl (fun (d : Dev) n => d.write (m.queue n).base (m.queueBytes n)) d

/-- The queues that the Shuttles run. -/
def Dev.setQueues (d : Dev) (m : Image) : Dev :=
  let one (n : Nat) : Shuttle :=
    let q := m.queue n
    if (m.data 10).isEmpty then Shuttle.reset
    else { Shuttle.reset with base := q.base, prologue := q.prologue, body := q.body, period := q.period }
  { d with shuttles := (upTo 28).foldl (fun (l : Sparse Shuttle) n => sset Shuttle.reset l n (one n)) [] }

/-- The records of section 0x000E, in order (R289); a reload leaves out what lies in the stacks (R487). -/
def Dev.placeMemory (d : Dev) (m : Image) (reload : Bool) : Dev :=
  ((m.memRecs.getD []).filter fun r => !(reload && inStack r.addr)).foldl (fun (d : Dev) (r : MemRec) => d.write r.addr r.bytes) d

/-- What a load and a reload both write: tables, recovery copy, descriptors, memory, entries. -/
def Dev.placeImage (d : Dev) (m : Image) (reload : Bool) : Dev :=
  let d := (((d.placeTables m).placeCopy m).placeQueues m).placeMemory m reload
  let d := ((d.placeSettings m).put Ent.patternDigest m.digest).put Ent.pipeMode (m.h 7 1)
  d.put Ent.sideUse d.sideUse

/-- The step whose start beat is the next to come. -/
def Dev.comingStep (d : Dev) (p : Pattern) : Nat :=
  let l := d.get Ent.logicalBeat
  if l < p.startBeat then p.firstStep else p.firstStep + (l - p.startBeat) / p.stepBeats + 1

/-- The device enters LOADED, or ADOPTING where an adoption is pending in MIRROR mode (R228, R416, R418). -/
def Dev.enterLoaded (d : Dev) : Dev :=
  let adopting := d.resil.adoptPending && d.get Ent.resilienceMode == 2
  let d := if d.resil.adoptPending then d.setPhase (if adopting then 2 else 0) else d
  let d := { d with resil := { d.resil with adoptPending := false } }
  if adopting then d.enterState St.adopting 0
  else
    (d.enterState St.loaded 0).checkRunStep

/-- A first load that passed every check. -/
def Dev.loadNew (d : Dev) (m : Image) : Dev :=
  let p := m.pattern
  let d := d.prepareTree
  let d : Dev := { d with
    pat := p
    contract := { ContractState.reset with transit := d.contract.transit, inPause := d.contract.inPause, nextStep := d.comingStep p }
    coll := { CollState.reset with lastFpFail := d.coll.lastFpFail }
    wide := { d.wide with claims := [] }
    time := { d.time with everLoaded := true }
    power := { d.power with digest := m.digest } }
  let d := ((d.placeLoom m).put Ent.streamState 0).placeImage m false
  ((d.setQueues m).loadParts).enterLoaded

/-- A reload after a stack reset (R487): a device in a run rejoins at the first step start that falls at least
RECOVERY_BEATS from now. -/
def Dev.reload (d : Dev) (m : Image) : Dev :=
  let d := d.placeImage m true
  if d.inState [St.running, St.held, St.braced] then
    let due := d.get Ent.logicalBeat + d.pat.recoveryBeats
    let k := if due ≤ d.pat.startBeat then d.pat.firstStep else d.pat.firstStep + ceilDiv (due - d.pat.startBeat) d.pat.stepBeats - d.pat.rebased
    (d.putB Ent.stackResetStatus 1 1 3).putB Ent.stackResetStatus 8 4 k
  else d.putB Ent.stackResetStatus 1 1 0

/-! ### A load from either path (R573 steps 2 and 3) -/

/-- The checks and, when all pass, the writes, unless the load ends otherwise. A reload that breaks off keeps its
Pattern and waits on (DESIGN CHOICE, log 9). -/
def Dev.load (d : Dev) (f : Fuses) (bs : List Byte) (reload : Bool) (ends : LoadEnd) : Dev × Nat :=
  let m := Image.ofBytes bs
  if (if reload then d.reloadState != 1 else d.devState != St.ready) then d.loadFailed 0x0506 1 0xFF
  else match d.imageRefused f m (if reload then some d.power.digest else none) with
    | some v => d.loadFailed v.1 v.2.1 v.2.2
    | none =>
      if ends != .done then
        let d := d.spoil (m.memoryTargets.filter fun t => !(reload && inStack t.1))
        (if reload then d else d.unload).loadFailed (if ends = .abandoned then 0x090C else 0x090B) 0 0xFF
      else ((if reload then d.reload m else d.loadNew m).put Ent.loadStatus 0, 0)

/-- An image in memory lies in the populated part of one ready near stack, outside the stow area. -/
def Dev.imageInNear (d : Dev) (a n : Nat) : Bool :=
  match d.region a with
  | .near k => decide (a + n ≤ nearBase k + stowOffset)
  | _ => false

/-- A load whose image lies in a near stack. A lost block under it is a read that fails. -/
def Dev.loadLocal (d : Dev) (f : Fuses) (a n : Nat) (reload : Bool) (ends : LoadEnd) : Dev × Nat :=
  if a % 4096 != 0 || decide (n < 256) || !d.imageInNear a n then d.loadFailed 0x090A 0 0xFF
  else (d.countBlocks a n false false).load f (d.read a n) reload (if (d.lostIn a n).isEmpty then ends else .broken)

/-- 0x1120:03 LOAD_COMMAND (R574, R575). -/
def Dev.tackLoad (d : Dev) (f : Fuses) (reload : Bool) (ends : LoadEnd) : Dev :=
  (d.loadLocal f (d.get Ent.loadAddress) (d.get Ent.loadLength) reload ends).1

/-! ### The ring (R571–R573) -/

/-- A ring entry is taken (R573 step 4): STATUS, the head, MSI-X vector 8. -/
def Dev.entryDone (d : Dev) (code : Nat) : Dev :=
  let slot := d.tack.lqBase + 32 * (d.tack.lqHead % d.tack.lqEntries)
  let d := d.hostWrite (slot + 24) (leBytes 4 code)
  ({ d with tack := { d.tack with lqHead := (d.tack.lqHead + 1) % 2 ^ 32 } }).msix 8

/-- The entry at the ring's head, as host memory holds it, and the image it names. With a PCIe hot reset no STATUS is
written and no vector is signalled (R576); the reset itself is the command that follows. -/
def Dev.loadEntry (d : Dev) (f : Fuses) (entry : List Byte) (img : HostImage) : Dev :=
  if d.tack.lqHead = d.tack.lqTail || d.tack.lqEntries = 0 || !d.power.endpoint || !d.power.firstReady then d
  else
    let a := leAt entry 0 8
    let n := leAt entry 8 8
    let flags := leAt entry 16 4
    let d := d.count 0x547 32
    let r :=
      if decide (4 ≤ flags) || leAt entry 28 4 != 0 || a % 4096 != 0 || decide (n < 256) then d.loadFailed 0x090A 0 0xFF
      else if bitOf flags 1 then d.loadLocal f a n (bitOf flags 0) img.ends
      else (d.count 0x547 n).load f (img.bytes.take n) (bitOf flags 0) img.ends
    if img.ends = .hostReset && r.2 = 0x090B then r.1 else r.1.entryDone r.2

def execLoadEntry (entry : List Byte) (img : HostImage) (s : State) : Host.Outcome State Fault Refusal :=
  act (fun d => d.loadEntry s.fuses entry img) s

/-! ### Ring registers -/

/-- A write of LQ_TAIL. -/
def Dev.lqDoorbell (d : Dev) (v : Nat) : Dev :=
  if !d.power.endpoint then d
  else
    let d := d.count 0x547 4
    if d.tack.lqEntries < (v % 2 ^ 32 + 2 ^ 32 - d.tack.lqHead) % 2 ^ 32 then d
    else { d with tack := { d.tack with lqTail := v % 2 ^ 32 } }

/-- A write of LQ_BASE_LO, LQ_BASE_HI or LQ_ENTRIES, at their offsets in BAR4. Bits [11:0] of LQ_BASE_LO are
dropped and the write is taken: the spec states no response to a base that is not aligned (DESIGN CHOICE, log 96). -/
def Dev.lqConfig (d : Dev) (off v : Nat) : Dev :=
  let w := v % 2 ^ 32
  let d := if d.power.endpoint then d.count 0x547 4 else d
  if !d.power.endpoint || d.tack.lqHead != d.tack.lqTail then d
  else if off = 0 then { d with tack := { d.tack with lqBase := putField d.tack.lqBase 0 32 (w / 4096 * 4096) } }
  else if off = 4 then { d with tack := { d.tack with lqBase := putField d.tack.lqBase 32 32 w } }
  else if off = 8 then (if isPow2 w && decide (w ≤ 256) then { d with tack := { d.tack with lqEntries := w } } else d)
  else d

def execLqTailDoorbell (v : Nat) : State → Host.Outcome State Fault Refusal := act fun d => d.lqDoorbell v
def execLqRingConfigWrite (off v : Nat) : State → Host.Outcome State Fault Refusal :=
  act fun d => d.lqConfig off v

end Sys2Proof.Machine
end

