-- ==== Sys2Proof/Machine/Boot.lean ====
section
/-!
DEFINITION. From power to release, resets and low-power states (*From power to release*, R552–R570, R578; *Power
events, resets and low-power states*, R477–R490; *Package, lands and electrical characteristics*, R613–R617).
-/
namespace Sys2Proof.Machine
open Sys2Proof

def Dev.modBoot (d : Dev) (f : BootState → BootState) : Dev := { d with boot := f d.boot }

/-! ### The configuration image (R557–R563) -/

/-- A record: entry, flags, length, reserved bytes, padding, value. -/
structure CfgRec where
  key : Nat
  flags : Nat
  len : Nat
  reserved : Nat
  pad : Nat
  value : Nat
deriving DecidableEq, Repr

/-- The records of an image (R560): none where they do not end at its end. -/
def cfgRecords : Nat → List Byte → Option (List CfgRec)
  | 0, _ => none
  | _ + 1, [] => some []
  | k + 1, bs =>
    let n := leAt bs 4 2
    let all := 8 + ceilDiv n 8 * 8
    if bs.length < all then none
    else (cfgRecords k (bs.drop all)).map fun rs =>
      ⟨leAt bs 0 2 * 256 + leAt bs 2 1, leAt bs 3 1, n, leAt bs 6 2, leAt bs (8 + n) (all - 8 - n), leAt bs 8 n⟩ :: rs

/-- A record is accepted against the entries as the records before it leave them (R561 check 6). -/
def Dev.cfgOk (d : Dev) (r : CfgRec) : Bool :=
  match entRow r.key with
  | none => false
  | some row =>
    (row.access == 2 || row.access == 3) && (row.retention == 3 || row.retention == 4)
      && !within 0xA000 0xA0FF (r.key / 256) && r.len == row.size && r.reserved == 0 && r.pad == 0 && decide (r.flags < 2)
      && (r.flags == 0 || row.retention == 4) && d.rowOk row r.value

def Dev.cfgApply : List CfgRec → Dev → Option Dev
  | [], d => some d
  | r :: rs, d => if d.cfgOk r then Dev.cfgApply rs (d.put r.key r.value) else none

/-- Entries of classes C and W at their defaults; POWER_ZONE's is the strap (R335, R563, R617). -/
def Dev.imageBase (d : Dev) (keep : List Nat) : Dev :=
  ((d.resetClass 3 keep).resetClass 4 []).put Ent.powerZone d.boot.strap

def slotBase (k : Nat) : Nat := 0x1800000 * k

/-- What a slot holds: the failing check's order and fault, or its records, SEQ, VERSION, KEY_SLOT and ROLLBACK. -/
structure SlotInfo where
  order : Nat
  fault : Nat
  seq : Nat
  version : Nat
  keySlot : Nat
  rollback : Nat
  records : List CfgRec
deriving DecidableEq, Repr

/-- The checks of R561, in order. -/
def Dev.checkSlot (d : Dev) (f : Fuses) (k : Nat) : SlotInfo :=
  let head := d.flashBytes (slotBase k) 256
  let len := leAt head 16 4
  let slot := leAt head 6 1
  let bad (order fault : Nat) : SlotInfo := ⟨order, fault, 0, 0, 0, 0, []⟩
  if leAt head 0 4 != 0x47464E43 || leAt head 4 2 != 1 || decide (1 < slot) || decide (63 < leAt head 7 1) || !within 256 25165728 len
      || decide (16384 < leAt head 20 4) || !zeroAt head 28 100 || !zeroAt head 225 31 then bad 1 0x0904
  else
    let body := d.flashBytes (slotBase k) len
    let key := (head.drop 128).take 97
    if crc32 (body.take 24 ++ leBytes 4 0 ++ body.drop 28) != leAt head 24 4 then bad 2 0x0904
    else if leNat (sha384 key) != getBytes f.keyHash (48 * slot) 48 || bitOf f.revoked slot then bad 3 0x0802
    else if !Config.ecdsaVerify key body (d.flashBytes (slotBase k + len) 96) then bad 4 0x0801
    else if leAt head 7 1 < f.rollback then bad 5 0x0803
    else match cfgRecords (len + 1) (body.drop 256) with
      | none => bad 6 0x0908
      | some rs =>
        if rs.length != leAt head 20 4 || twice (rs.map CfgRec.key) || ((d.imageBase []).cfgApply rs).isNone then bad 6 0x0908
        else ⟨0, 0, leAt head 8 4, leAt head 12 4, slot, leAt head 7 1, rs⟩

/-- The slot applied: the higher SEQ of those that pass, slot A with equal SEQ (R562). -/
def chooseSlot (a b : SlotInfo) : Option (Nat × SlotInfo) :=
  if a.order = 0 && b.order = 0 then (if a.seq < b.seq then some (1, b) else some (0, a))
  else if a.order = 0 then some (0, a)
  else if b.order = 0 then some (1, b)
  else none

def noSlot : SlotInfo := ⟨0, 0, 0, 0, 0, 0, []⟩

/-- A fault of Keeper. -/
def Dev.keeperFault (d : Dev) (code detail : Nat) : Dev := d.fault code Unit.keeper detail

/-- Step 4 of R552: both slots are checked, the chosen image is applied, and the device is CONFIGURED. keep names
class-C entries that the start does not return to their values (log 10). Without REFCLK start-up does not pass step 3
(R618): the device stays TRIMMED (DEDUCED, log 111). -/
def Dev.configure (d : Dev) (f : Fuses) (keep : List Nat) : Dev :=
  if !d.boot.refclk then d else
  let b := d.boot
  let a := if b.flashAnswers then d.checkSlot f 0 else noSlot
  let c := if b.flashAnswers then d.checkSlot f 1 else noSlot
  let d := if b.flashAnswers then d else d.keeperFault 0x0903 0
  let d := if a.fault = 0 then d else d.keeperFault a.fault 0
  let d := if c.fault = 0 then d else d.keeperFault c.fault 1
  let chosen := if b.flashAnswers then chooseSlot a c else none
  let d := if chosen.isNone then d.keeperFault 0x0905 0 else d
  let info := (chosen.map Prod.snd).getD noSlot
  let base := d.imageBase ([Ent.deviceState, Ent.bootStatus, Ent.bootTimes] ++ keep)
  let d := (base.cfgApply info.records).getD base
  let d := d.modBoot fun x => { x with
    slot := chosen.map Prod.fst, keySlot := if chosen.isSome then info.keySlot else 0xFF, imageRollback := info.rollback
    records := info.records.map fun r => (r.key, r.value, r.flags == 1), railLate := 0 }
  let rom := d.freeNat 4
  let d := rom.1.put Ent.keeperVersion (leNat (leBytes 4 rom.2 ++ leBytes 4 info.version))
  let d := if b.flashAnswers then d.put Ent.flashInfo (leNat (leBytes 4 b.flashKib ++ leBytes 1 b.flashMode ++ leBytes 1 b.flashClock)) else d
  let d := d.put Ent.bootStatus (leNat (leBytes 1 4 ++ leBytes 1 ((chosen.map Prod.fst).getD 0xFF) ++ leBytes 1 a.order ++ leBytes 1 c.order
    ++ leBytes 2 a.fault ++ leBytes 2 c.fault))
  ((d.enterState St.configured 0).bootMark 2 true).modPower fun x => { x with late := false }

/-- SESSION takes a new value (R540): free, since the spec says random (log 7). -/
def Dev.newSession (d : Dev) : Dev :=
  let r := d.freeNat 5
  let d := r.1.put Ent.session r.2
  { d with tack := { d.tack with highCounter := 0, eventSeq := 0, eventsInSecond := 0 } }

/-! ### Resets (R483, R489–R491) -/

/-- The endpoint's own state (R483, R536, R571). -/
def Dev.endpointReset (d : Dev) : Dev :=
  { d with tack := { d.tack with
      lqBase := 0, lqEntries := 0, lqTail := 0, lqHead := 0, eventEnable := 0xF, msixTable := [], msixPba := 0 } }

/-- Everything that a reset of the whole device puts back: memory zero, no Pattern, units at rest. What has left
the device stands; so do places that spare bank groups serve (R453). -/
def Dev.unitsReset (d : Dev) : Dev :=
  { d with
    mem := [], tier := MemTier.reset, flags := FlagState.reset, panels := [], islands := [], wide := WideState.reset
    pat := Pattern.none, contract := ContractState.reset, shuttles := [], descOrder := 0, coll := CollState.reset, burn := []
    tally := TallyState.reset
    resil := { ResilState.reset with hostOut := d.resil.hostOut }
    stack := { StackState.reset with bgMap := d.stack.bgMap, lossSteps := d.stack.lossSteps }
    power := { PowerState.reset with
      perst := d.power.perst, endpoint := d.power.endpoint, pwrWarn := d.power.pwrWarn, resetHeld := d.power.resetHeld } }

/-- The Weave at rest: links down, nothing under way. What left the ports stands. -/
def Dev.weaveReset (d : Dev) : Dev :=
  let ports : Sparse Link := smapv Link.reset d.weave.ports fun _ (x : Link) => { Link.reset with wire := x.wire }
  { d with weave := { WeaveState.reset with ports := ports } }

/-- Time is to be acquired anew (R502, R636). A cold reset clears the clock; through L3 it runs free (R510). -/
def Dev.timeReset (d : Dev) (clock : Nat) : Dev :=
  { d with time := { TimeState.reset with
      clock := clock, ppsOut := d.time.ppsOut, ptpOut := d.time.ptpOut, ptpPassive := d.time.ptpPassive } }

/-- The dictionary's two paths, the mailbox and the Bridle port as a start finds them. -/
def Dev.pathsReset (d : Dev) : Dev :=
  { d with tack := { d.tack with
      host := ⟨none, []⟩, bridle := ⟨none, []⟩, mbRequest := [], mbResponse := [], mbStatus := 0, mbRespLen := 0
      eventCause := 0 } }

/-- A reset is counted, and its cause shown. -/
def Dev.resetDone (d : Dev) (cause : Nat) : Dev := (d.bump Ent.resetCount 0 4 1).put Ent.resetCause cause

/-- Where a start counts from. -/
def Dev.startClock (d : Dev) : Dev := d.modBoot fun x => { x with startedAt := d.time.clock }

/-- A cold reset (R483): straps are sampled and the device is TRIMMED; it goes on to step 4 unless RESET_N is held. A
device whose ROM or fuses were bad stays SEALED (R556, R578). -/
def Dev.coldReset (d : Dev) (f : Fuses) (strap cause : Nat) : Dev :=
  let d := d.modBoot fun x => { x with strap := strap % 256, jtag := .bypass }
  let d := ((((d.unitsReset).weaveReset).timeReset 0).startClock).pathsReset.endpointReset
  let d := d.modPower fun x => { x with endpoint := false }
  let d := ((d.resetClass 3 [Ent.deviceState]).resetClass 4 []).resetClass 5 []
  let d := (d.resetDone cause).newSession
  if !d.boot.trimmed then d.enterState St.sealed 0
  else
    let d := (d.enterState St.trimmed 0).bootMark 1 true
    if d.power.resetHeld then d else d.configure f [Ent.session]

/-- A warm reset (R483, R554): the links and the training of the stacks are kept, and the device is CONFIGURED until
READY. Class W takes its defaults, or the marked records of the image. -/
def Dev.warmReset (d : Dev) (cause : Nat) : Dev :=
  let locked := d.timeLocked
  let d := d.startClock.unitsReset
  let d := { d with weave := { WeaveState.reset with ports := d.weave.ports } }
  let d := (d.resetClass 4 []).resetClass 5 []
  let marked := d.boot.records.filter fun r => r.2.2
  let d := marked.foldl (fun (d : Dev) (r : Nat × Nat × Bool) => d.put r.1 r.2.1) d
  let d := ((((d.stackOff).stacksRest false).pes 4 false).put Ent.lpState 0).resetDone cause
  let d := (d.put Ent.bootTimes 0).put Ent.bootStatus (putBytes (d.get Ent.bootStatus) 0 1 4)
  let d := d.modTime fun x => { x with acquired := false, everLoaded := false, everReady := false, alignHold := false }
  let d := if locked then d.acquire else d
  (d.enterState St.configured 0).bootMark 2 true

/-- REINSTATE: a warm reset, whose STATE_CMD_STATUS shows pending until READY (R532, R533). -/
def Dev.reinstate (d : Dev) : Dev := (d.warmReset 4).put Ent.stateCmdStatus 0x105

/-- An orderly stack reset (R485). The stack comes up again with its power-up. -/
def Dev.orderlyReset (d : Dev) : Dev := if d.power.stackUp then d.stackLost 1 0x0109 0 else d

/-- RESET_COMMAND: false where the state refuses it (R484). -/
def Dev.resetCommand (d : Dev) (f : Fuses) (v strap : Nat) : Dev × Bool :=
  if v = 1 then (d.coldReset f strap 2, true)
  else if v = 2 then (if d.inState [St.ready, St.spare, St.retired, St.faulted] then (d.warmReset 3, true) else (d, false))
  else if d.inState [St.braced, St.stowed, St.standby, St.faulted, St.sealed, St.trimmed] || d.get Ent.lpState == 2 then (d, false)
  else (d.orderlyReset, true)

/-! ### Power-on (R552 steps 1 to 4) -/

/-- The management key that the key store holds (R566). -/
def Dev.restoreKey (d : Dev) (f : Fuses) : Dev :=
  match d.bestKey with
  | none => d
  | some k => match Config.keyUnwrap f.deviceKey k.2.2 with
    | some key => d.put Ent.mgmtKey (leNat (key.take 32))
    | none => d.keeperFault 0x0804 k.1

/-- Values the fuses give entries (R555). -/
def Dev.applyFuses (d : Dev) (f : Fuses) : Dev := (((d.put Ent.bgClass f.bgClass).put Ent.couplingMap f.couplingRepair).put Ent.accSparesLeft f.accSpares).put Ent.feltBgSpares f.bgSpares

/-- VSTBY is good: everything starts anew but the flash, what has left the device, and RESET_N and PERST as they are held. -/
def Dev.powerOn (d : Dev) (f : Fuses) (x : StartF) : Dev :=
  let fresh : Dev := { Dev.reset with
    boot := { BootState.reset with
      strap := x.strap % 256, flash := d.boot.flash, flashAnswers := x.flashAnswers, flashKib := x.flashKib
      flashMode := x.flashMode, flashClock := x.flashClock, refclk := x.refclk }
    tack := { TackState.reset with freeCount := d.tack.freeCount, bridleOut := d.tack.bridleOut, msixSent := d.tack.msixSent }
    resil := { ResilState.reset with hostOut := d.resil.hostOut }
    power := { PowerState.reset with perst := d.power.perst, resetHeld := d.power.resetHeld } }
  let stay (d : Dev) (code : Nat) : Dev :=
    let d := d.keeperFault code 0
    { d with tack := { d.tack with faultNLatched := true } }
  if !x.romOk then stay fresh 0x0901
  else
    let d := (fresh.bootMark 0 true).bootStep 2 true
    if !x.fusesOk then stay d 0x0902
    else
      let d := ((d.applyFuses f).restoreKey f).modBoot fun y => { y with trimmed := true }
      let d := (((d.enterState St.trimmed 0).bootMark 1 true).bootStep 3 true).newSession
      if d.power.resetHeld then d else d.configure f [Ent.session]

/-! ### Rails, the stack, READY (R552 steps 5 to 9, R553, R578) -/

/-- A memory stack trains: ready and zeroed, or failed (R280, R281). -/
def Dev.trainStack (d : Dev) (i : Nat) (failed : Bool) : Dev :=
  let base := if i < 16 then nearBase i else deepBase (i - 16)
  let d := d.zeroRange base 0x1000000000
  if failed then (d.putB Ent.stackStatus i 1 3).fault 0x0320 (Unit.billet (billetOf i)) i else d.putB Ent.stackStatus i 1 1

/-- The device has passed step 4 and has its periphery powered. -/
def Dev.started (d : Dev) : Bool := !d.inState [St.sealed, St.trimmed, St.standby]

/-- PERST is released and Selvage 0's core is on: the endpoint serves BAR0 and BAR4 (R569). -/
def Dev.endpointUp (d : Dev) : Dev :=
  if !d.power.perst && d.getB Ent.domainStatus 64 1 == 1 then d.modPower fun x => { x with endpoint := true } else d

/-- The rail of outside domain k is good: the domain is gated on, its ports train, its stacks train. -/
def Dev.railGood (d : Dev) (k : Nat) (failed : List Nat) : Dev :=
  if k < 56 || 76 ≤ k || !d.started || d.getB Ent.domainStatus k 1 = 1 then d
  else
    let d := (d.putB Ent.domainStatus k 1 1).endpointUp
    if k < 64 then d
    else if k < 68 then d.applyPortEnable
    else
      let b := k - 68
      [2 * b, 2 * b + 1, 16 + b].foldl (fun (d : Dev) i => d.trainStack i (failed.contains i)) d

/-- A rail is not good within RAIL_WAIT_MS: once for each domain (R578). -/
def Dev.railWait (d : Dev) (k : Nat) : Dev :=
  if k < 56 || 76 ≤ k || !d.started || d.getB Ent.domainStatus k 1 = 1 || bitOf d.boot.railLate (k - 56) then d
  else (d.modBoot fun x => { x with railLate := setBit x.railLate (k - 56) true }).keeperFault 0x0906 k

/-- The stack is to be powered up: it is off, no power event, stow or low-power state holds it there, and no
thermal trip or lost hub array keeps it there, nor a retirement from STOWED (R445, R463, R482, R484). -/
def Dev.stackMayStart (d : Dev) : Bool :=
  !d.power.stackUp && d.started && d.devState != St.stowed && !d.pesBit 0 && !d.power.thermTrip && d.get Ent.lpState != 2
    && !(d.devState == St.retired && d.power.saved.isSome)
    && fieldOf (d.getB Ent.couplingMap 22656 1) 7 6 != 3

/-- The stack is powered up where it may be. The first time after a power-on the self-test's failing accumulator rows, panel
and count, are repaired (R86). -/
def Dev.stackPowerUp (d : Dev) (f : TuneF) (failing : List (Nat × Nat)) : Dev :=
  if d.stackMayStart then
    let up := (d.powerUp f).pes 5 false
    if d.power.firstReady then up else (failing.filter fun t => decide (t.1 < 128)).foldl (fun d t => d.accRepair t.1 t.2) up
  else d

/-- READY is entered (R553, R570). -/
def Dev.readyEntry (d : Dev) : Dev :=
  if d.devState = St.configured && d.power.stackUp && d.stacksSettled && d.portsSettled && d.timeLocked then
    let d := ((d.enterState St.ready 0).bootMark 7 true).bootStep 9 true
    let d := d.modTime fun x => { x with everReady := true }
    let d := d.modPower fun x => { x with readyPin := true, firstReady := true }
    if d.getB Ent.stateCmdStatus 0 2 = 0x105 then d.put Ent.stateCmdStatus 0x205 else d
  else d

/-- Ten seconds after CONFIGURED without READY. -/
def Dev.readyLate (d : Dev) : Dev :=
  if d.devState = St.configured && !d.power.late then (d.modPower fun x => { x with late := true }).keeperFault 0x0907 0 else d

/-! ### Pins (R568, R569, R613, R616) -/

/-- RESET_N is recognised: a cold reset starts and holds before step 4. -/
def Dev.resetAssert (d : Dev) (f : Fuses) (strap : Nat) : Dev :=
  (d.modPower fun x => { x with resetHeld := true }).coldReset f strap 1

def Dev.resetRelease (d : Dev) (f : Fuses) : Dev :=
  let d := (d.modPower fun x => { x with resetHeld := false }).modBoot fun x => { x with jtag := if x.jtag = .extest then .bypass else x.jtag }
  if d.devState = St.trimmed then d.configure f [Ent.session] else d

def Dev.perstAssert (d : Dev) : Dev := d.endpointReset.modPower fun x => { x with perst := true, endpoint := false }
def Dev.perstRelease (d : Dev) : Dev := (d.modPower fun x => { x with perst := false }).endpointUp

/-- An instruction at the JTAG port: EXTEST acts while RESET_N is asserted, and what IEEE 1149.1 does not name acts
only with DEBUG_LOCK clear. -/
def Dev.jtagShift (d : Dev) (f : Fuses) (i : JtagI) : Dev :=
  let inForce := match i with
    | .extest => if d.power.resetHeld then JtagI.extest else .bypass
    | .other => if f.debugLock then JtagI.bypass else .other
    | .bypass => .bypass
    | .idcode => .idcode
    | .samplePreload => .samplePreload
  d.modBoot fun x => { x with jtag := inForce }

/-! ### Warm resume (R477–R479) -/

/-- HOLD_QUERY about this device's own hold. -/
def Dev.holdQueryBytes (d : Dev) : List Byte :=
  leBytes 1 4 ++ leBytes 1 0 ++ leBytes 2 d.deviceId ++ leBytes 4 d.power.ownSeq ++ leBytes 8 (d.get Ent.logicalBeat)
    ++ List.replicate 224 0#8

/-- Step 4 of warm resume: the completion log is delivered, then what was held is applied (R475). -/
def Dev.serveHeld (d : Dev) : Dev :=
  let d := d.modPower fun x => { x with serving := true }
  (d.deliverCompletions.applyHeld).modPower fun x => { x with serving := false }

/-- Steps 1 to 5. A step that leaves the device FAULTED ends the resume. A command's stow waits for RESUME too (R532). -/
def Dev.warmResume (d : Dev) (f : TuneF) : Dev :=
  if d.devState != St.stowed || d.power.stowing || d.power.stackUp || d.pesBit 0 || !d.pesBit 1
      || (d.power.commanded && !d.power.resumeGiven) then d
  else
    let d := (d.powerUp f).stacksRest false
    if !d.stowValid then
      (d.modPower fun x => { x with saved := none }).faultEnter 0x0340 Unit.device 0
    else
      let d := (d.stowRestore).put Ent.stowSeq d.tier.stowSeq
      let d := (upTo 8).foldl (fun (d : Dev) b => d.recoveryScan b) d
      let d := d.serveHeld
      if d.devState != St.stowed then d else
      let ids := (((upTo 8).filter d.requiredPort).map d.neighbourId).eraseDups
      if ids.isEmpty then d.resumeDone.releaseHeld
      else
        let d := d.modPower fun x => { x with awaiting := ids }
        ids.foldl (fun (d : Dev) id => d.sendControl id d.holdQueryBytes) d

/-! ### Low-power states (R488) -/

/-- L1: the clocks of the stack stop. -/
def Dev.lpL1 (d : Dev) : Dev := (d.put Ent.lpState 1).modPower fun x => { x with gatedAt := some d.time.clock }

/-- L2: stacks in self-refresh, ports in LPI, the stack off. -/
def Dev.lpL2 (d : Dev) : Dev :=
  let d := ((d.stackOff).stacksRest true).zeroStackCounters
  let d := (d.resetClass 5 []).put Ent.lpState 2
  (upTo 8).foldl (fun (d : Dev) i => if d.portUp i then d.setPortState i PortSt.lpi else d) d

/-- L3: the standby rail alone. -/
def Dev.lpL3 (d : Dev) : Dev :=
  let d := ((d.unitsReset).weaveReset).resetClass 5 []
  let d := (upTo 76).foldl (fun (d : Dev) k => d.putB Ent.domainStatus k 1 0) d
  let d := ((d.put Ent.stackStatus 0).put Ent.portState 0).put Ent.neighbour 0
  let d := (d.enterState St.standby 0).put Ent.lpState 3
  d.endpointReset.modPower fun x => { x with endpoint := false, readyPin := false }

/-- Class-C entries that show the hardware of the present start, which Keeper's shadow does not cover (log 10). -/
def notShadowed : List Nat :=
  [Ent.deviceState, Ent.lpState, Ent.bootStatus, Ent.bootTimes, Ent.keeperVersion, Ent.flashInfo, Ent.domainStatus, Ent.stackStatus,
    Ent.portState, Ent.neighbour, Ent.powerEventStatus, Ent.vbulkNowMv, Ent.bgState]

/-- The shadow: values in force of classes C and W (R490). -/
def Dev.shadow (d : Dev) : Sparse Nat :=
  d.tack.store.filter fun e => (entRetention e.1 == 3 || entRetention e.1 == 4) && !notShadowed.contains e.1

/-- Wake: false where the path may not give it. -/
def Dev.lpL0 (d : Dev) (f : Fuses) (bridle : Bool) : Dev × Bool :=
  let lp := d.get Ent.lpState
  if lp = 0 then (d, true)
  else if lp = 1 then
    let gone := d.time.clock - d.power.gatedAt.getD d.time.clock
    let d := (d.put Ent.lpState 0).modPower fun x => { x with gatedAt := none }
    let d := { d with weave := { d.weave with pends := d.weave.pends.map fun (p : Pend) =>
      { p with sentAt := p.sentAt.map fun t => t + gone } } }
    (d.applyHeld, true)
  else if lp = 2 then
    let d := (d.put Ent.lpState 0).stacksRest false
    ((upTo 8).foldl (fun (d : Dev) i => if d.portState i == PortSt.lpi then d.setPortState i PortSt.up else d) d, true)
  else if !bridle then (d, false)
  else
    let shadow := d.shadow
    let d := (d.startClock.timeReset d.time.clock).configure f []
    (shadow.foldl (fun (d : Dev) e => d.put e.1 e.2) d, true)

/-- LP_COMMAND: false where it is refused. -/
def Dev.lpCommand (d : Dev) (f : Fuses) (bridle : Bool) (v : Nat) : Dev × Bool :=
  if v = 0 then d.lpL0 f bridle
  else if d.get Ent.lpState != 0 then (d, false)
  else if v = 1 then (if d.inState [St.ready, St.loaded, St.spare] then (d.lpL1, true) else (d, false))
  else if d.devState != St.ready then (d, false)
  else if v = 2 then (d.lpL2, true)
  else (d.lpL3, true)

/-! ### The commands -/

/-- POWER_ON_RESET acts although VSTBY was down. -/
def execPowerOnReset (x : StartF) (s : State) : Host.Outcome State Fault Refusal :=
  lift (fun d => (d.powerOn s.fuses x).settle) s
def execResetNAssert (strap : Nat) (s : State) : Host.Outcome State Fault Refusal := act (fun d => d.resetAssert s.fuses strap) s
def execResetNRelease (s : State) : Host.Outcome State Fault Refusal := act (fun d => d.resetRelease s.fuses) s
def execPciePerst : State → Host.Outcome State Fault Refusal := act Dev.perstAssert
def execPciePerstRelease : State → Host.Outcome State Fault Refusal := act Dev.perstRelease
def execPcieHotReset : State → Host.Outcome State Fault Refusal := act Dev.endpointReset
def execRailGood (domain : Nat) (failed : List Nat) : State → Host.Outcome State Fault Refusal := act fun d => d.railGood domain failed
def execRailWaitTimeout (domain : Nat) : State → Host.Outcome State Fault Refusal := act fun d => d.railWait domain
def execStackPowerUp (f : SelfTestF) : State → Host.Outcome State Fault Refusal := act fun d => d.stackPowerUp f.tune f.rows
def execReadyEntry : State → Host.Outcome State Fault Refusal := act Dev.readyEntry
def execReadyTimeout : State → Host.Outcome State Fault Refusal := act Dev.readyLate
def execVstbyLoss : State → Host.Outcome State Fault Refusal := act fun d => d.modBoot fun x => { x with vstby := false }
def execJtagInstruction (i : JtagI) (s : State) : Host.Outcome State Fault Refusal := act (fun d => d.jtagShift s.fuses i) s
def execWarmResume (f : TuneF) : State → Host.Outcome State Fault Refusal := act fun d => d.warmResume f

end Sys2Proof.Machine
end

