-- ==== Sys2Proof/Machine/Tack.lean ====
section
/-!
DEFINITION. Writes of the Tack object dictionary: the checks of R517, R521, R525 and R529, and what a write of each
command entry does (*The Tack object dictionary*, R525–R535, R547, R548; *From power to release*, R564–R567; and each
chapter's entry table).
-/
namespace Sys2Proof.Machine
open Sys2Proof

/-! ### State commands (R413, R416, R417, R429, R463, R532–R534) -/

/-- 0x1012:00 STATE_CMD_STATUS shows a command as complete. -/
def Dev.cmdDone (d : Dev) (c : Nat) : Dev := d.put Ent.stateCmdStatus (c + 0x200)
def Dev.cmdPending (d : Dev) (c : Nat) : Dev := d.put Ent.stateCmdStatus (c + 0x100)

/-- A command is pending that a further command does not supersede. -/
def Dev.cmdBlocked (d : Dev) (c : Nat) : Bool :=
  let w := d.get Ent.stateCmdStatus
  fieldOf w 15 8 == 1 && !(c == 4 && [1, 7, 8].contains (w % 256))

/-- The Pattern is gone, and with it an adoption under way. -/
def Dev.unloadCommand (d : Dev) : Dev := ((d.unload).setPhase 0).enterState St.ready 0

def Dev.spareRefused (d : Dev) : Bool := d.pat.loaded || d.get Ent.panelFenced != 0

/-- READY to SPARE: an adoption that was pending is no longer. -/
def Dev.enterSpare (d : Dev) : Dev :=
  ({ d with resil := { d.resil with adoptPending := false } }.setPhase 0).enterState St.spare 0

/-- 0x7210:00 ADOPT_PLAN: COORDINATE and PORT_MAP. -/
def Dev.planOk (d : Dev) : Bool := d.coordinateOk (d.getB Ent.adoptPlan 0 4) && portMapOk (d.getB Ent.adoptPlan 4 4)

/-- The plan is applied, and an adoption is pending. -/
def Dev.adoptPlanned (d : Dev) : Dev :=
  let d := (d.put Ent.coordinate (d.getB Ent.adoptPlan 0 4)).afterWrite Ent.coordinate
  let d := (d.put Ent.portMap (d.getB Ent.adoptPlan 4 4)).afterWrite Ent.portMap
  let d : Dev := { d with resil := { d.resil with adoptPending := true } }
  (d.setPhase 1).enterState St.ready 0

/-- RETIRE. A STOW under way completes its image first, since it cannot be aborted (R473). -/
def Dev.retire (d : Dev) : Dev :=
  let d := if d.power.stowing then d.stowComplete else d
  let d := d.modPower fun x => { x with awaiting := [], commanded := false, resumeGiven := false }
  (d.fault 0x073B Unit.device 0).enterState St.retired 0x073B

/-- A write of 0x1011:00 STATE_COMMAND with an accepted code, and its status. -/
def Dev.stateCommand (d : Dev) (c : Nat) : Dev × Nat :=
  if d.cmdBlocked c then (d, Status.state)
  else if c = 1 then
    if d.inState [St.loaded, St.held, St.adopting] then (d.unloadCommand.cmdDone c, Status.ok) else (d, Status.state)
  else if c = 2 then
    if d.devState != St.ready then (d, Status.state)
    else if d.spareRefused then (d.fault 0x0734 Unit.device 0, Status.state) else (d.enterSpare.cmdDone c, Status.ok)
  else if c = 3 then
    if d.devState != St.spare || !d.planOk then (d.fault 0x0733 Unit.device 0, Status.state)
    else (d.adoptPlanned.cmdDone c, Status.ok)
  else if c = 4 then
    if d.inState [St.loaded, St.running, St.held, St.adopting, St.spare, St.stowed] then (d.retire.cmdDone c, Status.ok)
    else (d, Status.state)
  else if c = 5 then
    if d.inState [St.retired, St.faulted] then (d.reinstate, Status.ok) else (d, Status.state)
  else if c = 6 then
    if d.devState = St.spare then ((d.enterState St.ready 0).cmdDone c, Status.ok) else (d, Status.state)
  else if c = 7 then
    if d.inState [St.loaded, St.running, St.held, St.adopting, St.braced] then
      (((d.modPower fun x => { x with commanded := true }).startStow 4).cmdPending c, Status.ok)
    else (d, Status.state)
  else if d.devState = St.stowed then ((d.modPower fun x => { x with resumeGiven := true }).cmdPending c, Status.ok)
  else (d, Status.state)

/-! ### Resilience commands (R423, R425, R426) -/

def Dev.resilAccepted (d : Dev) (c : Nat) : Bool :=
  if c = 4 then d.inState [St.loaded, St.running] || (d.devState == St.adopting && d.adoptPhase == 5)
  else if c = 3 then d.devState == St.loaded && d.resil.restored.isSome
  else d.devState == St.loaded

/-- A write of RESIL_COMMAND; a refusal records 0x0733 and completes with STATE. -/
def Dev.resilCommand (d : Dev) (c : Nat) (image : Option (List Byte)) : Dev × Nat :=
  let ok := if d.resilAccepted c then Status.ok else Status.state
  if c = 1 then (d.restoreSnapshot false image, ok)
  else if c = 2 then (d.restoreSnapshot true image, ok)
  else if c = 3 then (d.witnessArm, ok)
  else (d.remirror, ok)

/-! ### Flash (R557, R564) -/

/-- A range of the flash that a Tack write may not touch. -/
def Dev.flashRefused (d : Dev) (a n : Nat) : Bool :=
  decide (0x3000000 < a + n) || (match d.boot.slot with | some k => meets a n (slotBase k) 0x1800000 | none => false)

/-- Bytes stored in the flash; a range whose program or erase failed holds unspecified bytes. -/
def Dev.flashStore (d : Dev) (a : Nat) (bs : List Byte) (fails : Bool) : Dev :=
  let r := if fails then d.freeBytes bs.length else (d, bs)
  let d := if fails then r.1.fault 0x0909 Unit.keeper a else d
  let flash := ((upTo bs.length).zip r.2).foldl (fun (m : Sparse Byte) (e : Nat × Byte) => sset 0xFF#8 m (a + e.1) e.2) d.boot.flash
  d.modBoot fun x => { x with flash := flash }

/-- FLASH_DATA at FLASH_OFFSET, which then advances. -/
def Dev.flashData (d : Dev) (bs : List Byte) (fails : Bool) : Dev × Nat :=
  let a := d.get Ent.flashOffset
  if d.flashRefused a bs.length then (d, Status.valueRefused)
  else ((d.flashStore a bs fails).put Ent.flashOffset (a + bs.length), Status.ok)

/-- FLASH_ERASE of the sector that holds an offset. -/
def Dev.flashErase (d : Dev) (v : Nat) (fails : Bool) : Dev × Nat :=
  let a := v / 65536 * 65536
  if d.flashRefused a 65536 then (d, Status.valueRefused)
  else if fails then (d.flashStore a (List.replicate 65536 0xFF#8) true, Status.ok)
  else (d.modBoot fun x => { x with flash := sclear x.flash a (a + 65536) }, Status.ok)

/-! ### Keys (R566, R567) -/

/-- Which record of the key store a write goes to, and its SEQ: the one with the lower SEQ, an invalid one first. -/
def Dev.keyPlace (d : Dev) : Nat × Nat :=
  match d.keyRecord 0, d.keyRecord 1 with
  | some a, some b => if b.1 < a.1 then (1, a.1 + 1) else (0, b.1 + 1)
  | some a, none => (1, a.1 + 1)
  | none, some b => (0, b.1 + 1)
  | none, none => (0, 1)

/-- MGMT_KEY takes a value, and the key store holds it wrapped. -/
def Dev.storeKey (d : Dev) (f : Fuses) (key : List Byte) (fails : Bool) : Dev :=
  let d := d.put Ent.mgmtKey (leNat key)
  let p := d.keyPlace
  let w := Config.keyWrap f.deviceKey key
  let body := leBytes 4 0x594B474D ++ leBytes 4 p.2 ++ (w ++ List.replicate 40 0#8).take 40 ++ leBytes 12 0
  d.flashStore (0x3000000 + 0x1000 * p.1) (body ++ leBytes 4 (crc32 body)) fails

/-- The fused rollback count reaches the ROLLBACK of the image in use; it never falls. -/
def Fuses.advance (f : Fuses) (rollback : Nat) : Fuses := { f with rollback := max f.rollback rollback }

/-- A key slot's revoke bit is burnt. -/
def Fuses.revoke (f : Fuses) (slot : Nat) : Fuses := { f with revoked := f.revoked ||| 1 <<< slot }

/-- KEY_REVOKE is refused for the slot that signed the image in use, and when the other slot is revoked. -/
def revokeRefused (d : Dev) (f : Fuses) (slot : Nat) : Bool := d.boot.keySlot == slot || bitOf f.revoked (1 - slot)

/-! ### Ownership (R528–R530) -/

/-- The path's writes of this value are accepted. -/
def Dev.mayWrite (d : Dev) (path : TackPath) (k v : Nat) : Bool :=
  match path with
  | .host => d.get Ent.owner == 1 && !(k == Ent.owner && v == 2)
  | .bridle => [Ent.owner, Ent.stateCommand, Ent.resetCommand].contains k || d.get Ent.owner == 2

/-- A host write staged at a seizure is discarded. -/
def Dev.dropStage (d : Dev) : Dev :=
  { d with tack := { d.tack with host := { d.tack.host with
      stage := d.tack.host.stage.map fun s => { s with data := [], dropped := true } } } }

/-- OWNER written: a change is counted and shown, and a seizure records 0x0930. -/
def Dev.writeOwner (d : Dev) (path : TackPath) (v : Nat) : Dev :=
  if v = d.get Ent.owner then d
  else
    let d := (d.put Ent.owner v).bump Ent.ownerLog 0 4 1
    let d := (d.putB Ent.ownerLog 8 12 d.timeNow).putB Ent.ownerLog 20 1 (match path with | .host => 1 | .bridle => 2)
    let d := if v = 2 then ((d.bump Ent.ownerLog 4 4 1).dropStage).fault 0x0930 Unit.bridle 0 else d
    (d.hostEvent 3).bridleEvent 3 0 0

/-! ### Other command entries -/

/-- STICKY_CLEAR (R44). -/
def Dev.stickyClear (d : Dev) : Dev := ({ d with flags := { d.flags with sets := [] } }).put Ent.stickyLast 0

/-- PANEL_UNFENCE: the panel is reset and tested; a pass clears its bit, and a failing panel that was not fenced is
fenced (R83, R86, R483). -/
def Dev.panelUnfence (d : Dev) (p : Nat) (passes : Bool) : Dev :=
  let d := d.panelReset p
  if passes then d.put Ent.panelFenced (setBit (d.get Ent.panelFenced) p false)
  else if d.fenced p then d
  else (d.fault 0x0210 p 0).fenceBits p

/-- STEP_REBASE: the step numbers fall and every start beat stays (R211). -/
def Dev.stepRebase (d : Dev) (v : Nat) : Dev :=
  let p := d.pat
  let d := d.put Ent.stepCounter (d.get Ent.stepCounter - v)
  { d with
    pat := { p with firstStep := p.firstStep - v, rebased := p.rebased + (v - p.firstStep), lastStep := p.lastStep - v }
    contract := { d.contract with nextStep := d.contract.nextStep - v } }

/-- FAULT_LOG_CLEAR (R547). -/
def Dev.logClear (d : Dev) : Dev := { d with tack := { d.tack with faults := [], cleared := d.tack.newest } }

/-- FAULT_N_CLEAR (R548). -/
def Dev.faultNClear (d : Dev) : Dev := { d with tack := { d.tack with faultNLatched := false } }

/-- HOLD_COMMAND (R468). -/
def Dev.holdCommand (d : Dev) (v : Nat) : Dev := if v = 1 then d.holdCause 4 else d.endCauses [4]

/-! ### A whole value applied -/

/-- Completed with OK where the device took it, else with STATE. -/
def statusOf (r : Dev × Bool) : Dev × Nat := (r.1, if r.2 then Status.ok else Status.state)

/-- What a write of entry k does once every check of its row has passed; the two writes that burn fuses stand
apart. -/
def Dev.applyEntry (d : Dev) (f : Fuses) (path : TackPath) (env : TackEnv) (k : Nat) (bs : List Byte) : Dev × Nat :=
  let v := leNat bs
  let always (d : Dev) : Dev × Nat := (d, Status.ok)
  if k = Ent.stateCommand then d.stateCommand v
  else if k = Ent.resetCommand then statusOf (d.resetCommand f v env.strap)
  else if k = Ent.owner then always (d.writeOwner path v)
  else if k = Ent.lpCommand then statusOf (d.lpCommand f (path == .bridle) v)
  else if k = Ent.holdCommand then always (d.holdCommand v)
  else if k = Ent.holdRelease then always (d.holdRelease v).1
  else if k = Ent.loadCommand then always (d.tackLoad f (v == 2) env.load)
  else if k = Ent.flashData then d.flashData bs env.flashFails
  else if k = Ent.flashErase then d.flashErase v env.flashFails
  else if k = Ent.mgmtKey then always (d.storeKey f bs env.flashFails)
  else if k = Ent.timeSetS then always (d.timeSet v)
  else if k = Ent.panelUnfence then always (d.panelUnfence v env.panelPasses)
  else if k = Ent.stickyClear then always (if v = 1 then d.stickyClear else d)
  else if k = Ent.stepRebase then always (d.stepRebase v)
  else if k = Ent.resilCommand then d.resilCommand v env.image
  else if k = Ent.tallyClear then always (d.clearTally v)
  else if k = Ent.faultLogClear then always (if v = 1 then d.logClear else d)
  else if k = Ent.faultNClear then always (if v = 1 then d.faultNClear else d)
  else if k = Ent.loomEntry then always (d.setLoom (d.get Ent.loomIndex) v)
  else always ((d.put k v).afterWrite k)

/-- The same on the device with its fuses: ROLLBACK_ADVANCE and KEY_REVOKE burn them. -/
def applyWrite (s : Dev × Fuses) (path : TackPath) (env : TackEnv) (k : Nat) (bs : List Byte) : (Dev × Fuses) × Nat :=
  let d := s.1
  let f := s.2
  if k = Ent.rollbackAdvance then
    ((d, if leNat bs = 1 then f.advance d.boot.imageRollback else f), Status.ok)
  else if k = Ent.keyRevoke then
    if revokeRefused d f (leNat bs) then (s, Status.valueRefused) else ((d, f.revoke (leNat bs)), Status.ok)
  else
    let r := d.applyEntry f path env k bs
    ((r.1, f), r.2)

/-! ### The checks of a write -/

/-- The length fits the entry: FLASH_DATA takes 1 to 4,096 bytes, every other entry its size. -/
def lengthOk (row : EntRow) (n : Nat) : Bool :=
  if row.key = Ent.flashData then within 1 4096 n else n == row.size

/-- Access right and states (R517, R521), checked at the first and at the last segment. -/
def Dev.accessStatus (d : Dev) (row : EntRow) : Nat :=
  if row.access == 1 || row.access == 5 then Status.readOnly
  else if d.stateRefuses row then Status.state
  else Status.ok

/-- The status that stops a whole value: access and states, ownership, size, the row's values. -/
def Dev.writeStatus (d : Dev) (path : TackPath) (row : EntRow) (bs : List Byte) : Nat :=
  if d.accessStatus row != Status.ok then d.accessStatus row
  else if !d.mayWrite path row.key (leNat bs) then Status.busy
  else if !lengthOk row bs.length then Status.size
  else if !d.rowOk row (leNat bs) then Status.valueRefused
  else Status.ok

/-- A vendor diagnostic entry (R522). -/
def vendorEntry (k : Nat) : Bool := decide (0xF00000 ≤ k)

/-- A status of R526 that the spec does not state: free (log 35). -/
def Dev.freeStatus (d : Dev) : Dev × Nat :=
  let r := d.freeNat 6
  (r.1, r.2 % 14)

/-- A whole value written to entry k by a path. -/
def writeEntry (s : Dev × Fuses) (path : TackPath) (env : TackEnv) (k : Nat) (bs : List Byte) : (Dev × Fuses) × Nat :=
  match entRow k with
  | some row =>
    let st := s.1.writeStatus path row bs
    if st = Status.ok then applyWrite s path env k bs else (s, st)
  | none =>
    if !vendorEntry k then (s, Status.noEntry)
    else if !s.1.mayWrite path k (leNat bs) then (s, Status.busy)
    else
      let r := s.1.freeStatus
      ((r.1, s.2), r.2)

/-! ### Commands on the device with its fuses -/

/-- A command that may burn fuses: nothing happens while VSTBY is down, and it always completes. -/
def onChip (f : Dev × Fuses → Dev × Fuses) (s : State) : Host.Outcome State Fault Refusal :=
  .next { s with
    dev := if s.dev.boot.vstby then (f (s.dev, s.fuses)).1.settle else s.dev
    fuses := if s.dev.boot.vstby then (f (s.dev, s.fuses)).2 else s.fuses }

def Dev.path (d : Dev) : TackPath → Path
  | .host => d.tack.host
  | .bridle => d.tack.bridle
def Dev.setPath (d : Dev) (p : TackPath) (x : Path) : Dev :=
  match p with
  | .host => { d with tack := { d.tack with host := x } }
  | .bridle => { d with tack := { d.tack with bridle := x } }

/-- The host reaches the Tack through BAR0 only (R569). -/
def Dev.reaches (d : Dev) : TackPath → Bool
  | .host => d.power.endpoint
  | .bridle => true

/-- A response head and its data (R523). -/
def response (op status key offset tag total : Nat) (data : List Byte) : List Byte :=
  leBytes 1 (op % 128 + 128) ++ leBytes 1 status ++ leBytes 2 (key / 256) ++ leBytes 1 (key % 256) ++ leBytes 1 0
    ++ leBytes 2 data.length ++ leBytes 4 offset ++ leBytes 4 tag ++ leBytes 4 total ++ leBytes 4 0
    ++ data ++ List.replicate (ceilDiv data.length 8 * 8 - data.length) 0#8

/-- An entry's current size, as TOTAL shows it: FLASH_DATA holds no value. -/
def entryTotal (k : Nat) : Nat := if k = Ent.flashData then 0 else entSize k

/-- A write that arrives as one command: any value that the path had staged is discarded (R523). -/
def tackCommand (path : TackPath) (env : TackEnv) (k : Nat) (bs : List Byte) : State → Host.Outcome State Fault Refusal :=
  onChip fun s =>
    if !s.1.reaches path then s
    else
      let d := s.1.setPath path { s.1.path path with stage := none }
      let r := writeEntry (d, s.2) path env k bs
      ({ r.1.1 with tack := { r.1.1.tack with lastResponse := response 2 r.2 k 0 0 (entryTotal k) [] } }, r.1.2)

/-- What no TackEnv decides for most writes. -/
def TackEnv.plain : TackEnv := ⟨false, true, none, .done, 0⟩

def tackByte (path : TackPath) (env : TackEnv) (k v : Nat) : State → Host.Outcome State Fault Refusal :=
  tackCommand path env k (leBytes (entSize k) v)

/-! ### One definition for each command entry -/

def execRestoreTarget (p : TackPath) (e : TackEnv) : State → Host.Outcome State Fault Refusal := tackByte p e Ent.resilCommand 1
def execRestoreLocal (p : TackPath) (e : TackEnv) : State → Host.Outcome State Fault Refusal := tackByte p e Ent.resilCommand 2
def execWitness (p : TackPath) : State → Host.Outcome State Fault Refusal := tackByte p TackEnv.plain Ent.resilCommand 3
def execRemirror (p : TackPath) : State → Host.Outcome State Fault Refusal := tackByte p TackEnv.plain Ent.resilCommand 4
def execStateUnload (p : TackPath) : State → Host.Outcome State Fault Refusal := tackByte p TackEnv.plain Ent.stateCommand 1
def execStateSpare (p : TackPath) : State → Host.Outcome State Fault Refusal := tackByte p TackEnv.plain Ent.stateCommand 2
def execStateAdopt (p : TackPath) : State → Host.Outcome State Fault Refusal := tackByte p TackEnv.plain Ent.stateCommand 3
def execStateRetire (p : TackPath) : State → Host.Outcome State Fault Refusal := tackByte p TackEnv.plain Ent.stateCommand 4
def execStateReinstate (p : TackPath) : State → Host.Outcome State Fault Refusal := tackByte p TackEnv.plain Ent.stateCommand 5
def execStateUnspare (p : TackPath) : State → Host.Outcome State Fault Refusal := tackByte p TackEnv.plain Ent.stateCommand 6
def execStateStow (p : TackPath) : State → Host.Outcome State Fault Refusal := tackByte p TackEnv.plain Ent.stateCommand 7
def execStateResume (p : TackPath) : State → Host.Outcome State Fault Refusal := tackByte p TackEnv.plain Ent.stateCommand 8
def execResetCold (p : TackPath) (e : TackEnv) : State → Host.Outcome State Fault Refusal := tackByte p e Ent.resetCommand 1
def execResetWarm (p : TackPath) : State → Host.Outcome State Fault Refusal := tackByte p TackEnv.plain Ent.resetCommand 2
def execResetStack (p : TackPath) : State → Host.Outcome State Fault Refusal := tackByte p TackEnv.plain Ent.resetCommand 3
def execLpL0 (p : TackPath) : State → Host.Outcome State Fault Refusal := tackByte p TackEnv.plain Ent.lpCommand 0
def execLpL1 (p : TackPath) : State → Host.Outcome State Fault Refusal := tackByte p TackEnv.plain Ent.lpCommand 1
def execLpL2 (p : TackPath) : State → Host.Outcome State Fault Refusal := tackByte p TackEnv.plain Ent.lpCommand 2
def execLpL3 (p : TackPath) : State → Host.Outcome State Fault Refusal := tackByte p TackEnv.plain Ent.lpCommand 3
def execHoldCommandAdd (p : TackPath) : State → Host.Outcome State Fault Refusal := tackByte p TackEnv.plain Ent.holdCommand 1
def execHoldCommandEnd (p : TackPath) : State → Host.Outcome State Fault Refusal := tackByte p TackEnv.plain Ent.holdCommand 2
def execHoldRelease (p : TackPath) (v : Nat) : State → Host.Outcome State Fault Refusal := tackByte p TackEnv.plain Ent.holdRelease v
def execStickyClear (p : TackPath) (v : Nat) : State → Host.Outcome State Fault Refusal := tackByte p TackEnv.plain Ent.stickyClear v
def execPanelUnfence (p : TackPath) (v : Nat) (e : TackEnv) : State → Host.Outcome State Fault Refusal := tackByte p e Ent.panelUnfence v
def execStepRebase (p : TackPath) (v : Nat) : State → Host.Outcome State Fault Refusal := tackByte p TackEnv.plain Ent.stepRebase v
def execRunStartStep (p : TackPath) (v : Nat) : State → Host.Outcome State Fault Refusal := tackByte p TackEnv.plain Ent.runStartStep v
def execTallyClear (p : TackPath) (v : Nat) : State → Host.Outcome State Fault Refusal := tackByte p TackEnv.plain Ent.tallyClear v
def execFaultLogClear (p : TackPath) (v : Nat) : State → Host.Outcome State Fault Refusal := tackByte p TackEnv.plain Ent.faultLogClear v
def execFaultNClear (p : TackPath) (v : Nat) : State → Host.Outcome State Fault Refusal := tackByte p TackEnv.plain Ent.faultNClear v
def execFlashData (p : TackPath) (bs : List Byte) (e : TackEnv) : State → Host.Outcome State Fault Refusal := tackCommand p e Ent.flashData bs
def execFlashErase (p : TackPath) (v : Nat) (e : TackEnv) : State → Host.Outcome State Fault Refusal := tackByte p e Ent.flashErase v
def execMgmtKey (p : TackPath) (bs : List Byte) (e : TackEnv) : State → Host.Outcome State Fault Refusal := tackCommand p e Ent.mgmtKey bs
def execRollbackAdvance (p : TackPath) (v : Nat) : State → Host.Outcome State Fault Refusal := tackByte p TackEnv.plain Ent.rollbackAdvance v
def execKeyRevoke (p : TackPath) (v : Nat) : State → Host.Outcome State Fault Refusal := tackByte p TackEnv.plain Ent.keyRevoke v
def execTimeSetS (p : TackPath) (v : Nat) : State → Host.Outcome State Fault Refusal := tackByte p TackEnv.plain Ent.timeSetS v
def execOwnerWrite (p : TackPath) (v : Nat) : State → Host.Outcome State Fault Refusal := tackByte p TackEnv.plain Ent.owner v
def execLoadCommandLoad (p : TackPath) (e : TackEnv) : State → Host.Outcome State Fault Refusal := tackByte p e Ent.loadCommand 1
def execLoadCommandReload (p : TackPath) (e : TackEnv) : State → Host.Outcome State Fault Refusal := tackByte p e Ent.loadCommand 2

end Sys2Proof.Machine
end

