-- ==== Sys2Proof/Machine/Messages.lean ====
section
/-!
DEFINITION. Dictionary messages and the ways they come: segments, snapshots and the response budget, the host mailbox
of BAR0, Bridle frames, and the host's accesses through BAR2 (*The Tack object dictionary*, R522–R525, R535–R541; *From
power to release*, R569; *Memory tiers and placement*, R266, R273, R278, R285; *Tally performance counters*, R589, R590).
-/
namespace Sys2Proof.Machine
open Sys2Proof

/-! ### One message (R522–R526) -/

/-- A request: its head, and the data bytes of a WRITE. -/
structure DictMsg where
  op : Nat
  flags : Nat
  key : Nat
  reserved : Nat
  len : Nat
  offset : Nat
  tag : Nat
  body : List Byte
deriving DecidableEq, Repr

def DictMsg.ofBytes (bs : List Byte) : DictMsg :=
  { op := leAt bs 0 1, flags := leAt bs 1 1, key := leAt bs 2 2 * 256 + leAt bs 4 1, reserved := leAt bs 5 1, len := leAt bs 6 2
    offset := leAt bs 8 4, tag := leAt bs 12 4, body := (bs.drop 16).take (leAt bs 6 2) }

def DictMsg.answer (m : DictMsg) (status total : Nat) (data : List Byte) : List Byte :=
  response m.op status m.key m.offset m.tag total data

def Dev.noStage (d : Dev) (p : TackPath) : Dev := d.setPath p { d.path p with stage := none }

/-- An entry held in the Tree and the Felt (R520). -/
def stackHeld (row : EntRow) : Bool := within 0x6000 0x63FF (row.key / 256) && row.retention == 5

def pad8 (n : Nat) : Nat := ceilDiv n 8 * 8

/-- The bytes a READ returns of a value: LENGTH, the end of the value and the budget limit them (R524). -/
def readAmount (len left budget : Nat) : Nat :=
  let want := min len left
  if pad8 want ≤ budget then want else budget / 8 * 8

/-- The value that a READ takes its bytes from: the path's snapshot, or a new one. A READ at OFFSET 0 ends every
snapshot of the path (R523). -/
def Dev.snapshot (d : Dev) (f : Fuses) (p : TackPath) (key offset : Nat) : Dev × List Byte :=
  let x := d.path p
  match (if offset = 0 then none else x.snaps.find? fun s => s.key == key) with
  | some s => (d, s.data)
  | none =>
    let r := d.readValue f key
    let data := leBytes (entSize key) r.2
    (r.1.setPath p { r.1.path p with snaps := (if offset = 0 then [] else x.snaps) ++ [⟨key, data⟩] }, data)

/-- Bytes of a value read, or the status that says why not. -/
def readFrom (m : DictMsg) (budget : Nat) (value : List Byte) : List Byte × Nat :=
  if value.length ≤ m.offset then (m.answer Status.offset value.length [], budget)
  else
    let n := readAmount m.len (value.length - m.offset) budget
    if n = 0 && m.len != 0 then (m.answer Status.size value.length [], budget)
    else (m.answer Status.ok value.length ((value.drop m.offset).take n), budget - pad8 n)

/-- READ: the device after it, the response, the budget left. A vendor diagnostic entry answers as the spec leaves
open (log 35). -/
def Dev.readMsg (d : Dev) (f : Fuses) (p : TackPath) (m : DictMsg) (budget : Nat) : Dev × List Byte × Nat :=
  match entRow m.key with
  | some row =>
    if row.access == 4 then (d, m.answer Status.writeOnly (entryTotal m.key) [], budget)
    else if stackHeld row && !d.power.stackUp then (d, m.answer Status.notReady (entryTotal m.key) [], budget)
    else if 1024 < m.len then (d, m.answer Status.size (entryTotal m.key) [], budget)
    else
      let s := d.snapshot f p m.key m.offset
      (s.1, readFrom m budget s.2)
  | none =>
    if !vendorEntry m.key then (d, m.answer Status.noEntry 0 [], budget)
    else
      let r := d.freeStatus
      if r.2 != Status.ok then (r.1, m.answer r.2 0 [], budget)
      else
        let n := r.1.freeNat 7
        let v := n.1.freeBytes (n.2 % 65536 + 1)
        (v.1, readFrom m budget v.2)

/-- The first entry after a key, of those that NEXT reports. -/
def nextEntry (k : Nat) : Option EntRow :=
  dictionary.foldl (fun (best : Option EntRow) (r : EntRow) =>
    if r.key ≤ k then best
    else match best with
      | none => some r
      | some b => if r.key < b.key then some r else best) none

/-- NEXT. -/
def nextMsg (m : DictMsg) : List Byte :=
  match nextEntry m.key with
  | none => m.answer Status.noEntry 0 []
  | some r => response m.op Status.ok r.key m.offset m.tag (entryTotal r.key)
      (leBytes 1 r.typ ++ leBytes 1 r.access ++ leBytes 1 r.retention ++ leBytes 1 (bitNat r.patternWritable) ++ leBytes 4 r.size)

/-- The largest size of an entry. -/
def largest (k : Nat) : Nat := if vendorEntry k then 65536 else entSize k

/-- A segment's place: the value staged before it, or the status that stops it. -/
def Dev.segment (d : Dev) (p : TackPath) (m : DictMsg) : List Byte ⊕ Nat :=
  if m.offset = 0 then
    let st := match entRow m.key with | some row => d.accessStatus row | none => Status.ok
    if st = Status.ok then .inl [] else .inr st
  else match (d.path p).stage with
    | some s =>
      if s.dropped then (if d.get Ent.owner = 2 then .inr Status.busy else .inr Status.sequence)
      else if s.key = m.key && s.data.length = m.offset then .inl s.data else .inr Status.sequence
    | none => .inr Status.sequence

/-- A staged value that a seizure discarded answers BUSY until its last segment. -/
def Dev.keepDropped (d : Dev) (p : TackPath) (m : DictMsg) : Bool :=
  m.offset != 0 && !bitOf m.flags 0 && d.get Ent.owner == 2
    && (match (d.path p).stage with | some s => s.dropped && s.key == m.key | none => false)

/-- WRITE: one segment, and with the last the whole value. A RESET_COMMAND is accepted here and given back, since it
takes effect after the response has left (R535). -/
def writeMsg (s : Dev × Fuses) (p : TackPath) (env : TackEnv) (m : DictMsg) : (Dev × Fuses) × List Byte × Option (Nat × Nat) :=
  let d := s.1
  let stop (d : Dev) (st : Nat) : (Dev × Fuses) × List Byte × Option (Nat × Nat) := ((d, s.2), m.answer st (entryTotal m.key) [], none)
  if (entRow m.key).isNone && !vendorEntry m.key then stop (d.noStage p) Status.noEntry
  else if 1024 < m.len then stop (d.noStage p) Status.size
  else if d.keepDropped p m then stop d Status.busy
  else match d.segment p m with
    | .inr st => stop (d.noStage p) st
    | .inl before =>
      let data := before ++ m.body
      if !bitOf m.flags 0 then
        if largest m.key < data.length then stop (d.noStage p) Status.size
        else stop (d.setPath p { d.path p with stage := some ⟨m.key, data, false⟩ }) Status.ok
      else
        let d := d.noStage p
        if m.key = Ent.resetCommand then
          let st := match entRow m.key with | some row => d.writeStatus p row data | none => Status.noEntry
          if st != Status.ok then stop d st
          else if (d.resetCommand s.2 (leNat data) env.strap).2 then
            ((d, s.2), m.answer Status.ok (entryTotal m.key) [], some (leNat data, env.strap))
          else stop d Status.state
        else
          let r := writeEntry (d, s.2) p env m.key data
          (r.1, m.answer r.2 (entryTotal m.key) [], none)

/-- A message with a reserved OP or a reserved field set. -/
def DictMsg.malformed (m : DictMsg) : Bool := !within 1 3 m.op || decide (2 ≤ m.flags) || m.reserved != 0

/-- One message of a path: the device and fuses after it, its response, the budget left, and a reset to follow. Any
message but a further segment discards what the path had staged. -/
def dictMessage (s : Dev × Fuses) (p : TackPath) (env : TackEnv) (m : DictMsg) (budget : Nat) :
    (Dev × Fuses) × List Byte × Nat × Option (Nat × Nat) :=
  if m.malformed then ((s.1.noStage p, s.2), m.answer Status.malformed 0 [], budget, none)
  else if m.op = 2 then
    let r := writeMsg s p env m
    (r.1, r.2.1, budget, r.2.2)
  else if m.op = 1 then
    let r := (s.1.noStage p).readMsg s.2 p m budget
    ((r.1, s.2), r.2.1, r.2.2, none)
  else ((s.1.noStage p, s.2), nextMsg m, budget, none)

/-! ### A submission or a frame (R524, R527, R535) -/

/-- The bytes a message takes: only a WRITE is followed by its data. -/
def messageBytes (bs : List Byte) : Nat := 16 + (if leAt bs 0 1 = 2 then pad8 (leAt bs 6 2) else 0)

/-- The messages, back to back: none where one runs past the end. -/
def splitMessages : Nat → List Byte → Option (List DictMsg)
  | 0, _ => none
  | _ + 1, [] => some []
  | k + 1, bs =>
    if bs.length < 16 || bs.length < messageBytes bs then none
    else (splitMessages k (bs.drop (messageBytes bs))).map fun ms => DictMsg.ofBytes bs :: ms

/-- What the heads and the data of each NEXT take of a budget. -/
def reservedBytes (ms : List DictMsg) : Nat := (ms.map fun m => 24 + (if m.op = 3 then 8 else 0)).foldl (· + ·) 0

/-- Messages in order; the first RESET_COMMAND accepted ends them. -/
def processAll (p : TackPath) : List DictMsg → List TackEnv → (Dev × Fuses) → Nat → List (List Byte) →
    (Dev × Fuses) × List (List Byte) × Option (Nat × Nat)
  | [], _, s, _, out => (s, out, none)
  | m :: ms, envs, s, budget, out =>
    let r := dictMessage s p (envs.head?.getD TackEnv.plain) m budget
    let out := out ++ [r.2.1]
    match r.2.2.2 with
    | some v => (r.1, out, some v)
    | none => processAll p ms envs.tail r.1 r.2.2.1 out

/-- The reset that a RESET_COMMAND asks for, once its response has left. -/
def Dev.resetAfter (d : Dev) (f : Fuses) : Option (Nat × Nat) → Dev
  | some v => (d.resetCommand f v.1 v.2).1
  | none => d

def Dev.showResponse (d : Dev) (bs : List Byte) : Dev := { d with tack := { d.tack with lastResponse := bs } }

/-- One message of a path as a command of its own. -/
def oneMessage (p : TackPath) (env : TackEnv) (m : DictMsg) : State → Host.Outcome State Fault Refusal :=
  onChip fun s =>
    if !s.1.reaches p then s
    else
      let budget := (match p with | .host => 4096 | .bridle => 1184) - reservedBytes [m]
      let r := dictMessage s p env m budget
      ((r.1.1.showResponse r.2.1).resetAfter r.1.2 r.2.2.2, r.1.2)

/-! ### The host mailbox (R536–R538) -/

def Dev.modTack (d : Dev) (f : TackState → TackState) : Dev := { d with tack := f d.tack }

/-- MB_STATUS of a submission that has ended. -/
def mbDone (refused : Bool) (processed seq : Nat) : Nat := 2 + 4 * bitNat refused + processed <<< 8 + seq <<< 16

/-- The messages of a well-formed submission. -/
def Dev.submission (d : Dev) (len : Nat) : Option (List DictMsg) :=
  if !within 16 4096 len then none
  else
    let bs := (upTo len).map fun k => sget 0#8 d.tack.mbRequest k
    match splitMessages (len + 1) bs with
    | some ms => if 16 < ms.length then none else some ms
    | none => none

/-- A doorbell write: the submission is processed whole. Bits [15:13], written as 0 by R536, are ignored: the spec
states no response to them (DESIGN CHOICE, log 96). -/
def mbDoorbell (v : Nat) (envs : List TackEnv) (s : Dev × Fuses) : Dev × Fuses :=
  if !s.1.power.endpoint then s
  else
    let d := s.1.count 0x547 4
    if bitOf d.tack.mbStatus 0 then (d, s.2)
    else
      let seq := fieldOf v 31 16
      match d.submission (fieldOf v 12 0) with
      | none =>
        let d := (d.fault 0x0931 Unit.keeper 0).modTack fun x => { x with mbStatus := mbDone true 0 seq, mbRespLen := 0, mbResponse := [] }
        (d.hostEvent 0, s.2)
      | some ms =>
        let r := processAll .host ms envs (d, s.2) (4096 - reservedBytes ms) []
        let out := r.2.1.flatten
        let d := r.1.1.modTack fun x => { x with
          mbStatus := mbDone false r.2.1.length seq, mbRespLen := out.length, mbResponse := out, lastResponse := r.2.1.getLast?.getD [] }
        ((d.hostEvent 0).resetAfter r.1.2 r.2.2, r.1.2)

/-- A host write of BAR0 that is no doorbell: MB_REQUEST, EVENT_CAUSE, EVENT_ENABLE and the MSI-X table. A vector that
is unmasked while it is pending is signalled, as PCIe has it (PRESUMED, log 3). -/
def Dev.bar0Write (d : Dev) (off : Nat) (bs : List Byte) : Dev :=
  if !d.power.endpoint then d
  else
    let d := d.count 0x547 bs.length
    let into (base : Nat) (z : Nat → Byte) (m : Sparse Byte) : Sparse Byte :=
      ((upTo bs.length).zip bs).foldl (fun (m : Sparse Byte) (e : Nat × Byte) => sset (z (off - base + e.1)) m (off - base + e.1) e.2) m
    if within 0x1000 0x1FFF off && decide (off + bs.length ≤ 0x2000) then
      if bitOf d.tack.mbStatus 0 then d else d.modTack fun x => { x with mbRequest := into 0x1000 (fun _ => 0#8) x.mbRequest }
    else if off = 0x10 then d.modTack fun x => { x with eventCause := x.eventCause &&& (15 ^^^ (leNat bs % 16)) }
    else if off = 0x14 then d.modTack fun x => { x with eventEnable := leNat bs % 16 }
    else if within 0x8000 0x83FF off && decide (off + bs.length ≤ 0x8400) then
      let d := d.modTack fun x => { x with msixTable := into 0x8000 (fun i => if i % 16 = 12 then 1#8 else 0#8) x.msixTable }
      (upTo 64).foldl (fun (d : Dev) v =>
        if bitOf d.tack.msixPba v && (d.msixByte (16 * v + 12)).toNat % 2 = 0 then
          (d.modTack fun x => { x with msixPba := setBit x.msixPba v false }).msix v
        else d) d
    else d

/-- A register of BAR0 as the host reads it. -/
def Dev.bar0Read (d : Dev) (off : Nat) : Nat :=
  if off = 0x4 then d.tack.mbStatus
  else if off = 0x8 then d.tack.mbRespLen
  else if off = 0x10 then d.tack.eventCause
  else if off = 0x14 then d.tack.eventEnable
  else if off = 0x18 then d.devState + d.get Ent.owner <<< 8 + bitNat d.power.stackUp <<< 16
  else if off = 0x1C then d.tack.newest
  else if within 0x1000 0x1FFC off then leNat ((upTo 4).map fun k => sget 0#8 d.tack.mbRequest (off - 0x1000 + k))
  else if within 0x2000 0x2FFC off then leAt d.tack.mbResponse (off - 0x2000) 4
  else if within 0x8000 0x83FC off then leNat ((upTo 4).map fun k => d.msixByte (off - 0x8000 + k))
  else if off = 0x9000 then fieldOf d.tack.msixPba 31 0
  else if off = 0x9004 then fieldOf d.tack.msixPba 63 32
  else 0

/-- A register of BAR4 (R571). -/
def Dev.bar4Read (d : Dev) (off : Nat) : Nat :=
  if off = 0x0 then fieldOf d.tack.lqBase 31 0
  else if off = 0x4 then fieldOf d.tack.lqBase 63 32
  else if off = 0x8 then d.tack.lqEntries
  else if off = 0xC then d.tack.lqTail
  else if off = 0x10 then d.tack.lqHead
  else if off = 0x14 then 2 * bitNat (d.tack.lqHead != d.tack.lqTail && !d.power.firstReady)
  else 0

/-! ### Bridle frames (R539–R541) -/

/-- A counter of BRIDLE_COUNTS: 0 received, 1 AUTH, 2 SESSION, 3 malformed or discarded. -/
def Dev.bridleCount (d : Dev) (k : Nat) : Dev := d.bump Ent.bridleCounts (8 * k) 8 1

/-- The messages of a frame whose header is sound, or none. -/
def frameMessages (bs : List Byte) : Option (List DictMsg) :=
  let n := leAt bs 6 2
  let auth := leAt bs 4 1
  if 1232 < bs.length || decide (bs.length < 32) || leAt bs 0 2 != 0x4B54 || leAt bs 2 1 != 1 || !within 1 3 (leAt bs 3 1) || decide (2 ≤ auth)
      || !zeroAt bs 24 8 || decide (1184 < n) || bs.length != 32 + n + 16 * auth then none
  else match splitMessages (n + 1) ((bs.drop 32).take n) with
    | some ms => if ms.length = leAt bs 5 1 && within 1 16 ms.length then some ms else none
    | none => none

/-- The tag of a frame matches; no tag matches a key of all zeros. -/
def Dev.tagOk (d : Dev) (bs : List Byte) : Bool :=
  let n := 32 + leAt bs 6 2
  d.keySet && (bs.drop n).take 16 == (hmacSha256 d.mgmtKey (bs.take n)).take 16

/-- The step of R540 that refuses a frame: its status. -/
def Dev.frameRefused (d : Dev) (bs : List Byte) (ms : List DictMsg) : Option Nat :=
  let auth := leAt bs 4 1 == 1
  let tag := auth && d.tagOk bs
  if (ms.any fun m => m.op == 2) && !tag then some Status.auth
  else if auth && (leAt bs 8 8 != d.get Ent.session || decide (leAt bs 16 8 ≤ d.tack.highCounter)) then some Status.session
  else if auth && !tag then some Status.auth
  else none

/-- 0x0820 or 0x0821, each at most once per second. -/
def Dev.frameFault (d : Dev) (status : Nat) : Dev :=
  let now := d.time.clock
  let due (t : Option Nat) : Bool := match t with | some c => decide (now < c) || decide (c + clockSecond ≤ now) | none => true
  if status = Status.auth then
    if due d.tack.lastAuthFault then
      (d.modTack fun x => { x with lastAuthFault := some now }).fault 0x0820 Unit.bridle 0
    else d
  else if due d.tack.lastSessionFault then
    (d.modTack fun x => { x with lastSessionFault := some now }).fault 0x0821 Unit.bridle 0
  else d

/-- The response frame leaves. -/
def Dev.frameAnswer (d : Dev) (bs : List Byte) (out : List (List Byte)) : Dev :=
  let f := d.bridleFrame 2 out.length (leAt bs 16 8) (leAt bs 8 8) (leAt bs 4 1 == 1) out.flatten
  d.modTack fun x => { x with bridleOut := x.bridleOut ++ [f], lastResponse := out.getLast?.getD [] }

/-- A datagram at the Bridle port. full says that 64 frames were waiting when it came (R539). A response or an event
frame asks nothing. -/
def bridleFrameIn (bs : List Byte) (full : Bool) (envs : List TackEnv) (s : Dev × Fuses) : Dev × Fuses :=
  let d := s.1.bridleCount 0
  match frameMessages bs with
  | none => (d.bridleCount 3, s.2)
  | some ms =>
    if leAt bs 3 1 != 1 then (d, s.2)
    else if full then (d.bridleCount 3, s.2)
    else match d.frameRefused bs ms with
      | some st =>
        let d := (d.bridleCount (if st = Status.auth then 1 else 2)).frameFault st
        (d.frameAnswer bs (ms.map fun m => m.answer st 0 []), s.2)
      | none =>
        let d := if leAt bs 4 1 = 1 then d.modTack fun x => { x with highCounter := leAt bs 16 8 } else d
        let r := processAll .bridle ms envs (d, s.2) (1184 - reservedBytes ms) []
        ((r.1.1.frameAnswer bs r.2.1).resetAfter r.1.2 r.2.2, r.1.2)

/-! ### BAR2 (R569) -/

/-- Accumulator and bundle memory take a host write while the panel is halted or the device is not RUNNING (R77). -/
def Dev.panelWritable (d : Dev) (p : Nat) : Bool := d.panelOpen p && d.panelAtRest p

/-- A range of the stow area or of a Tally ring (R285, R595). -/
def Dev.guarded (d : Dev) (a n : Nat) : Bool := inStow a || inStow (a + n - 1) || d.inDumpRing a n || d.inSampleRing a n

/-- A host read of the control window. Tally takes aligned 8-byte reads; a closed group reads as all ones in the user
view (R589, R590). -/
def Dev.bar2Control (d : Dev) (a n : Nat) : Bar2Reply :=
  let c := ctrlAt a
  if c = .hole then .unsupported
  else if c.isTally then
    if n != 8 || a % 8 != 0 then .unsupported
    else
      let shut := c.user && (match c.group with | some g => !d.openTo true g | none => false)
      .data (if shut then List.replicate 8 0xFF#8 else leBytes 8 (d.tallyValue c))
  else .data (d.windowBytes a n)

/-- Bytes of local memory as a host read gets them (R80, R82, R202, R272). -/
def Dev.hostBytes (d : Dev) (a n : Nat) (u : Upset) : Dev × List Byte :=
  let m := d.windowMeet Unit.pcie a .offTree u
  if m.2 then m.1.freeBytes n else (m.1, m.1.read a n)

/-- The same, of memory that a panel, an island or the device itself opens to the host. -/
def Dev.hostWindow (d : Dev) (ok : Bool) (a n : Nat) (u : Upset) : Dev × Bar2Reply :=
  if ok then ((d.hostBytes a n u).1, .data (d.hostBytes a n u).2) else (d, .completerAbort)

/-- A host read of a memory stack: a lost block gives the poisoned-data indication (R278). -/
def Dev.hostStack (d : Dev) (a n : Nat) (u : Upset) : Dev × Bar2Reply :=
  let d := d.stackMeet a u
  (d.countBlocks a n false false, if (d.lostIn a n).isEmpty then .data (d.read a n) else .poisoned (d.read a n))

/-- A host read of local memory. -/
def Dev.bar2Read (d : Dev) (a n : Nat) (u : Upset) : Dev × Bar2Reply :=
  if d.region (a + n - 1) = .hole then (d, .unsupported)
  else match d.region a with
    | .hole => (d, .unsupported)
    | .felt =>
      if !d.wbRangeAllowed a n .read then (d.tileRefuses a .offTree, .completerAbort)
      else
        let g := d.hostBytes a n u
        match g.1.poisonIn a n with
        | [] => (g.1, .data g.2)
        | ws => (ws.foldl (fun (d : Dev) w => d.poisonFault w Unit.felt) g.1, .poisoned g.2)
    | .near _ =>
      if d.guarded a n && d.inState [St.running, St.held, St.braced] then (d, .completerAbort) else d.hostStack a n u
    | .deep _ => d.hostStack a n u
    | .scratch p => d.hostWindow (d.panelOpen p) a n u
    | .acc p => d.hostWindow (d.panelOpen p) a n u
    | .bundle p => d.hostWindow (d.panelOpen p) a n u
    | .side _ => d.hostWindow true a n u
    | .control => (d, d.bar2Control a n)

/-- Bytes that a host write changes, with the reply. -/
def Dev.bar2Put (d : Dev) (ok : Bool) (a : Nat) (bs : List Byte) : Dev × Bar2Reply :=
  if ok then (d.store a bs, .written) else (d, .completerAbort)

/-- A host write to a memory stack: a partial write to a lost block is not performed (R277). -/
def Dev.bar2Stack (d : Dev) (a : Nat) (bs : List Byte) : Dev × Bar2Reply :=
  if d.partialLost a bs.length then (d.fault 0x0312 (Unit.billet (billetOf (stackIndex a))) a, .completerAbort)
  else d.bar2Put true a bs

/-- A host write of local memory. Of the control window it may write SAMPLE_READ alone (R590; for the rest DEDUCED,
log 36). -/
def Dev.bar2Write (d : Dev) (a : Nat) (bs : List Byte) : Dev × Bar2Reply :=
  let n := bs.length
  if d.region (a + n - 1) = .hole then (d, .unsupported)
  else match d.region a with
    | .hole => (d, .unsupported)
    | .felt =>
      if !d.wbRangeAllowed a n .write then (d.tileRefuses a .offTree, .completerAbort) else d.bar2Put true a bs
    | .near _ => if d.guarded a n then (d, .completerAbort) else d.bar2Stack a bs
    | .deep _ => d.bar2Stack a bs
    | .scratch p => d.bar2Put (d.panelOpen p) a bs
    | .acc p => d.bar2Put (d.panelWritable p) a bs
    | .bundle p => d.bar2Put (d.panelWritable p) a bs
    | .side _ => d.bar2Put true a bs
    | .control =>
      if ctrlAt a = .hole || ((ctrlAt a).isTally && (n != 8 || a % 8 != 0)) then (d, .unsupported)
      else if ctrlAt a = .sampleRead false then (d.writeSampleRead (leNat bs), .written)
      else (d, .completerAbort)

/-- A host access through BAR2, and how it completes. -/
def Dev.bar2 (d : Dev) (x : Bar2) (u : Upset) : Dev :=
  let sent (r : Bar2Reply) : Nat := match r with | .data bs => bs.length | .poisoned bs => bs.length | _ => 0
  let show_ (r : Dev × Bar2Reply) : Dev := (r.1.count 0x548 (sent r.2)).modTack fun t => { t with bar2Last := some r.2 }
  if !d.power.endpoint then d
  else match x with
    | .read a n =>
      if n = 0 then d else if d.bar2Ready then show_ (d.bar2Read a n u) else show_ (d, .completerAbort)
    | .write a bs =>
      if bs.isEmpty then d
      else
        let d := d.count 0x547 bs.length
        if d.bar2Ready then show_ (d.bar2Write a bs) else show_ (d, .completerAbort)

/-! ### The commands -/

/-- A WRITE segment of an entry: key is index × 256 + subindex. -/
def execTackWrite (p : TackPath) (key : Nat) (last : Bool) (offset : Nat) (bs : List Byte) (tag : Nat) (env : TackEnv) :
    State → Host.Outcome State Fault Refusal :=
  oneMessage p env ⟨2, bitNat last, key, 0, bs.length, offset, tag, bs⟩
def execDictRead (p : TackPath) (key len offset tag : Nat) : State → Host.Outcome State Fault Refusal :=
  oneMessage p TackEnv.plain ⟨1, 0, key, 0, len, offset, tag, []⟩
def execDictNext (p : TackPath) (key tag : Nat) : State → Host.Outcome State Fault Refusal :=
  oneMessage p TackEnv.plain ⟨3, 0, key, 0, 0, 0, tag, []⟩
def execMbDoorbell (v : Nat) (envs : List TackEnv) : State → Host.Outcome State Fault Refusal := onChip (mbDoorbell v envs)
def execEventCauseClear (v : Nat) : State → Host.Outcome State Fault Refusal := act fun d => d.bar0Write 0x10 (leBytes 4 v)
def execMbRequestWrite (off : Nat) (bs : List Byte) : State → Host.Outcome State Fault Refusal := act fun d => d.bar0Write off bs
def execBridleFrame (bs : List Byte) (full : Bool) (envs : List TackEnv) : State → Host.Outcome State Fault Refusal :=
  onChip (bridleFrameIn bs full envs)
def execHostBar2Access (x : MetBar2) : State → Host.Outcome State Fault Refusal := act fun d => d.bar2 x.access x.meets

end Sys2Proof.Machine
end

