-- ==== Sys2Proof/Machine/Panels.lean ====
section
/-!
DEFINITION. The commands of the panels: one operation sent to a panel's sequencer, its jobs' events, and the
tokens on their way to an island (*Panels and the matrix array*, *Row engine and vector unit*, *Panel
instruction bundles*).
-/
namespace Sys2Proof.Machine
open Sys2Proof

/-- An event of a panel's jobs; a fenced panel is clock-gated (R83). -/
def Dev.onJobs (d : Dev) (a : At) (f : Nat → Dev → Dev) : Dev :=
  if d.fenced a.panel then d else d.onIsland (islandOf a.panel) a.cycle f

/-! ### Bundles and slot M -/

def execBundleIssue (panel : Nat) (u : MetBundle) : State → Host.Outcome State Fault Refusal :=
  act fun d => d.evBundle panel u.fetch u.slots
def execMmTile (a : At) (tile value : Nat) : State → Host.Outcome State Fault Refusal :=
  act fun d => d.issueM a .none (.tile tile value)
def execMmZero (a : At) (tile : Nat) : State → Host.Outcome State Fault Refusal := act fun d => d.issueM a .none (.zero tile)
def execMmLoad (a : At) (typ term aix : Nat) (u : Upset) : State → Host.Outcome State Fault Refusal :=
  act fun d => d.issueM a u (.load typ term aix)
def execMmLoadTurn (a : At) (typ term aix : Nat) (u : Upset) : State → Host.Outcome State Fault Refusal :=
  act fun d => d.issueM a u (.loadTurn typ term aix)
def execMmLoadAcc (a : At) (aix tile first rows : Nat) (u : Upset) : State → Host.Outcome State Fault Refusal :=
  act fun d => d.issueM a u (.loadAcc aix tile first rows)
/-- The last byte of a load is delivered (R55). -/
def execMmLoadComplete (a : At) : State → Host.Outcome State Fault Refusal :=
  act fun d => d.onJobs a fun c d => d.evLoadComplete a.panel c
def execMmSwap (a : At) : State → Host.Outcome State Fault Refusal := act fun d => d.issueM a .none .swap
def execMmStreamAdd (a : At) (f : StreamF) (group : Nat) (strict : Bool) (term kBase : Nat) :
    State → Host.Outcome State Fault Refusal := act fun d => d.issueM a .none (.stream .add f group strict term kBase)
def execMmStreamMax (a : At) (f : StreamF) (group : Nat) (strict : Bool) (term kBase : Nat) :
    State → Host.Outcome State Fault Refusal := act fun d => d.issueM a .none (.stream .max f group strict term kBase)
def execMmStreamMin (a : At) (f : StreamF) (group : Nat) (strict : Bool) (term kBase : Nat) :
    State → Host.Outcome State Fault Refusal := act fun d => d.issueM a .none (.stream .min f group strict term kBase)
/-- The next row of the panel's oldest unfinished stream enters (R28). -/
def execStreamRowEntry (a : At) (u : Upset) : State → Host.Outcome State Fault Refusal :=
  act fun d => d.onJobs a fun c d => d.evStreamRow a.panel c u
def execMmDrain (a : At) (f : DrainF) (u : Upset) : State → Host.Outcome State Fault Refusal :=
  act fun d => d.issueM a u (.drain f)
def execMmDrainWb (a : At) (f : DrainWbF) (u : Upset) : State → Host.Outcome State Fault Refusal :=
  act fun d => d.issueM a u (.drainWb f)

/-! ### Slot V -/

def execVuAdd (a : At) (dst : Nat) (x y : VSrc) : State → Host.Outcome State Fault Refusal :=
  act fun d => d.issueV a .none (.vu .add dst x y x)
def execVuSub (a : At) (dst : Nat) (x y : VSrc) : State → Host.Outcome State Fault Refusal :=
  act fun d => d.issueV a .none (.vu .sub dst x y x)
def execVuMul (a : At) (dst : Nat) (x y : VSrc) : State → Host.Outcome State Fault Refusal :=
  act fun d => d.issueV a .none (.vu .mul dst x y x)
def execVuMax (a : At) (dst : Nat) (x y : VSrc) : State → Host.Outcome State Fault Refusal :=
  act fun d => d.issueV a .none (.vu .max dst x y x)
def execVuMin (a : At) (dst : Nat) (x y : VSrc) : State → Host.Outcome State Fault Refusal :=
  act fun d => d.issueV a .none (.vu .min dst x y x)
def execVuFma (a : At) (dst : Nat) (x y z : VSrc) : State → Host.Outcome State Fault Refusal :=
  act fun d => d.issueV a .none (.vu .fma dst x y z)
def execVuAbs (a : At) (dst : Nat) (x : VSrc) : State → Host.Outcome State Fault Refusal :=
  act fun d => d.issueV a .none (.vu .abs dst x x x)
def execVuNeg (a : At) (dst : Nat) (x : VSrc) : State → Host.Outcome State Fault Refusal :=
  act fun d => d.issueV a .none (.vu .neg dst x x x)
def execVuMov (a : At) (dst : Nat) (x : VSrc) : State → Host.Outcome State Fault Refusal :=
  act fun d => d.issueV a .none (.vu .mov dst x x x)
def execVuCvt (a : At) (dst : Nat) (x : VSrc) (typ term : Nat) : State → Host.Outcome State Fault Refusal :=
  act fun d => d.issueV a .none (.cvt dst x typ term)
def execVuExp (a : At) (dst : Nat) (x : VSrc) : State → Host.Outcome State Fault Refusal :=
  act fun d => d.issueV a .none (.vu .exp dst x x x)
def execVuLog (a : At) (dst : Nat) (x : VSrc) : State → Host.Outcome State Fault Refusal :=
  act fun d => d.issueV a .none (.vu .log dst x x x)
def execVuRecip (a : At) (dst : Nat) (x : VSrc) : State → Host.Outcome State Fault Refusal :=
  act fun d => d.issueV a .none (.vu .recip dst x x x)
def execVuRsqrt (a : At) (dst : Nat) (x : VSrc) : State → Host.Outcome State Fault Refusal :=
  act fun d => d.issueV a .none (.vu .rsqrt dst x x x)
def execVuGelut (a : At) (dst : Nat) (x : VSrc) : State → Host.Outcome State Fault Refusal :=
  act fun d => d.issueV a .none (.vu .gelut dst x x x)
def execVuGelue (a : At) (dst : Nat) (x : VSrc) : State → Host.Outcome State Fault Refusal :=
  act fun d => d.issueV a .none (.vu .gelue dst x x x)
def execVuSilu (a : At) (dst : Nat) (x : VSrc) : State → Host.Outcome State Fault Refusal :=
  act fun d => d.issueV a .none (.vu .silu dst x x x)
def execVuDgelut (a : At) (dst : Nat) (x dy : VSrc) : State → Host.Outcome State Fault Refusal :=
  act fun d => d.issueV a .none (.vu .dgelut dst x dy x)
def execVuDgelue (a : At) (dst : Nat) (x dy : VSrc) : State → Host.Outcome State Fault Refusal :=
  act fun d => d.issueV a .none (.vu .dgelue dst x dy x)
def execVuDsilu (a : At) (dst : Nat) (x dy : VSrc) : State → Host.Outcome State Fault Refusal :=
  act fun d => d.issueV a .none (.vu .dsilu dst x dy x)
def execVuDrop (a : At) (dst : Nat) (x y z : VSrc) (site : Nat) : State → Host.Outcome State Fault Refusal :=
  act fun d => d.issueV a .none (.drop dst x y z site)
def execVuEset (a : At) (slot rowNum : Nat) : State → Host.Outcome State Fault Refusal :=
  act fun d => d.issueV a .none (.eset slot rowNum)
def execVuLd (a : At) (dst aix row typ : Nat) (u : Upset) : State → Host.Outcome State Fault Refusal :=
  act fun d => d.issueV a u (.ld dst aix row typ)
def execVuSt (a : MetAt) (src aix row typ : Nat) : State → Host.Outcome State Fault Refusal :=
  act fun d => d.issueV a.at_ a.meets (.st src aix row typ)
def execReGo (a : At) (request slot rowOff : Nat) : State → Host.Outcome State Fault Refusal :=
  act fun d => d.issueV a .none (.reGo request slot rowOff)

/-! ### Slots X and S -/

def execXMove (a : MetAt) (f : MoveF) : State → Host.Outcome State Fault Refusal :=
  act fun d => d.issueX a.at_ a.meets (.move f)
def execXTurn (a : MetAt) (saix daix typ : Nat) (token : Option Nat) : State → Host.Outcome State Fault Refusal :=
  act fun d => d.issueX a.at_ a.meets (.turn saix daix typ token)
def execXBcast (a : MetAt) (channel aix rows typ : Nat) : State → Host.Outcome State Fault Refusal :=
  act fun d => d.issueX a.at_ a.meets (.bcast channel aix rows typ)
def execSPostToken (a : At) (island ctr amount : Nat) : State → Host.Outcome State Fault Refusal :=
  act fun d => d.issueS a (.postToken island ctr amount)
def execSPostStash (a : At) (entry tag amount : Nat) : State → Host.Outcome State Fault Refusal :=
  act fun d => d.issueS a (.postStash entry tag amount)
def execSWait (a : At) (f : WaitF) : State → Host.Outcome State Fault Refusal := act fun d => d.issueS a (.wait f)
def execSWaitSatisfied (a : MetWait) : State → Host.Outcome State Fault Refusal :=
  act fun d => d.evWaitSatisfied a.at_ a.slots
def execSLoop (a : At) (level start count : Nat) : State → Host.Outcome State Fault Refusal :=
  act fun d => d.issueS a (.loop level start count)
def execSBeat (a : At) (basis : Bool) (alarm ctr beat : Nat) : State → Host.Outcome State Fault Refusal :=
  act fun d => d.issueS a (.beat basis alarm ctr beat)
def execSFence (a : At) (classes : Nat) : State → Host.Outcome State Fault Refusal :=
  act fun d => d.issueS a (.fence classes)
def execSTally (a : At) (counter aix row : Nat) : State → Host.Outcome State Fault Refusal :=
  act fun d => d.issueS a (.tally counter aix row)
def execSHalt (a : At) (code : Nat) : State → Host.Outcome State Fault Refusal := act fun d => d.issueS a (.halt code)

/-! ### Tokens and waits -/

def execTokenCrossing (island cycle : Nat) : State → Host.Outcome State Fault Refusal :=
  act fun d => d.tokenArrives false island cycle
def execOffTreeToken (island cycle : Nat) : State → Host.Outcome State Fault Refusal :=
  act fun d => d.tokenArrives true island cycle
def execTokenWaitTimeout (a : At) : State → Host.Outcome State Fault Refusal := act fun d => d.evWaitTimeout a

end Sys2Proof.Machine
end

