-- ==== Sys2Proof/Machine/Dispatch.lean ====
section
/-! DEFINITION. exec: one arm for each command, each a direct call of its meaning. -/
namespace Sys2Proof.Machine
open Sys2Proof

def exec (i : Instr) (s : State) : Host.Outcome State Fault Refusal :=
  match i with
  | .bundleIssue panel u => Sys2Proof.Machine.execBundleIssue panel u s
  | .mmTile a tile value => Sys2Proof.Machine.execMmTile a tile value s
  | .mmZero a tile => Sys2Proof.Machine.execMmZero a tile s
  | .mmLoad a typ term aix u => Sys2Proof.Machine.execMmLoad a typ term aix u s
  | .mmLoadTurn a typ term aix u => Sys2Proof.Machine.execMmLoadTurn a typ term aix u s
  | .mmLoadAcc a aix tile first rows u => Sys2Proof.Machine.execMmLoadAcc a aix tile first rows u s
  | .mmLoadComplete a => Sys2Proof.Machine.execMmLoadComplete a s
  | .mmSwap a => Sys2Proof.Machine.execMmSwap a s
  | .mmStreamAdd a f group strict term kBase => Sys2Proof.Machine.execMmStreamAdd a f group strict term kBase s
  | .mmStreamMax a f group strict term kBase => Sys2Proof.Machine.execMmStreamMax a f group strict term kBase s
  | .mmStreamMin a f group strict term kBase => Sys2Proof.Machine.execMmStreamMin a f group strict term kBase s
  | .streamRowEntry a u => Sys2Proof.Machine.execStreamRowEntry a u s
  | .mmDrain a f u => Sys2Proof.Machine.execMmDrain a f u s
  | .mmDrainWb a f u => Sys2Proof.Machine.execMmDrainWb a f u s
  | .vuAdd a dst x y => Sys2Proof.Machine.execVuAdd a dst x y s
  | .vuSub a dst x y => Sys2Proof.Machine.execVuSub a dst x y s
  | .vuMul a dst x y => Sys2Proof.Machine.execVuMul a dst x y s
  | .vuMax a dst x y => Sys2Proof.Machine.execVuMax a dst x y s
  | .vuMin a dst x y => Sys2Proof.Machine.execVuMin a dst x y s
  | .vuFma a dst x y z => Sys2Proof.Machine.execVuFma a dst x y z s
  | .vuAbs a dst x => Sys2Proof.Machine.execVuAbs a dst x s
  | .vuNeg a dst x => Sys2Proof.Machine.execVuNeg a dst x s
  | .vuMov a dst x => Sys2Proof.Machine.execVuMov a dst x s
  | .vuCvt a dst x typ term => Sys2Proof.Machine.execVuCvt a dst x typ term s
  | .vuExp a dst x => Sys2Proof.Machine.execVuExp a dst x s
  | .vuLog a dst x => Sys2Proof.Machine.execVuLog a dst x s
  | .vuRecip a dst x => Sys2Proof.Machine.execVuRecip a dst x s
  | .vuRsqrt a dst x => Sys2Proof.Machine.execVuRsqrt a dst x s
  | .vuGelut a dst x => Sys2Proof.Machine.execVuGelut a dst x s
  | .vuGelue a dst x => Sys2Proof.Machine.execVuGelue a dst x s
  | .vuSilu a dst x => Sys2Proof.Machine.execVuSilu a dst x s
  | .vuDgelut a dst x dy => Sys2Proof.Machine.execVuDgelut a dst x dy s
  | .vuDgelue a dst x dy => Sys2Proof.Machine.execVuDgelue a dst x dy s
  | .vuDsilu a dst x dy => Sys2Proof.Machine.execVuDsilu a dst x dy s
  | .vuDrop a dst x y z site => Sys2Proof.Machine.execVuDrop a dst x y z site s
  | .vuEset a slot rowNum => Sys2Proof.Machine.execVuEset a slot rowNum s
  | .vuLd a dst aix row typ u => Sys2Proof.Machine.execVuLd a dst aix row typ u s
  | .vuSt a src aix row typ => Sys2Proof.Machine.execVuSt a src aix row typ s
  | .reGo a request slot rowOff => Sys2Proof.Machine.execReGo a request slot rowOff s
  | .xMove a f => Sys2Proof.Machine.execXMove a f s
  | .xTurn a saix daix typ token => Sys2Proof.Machine.execXTurn a saix daix typ token s
  | .xBcast a channel aix rows typ => Sys2Proof.Machine.execXBcast a channel aix rows typ s
  | .sPostToken a island ctr amount => Sys2Proof.Machine.execSPostToken a island ctr amount s
  | .sPostStash a entry tag amount => Sys2Proof.Machine.execSPostStash a entry tag amount s
  | .sWait a f => Sys2Proof.Machine.execSWait a f s
  | .sWaitSatisfied a => Sys2Proof.Machine.execSWaitSatisfied a s
  | .sLoop a level start count => Sys2Proof.Machine.execSLoop a level start count s
  | .sBeat a basis alarm ctr beat => Sys2Proof.Machine.execSBeat a basis alarm ctr beat s
  | .sFence a classes => Sys2Proof.Machine.execSFence a classes s
  | .sTally a counter aix row => Sys2Proof.Machine.execSTally a counter aix row s
  | .sHalt a code => Sys2Proof.Machine.execSHalt a code s
  | .tokenCrossing island cycle => Sys2Proof.Machine.execTokenCrossing island cycle s
  | .offTreeToken island cycle => Sys2Proof.Machine.execOffTreeToken island cycle s
  | .tokenWaitTimeout a => Sys2Proof.Machine.execTokenWaitTimeout a s
  | .lateLimitExceeded => Sys2Proof.Machine.execLateLimitExceeded s
  | .beatAlarmFire a alarm => Sys2Proof.Machine.execBeatAlarmFire a alarm s
  | .reRequestStart island cycle => Sys2Proof.Machine.execReRequestStart island cycle s
  | .reLnFwd island cycle u => Sys2Proof.Machine.execReLnFwd island cycle u s
  | .reLnBwd island cycle u => Sys2Proof.Machine.execReLnBwd island cycle u s
  | .reRmsFwd island cycle u => Sys2Proof.Machine.execReRmsFwd island cycle u s
  | .reRmsBwd island cycle u => Sys2Proof.Machine.execReRmsBwd island cycle u s
  | .reSmaxFwd island cycle u => Sys2Proof.Machine.execReSmaxFwd island cycle u s
  | .reSmaxBlk island cycle u => Sys2Proof.Machine.execReSmaxBlk island cycle u s
  | .reSmaxFin island cycle u => Sys2Proof.Machine.execReSmaxFin island cycle u s
  | .reSmaxBwd island cycle u => Sys2Proof.Machine.execReSmaxBwd island cycle u s
  | .reRowdot island cycle u => Sys2Proof.Machine.execReRowdot island cycle u s
  | .reXentStat island cycle u => Sys2Proof.Machine.execReXentStat island cycle u s
  | .reXentGrad island cycle u => Sys2Proof.Machine.execReXentGrad island cycle u s
  | .reWmax island cycle u => Sys2Proof.Machine.execReWmax island cycle u s
  | .reTopk island cycle u => Sys2Proof.Machine.execReTopk island cycle u s
  | .wbContributionRow sender cycle => Sys2Proof.Machine.execWbContributionRow sender cycle s
  | .wbEarlyRowApply group cycle => Sys2Proof.Machine.execWbEarlyRowApply group cycle s
  | .wbSenderStallLimit sender cycle => Sys2Proof.Machine.execWbSenderStallLimit sender cycle s
  | .stashClaimGrant entry => Sys2Proof.Machine.execStashClaimGrant entry s
  | .rawBoundary => Sys2Proof.Machine.execRawBoundary s
  | .stepStart => Sys2Proof.Machine.execStepStart s
  | .runStart => Sys2Proof.Machine.execRunStart s
  | .runEnd => Sys2Proof.Machine.execRunEnd s
  | .stepRecovery found failing => Sys2Proof.Machine.execStepRecovery found failing s
  | .beatPause found => Sys2Proof.Machine.execBeatPause found s
  | .shuttleBodyStart shuttle => Sys2Proof.Machine.execShuttleBodyStart shuttle s
  | .descriptorStart shuttle => Sys2Proof.Machine.execDescriptorStart shuttle s
  | .streamCreditTake shuttle => Sys2Proof.Machine.execStreamCreditTake shuttle s
  | .shuttlePosition shuttle => Sys2Proof.Machine.execShuttlePosition shuttle s
  | .descriptorComplete shuttle cycle => Sys2Proof.Machine.execDescriptorComplete shuttle cycle s
  | .flitReceive port bytes stamp egress => Sys2Proof.Machine.execFlitReceive port bytes stamp egress s
  | .ackTimeoutResend port => Sys2Proof.Machine.execAckTimeoutResend port s
  | .linkFlit port f => Sys2Proof.Machine.execLinkFlit port f s
  | .portTrained port => Sys2Proof.Machine.execPortTrained port s
  | .portTrainingTimeout port => Sys2Proof.Machine.execPortTrainingTimeout port s
  | .linkLoss port => Sys2Proof.Machine.execLinkLoss port s
  | .portRetrain port => Sys2Proof.Machine.execPortRetrain port s
  | .put r => Sys2Proof.Machine.execPut r s
  | .getReq r => Sys2Proof.Machine.execGetReq r s
  | .getRsp src reqId data => Sys2Proof.Machine.execGetRsp src reqId data s
  | .atomic r => Sys2Proof.Machine.execAtomic r s
  | .mcast port group r => Sys2Proof.Machine.execMcast port group r s
  | .completion port src reqId status group => Sys2Proof.Machine.execCompletion port src reqId status group s
  | .creditInit f => Sys2Proof.Machine.execCreditInit f s
  | .creditReturn f => Sys2Proof.Machine.execCreditReturn f s
  | .requestTimeout reqId => Sys2Proof.Machine.execRequestTimeout reqId s
  | .releaseWordWrite stream count => Sys2Proof.Machine.execReleaseWordWrite stream count s
  | .loomUpdateWrite shuttle record => Sys2Proof.Machine.execLoomUpdateWrite shuttle record s
  | .reduceData f first blocks data => Sys2Proof.Machine.execReduceData f first blocks data s
  | .reduceClose f on fold => Sys2Proof.Machine.execReduceClose f on fold s
  | .reduceVoid f => Sys2Proof.Machine.execReduceVoid f s
  | .roundDeadline node round => Sys2Proof.Machine.execRoundDeadline node round s
  | .leafClose tree round step => Sys2Proof.Machine.execLeafClose tree round step s
  | .fpOpen tag => Sys2Proof.Machine.execFpOpen tag s
  | .fpCheck tag => Sys2Proof.Machine.execFpCheck tag s
  | .voteUp src msg => Sys2Proof.Machine.execVoteUp src msg s
  | .voteDeadline => Sys2Proof.Machine.execVoteDeadline s
  | .voteDown msg => Sys2Proof.Machine.execVoteDown msg s
  | .replicaVoid step => Sys2Proof.Machine.execReplicaVoid step s
  | .reduceReplay src step => Sys2Proof.Machine.execReduceReplay src step s
  | .burnisherRunStart part => Sys2Proof.Machine.execBurnisherRunStart part s
  | .burnisherChunkCommit part => Sys2Proof.Machine.execBurnisherChunkCommit part s
  | .burnisherRunComplete part => Sys2Proof.Machine.execBurnisherRunComplete part s
  | .snapshotDrainComplete ok => Sys2Proof.Machine.execSnapshotDrainComplete ok s
  | .mirrorHello sender zone stage leaf => Sys2Proof.Machine.execMirrorHello sender zone stage leaf s
  | .helloAck status => Sys2Proof.Machine.execHelloAck status s
  | .helloTimeout => Sys2Proof.Machine.execHelloTimeout s
  | .voteQuery src => Sys2Proof.Machine.execVoteQuery src s
  | .voteReply u uPrev v => Sys2Proof.Machine.execVoteReply u uPrev v s
  | .adoptPortsReady => Sys2Proof.Machine.execAdoptPortsReady s
  | .adoptVerify => Sys2Proof.Machine.execAdoptVerify s
  | .restoreTarget path env => Sys2Proof.Machine.execRestoreTarget path env s
  | .restoreLocal path env => Sys2Proof.Machine.execRestoreLocal path env s
  | .witness path => Sys2Proof.Machine.execWitness path s
  | .witnessRunStart => Sys2Proof.Machine.execWitnessRunStart s
  | .witnessRunEnd => Sys2Proof.Machine.execWitnessRunEnd s
  | .remirror path => Sys2Proof.Machine.execRemirror path s
  | .stateUnload path => Sys2Proof.Machine.execStateUnload path s
  | .stateSpare path => Sys2Proof.Machine.execStateSpare path s
  | .stateAdopt path => Sys2Proof.Machine.execStateAdopt path s
  | .stateRetire path => Sys2Proof.Machine.execStateRetire path s
  | .stateReinstate path => Sys2Proof.Machine.execStateReinstate path s
  | .stateUnspare path => Sys2Proof.Machine.execStateUnspare path s
  | .stateStow path => Sys2Proof.Machine.execStateStow path s
  | .stateResume path => Sys2Proof.Machine.execStateResume path s
  | .resetCold path env => Sys2Proof.Machine.execResetCold path env s
  | .resetWarm path => Sys2Proof.Machine.execResetWarm path s
  | .resetStack path => Sys2Proof.Machine.execResetStack path s
  | .lpL0 path => Sys2Proof.Machine.execLpL0 path s
  | .lpL1 path => Sys2Proof.Machine.execLpL1 path s
  | .lpL2 path => Sys2Proof.Machine.execLpL2 path s
  | .lpL3 path => Sys2Proof.Machine.execLpL3 path s
  | .holdCommandAdd path => Sys2Proof.Machine.execHoldCommandAdd path s
  | .holdCommandEnd path => Sys2Proof.Machine.execHoldCommandEnd path s
  | .holdRelease path v => Sys2Proof.Machine.execHoldRelease path v s
  | .stickyClear path v => Sys2Proof.Machine.execStickyClear path v s
  | .panelUnfence path v env => Sys2Proof.Machine.execPanelUnfence path v env s
  | .stepRebase path v => Sys2Proof.Machine.execStepRebase path v s
  | .runStartStep path v => Sys2Proof.Machine.execRunStartStep path v s
  | .tallyClear path v => Sys2Proof.Machine.execTallyClear path v s
  | .faultLogClear path v => Sys2Proof.Machine.execFaultLogClear path v s
  | .faultNClear path v => Sys2Proof.Machine.execFaultNClear path v s
  | .flashData path bytes env => Sys2Proof.Machine.execFlashData path bytes env s
  | .flashErase path v env => Sys2Proof.Machine.execFlashErase path v env s
  | .mgmtKey path bytes env => Sys2Proof.Machine.execMgmtKey path bytes env s
  | .rollbackAdvance path v => Sys2Proof.Machine.execRollbackAdvance path v s
  | .keyRevoke path v => Sys2Proof.Machine.execKeyRevoke path v s
  | .timeSetS path v => Sys2Proof.Machine.execTimeSetS path v s
  | .ownerWrite path v => Sys2Proof.Machine.execOwnerWrite path v s
  | .tackWrite path key last offset bytes tag env => Sys2Proof.Machine.execTackWrite path key last offset bytes tag env s
  | .dictRead path key len offset tag => Sys2Proof.Machine.execDictRead path key len offset tag s
  | .dictNext path key tag => Sys2Proof.Machine.execDictNext path key tag s
  | .mbDoorbell v envs => Sys2Proof.Machine.execMbDoorbell v envs s
  | .eventCauseClear v => Sys2Proof.Machine.execEventCauseClear v s
  | .bridleFrame bytes full envs => Sys2Proof.Machine.execBridleFrame bytes full envs s
  | .ptpFrame msg stamp => Sys2Proof.Machine.execPtpFrame msg stamp s
  | .hostBar2Access x => Sys2Proof.Machine.execHostBar2Access x s
  | .sampleReadWrite value => Sys2Proof.Machine.execSampleReadWrite value s
  | .lqTailDoorbell v => Sys2Proof.Machine.execLqTailDoorbell v s
  | .loadEntry entry img => Sys2Proof.Machine.execLoadEntry entry img s
  | .loadCommandLoad path env => Sys2Proof.Machine.execLoadCommandLoad path env s
  | .loadCommandReload path env => Sys2Proof.Machine.execLoadCommandReload path env s
  | .warnCondition pin mv => Sys2Proof.Machine.execWarnCondition pin mv s
  | .clearCondition mv => Sys2Proof.Machine.execClearCondition mv s
  | .braceTimerExpiry => Sys2Proof.Machine.execBraceTimerExpiry s
  | .stowNowCrossing mv => Sys2Proof.Machine.execStowNowCrossing mv s
  | .resetCrossing mv => Sys2Proof.Machine.execResetCrossing mv s
  | .vbulkOvervoltage mv => Sys2Proof.Machine.execVbulkOvervoltage mv s
  | .warmResume f => Sys2Proof.Machine.execWarmResume f s
  | .holdQueryTimeout => Sys2Proof.Machine.execHoldQueryTimeout s
  | .holdLimit => Sys2Proof.Machine.execHoldLimit s
  | .hold port cause origin seq freeze => Sys2Proof.Machine.execHold port cause origin seq freeze s
  | .release port origin seq resume releaser => Sys2Proof.Machine.execRelease port origin seq resume releaser s
  | .stowNotice port origin seq => Sys2Proof.Machine.execStowNotice port origin seq s
  | .holdQuery src seq => Sys2Proof.Machine.execHoldQuery src seq s
  | .holdReply src active beat => Sys2Proof.Machine.execHoldReply src active beat s
  | .powerOnReset x => Sys2Proof.Machine.execPowerOnReset x s
  | .resetNAssert strap => Sys2Proof.Machine.execResetNAssert strap s
  | .pciePerst => Sys2Proof.Machine.execPciePerst s
  | .pcieHotReset => Sys2Proof.Machine.execPcieHotReset s
  | .railGood domain failed => Sys2Proof.Machine.execRailGood domain failed s
  | .railWaitTimeout domain => Sys2Proof.Machine.execRailWaitTimeout domain s
  | .readyEntry => Sys2Proof.Machine.execReadyEntry s
  | .readyTimeout => Sys2Proof.Machine.execReadyTimeout s
  | .stackPowerUp f => Sys2Proof.Machine.execStackPowerUp f s
  | .domainLoss domain => Sys2Proof.Machine.execDomainLoss domain s
  | .peripheryDomainLoss domain => Sys2Proof.Machine.execPeripheryDomainLoss domain s
  | .coilLockLoss island => Sys2Proof.Machine.execCoilLockLoss island s
  | .frameCheckFail group => Sys2Proof.Machine.execFrameCheckFail group s
  | .frameResend group differs dest bytes => Sys2Proof.Machine.execFrameResend group differs dest bytes s
  | .sentinelTrack island drift => Sys2Proof.Machine.execSentinelTrack island drift s
  | .bankGroupCopyDone place => Sys2Proof.Machine.execBankGroupCopyDone place s
  | .thermalControl temps cool => Sys2Proof.Machine.execThermalControl temps cool s
  | .thermalTrip sensor => Sys2Proof.Machine.execThermalTrip sensor s
  | .feltScrub line single bad => Sys2Proof.Machine.execFeltScrub line single bad s
  | .patrolScrub block r => Sys2Proof.Machine.execPatrolScrub block r s
  | .stackBlockReread block ok => Sys2Proof.Machine.execStackBlockReread block ok s
  | .stackNotResponding stack => Sys2Proof.Machine.execStackNotResponding stack s
  | .timeAnnounce port source root priority hops frozen seq beat raw => Sys2Proof.Machine.execTimeAnnounce port source root priority hops frozen seq beat raw s
  | .announceTimer => Sys2Proof.Machine.execAnnounceTimer s
  | .candidateExpiry root => Sys2Proof.Machine.execCandidateExpiry root s
  | .timeSync port root seq origin corr stamp egress resent => Sys2Proof.Machine.execTimeSync port root seq origin corr stamp egress resent s
  | .syncTimer now => Sys2Proof.Machine.execSyncTimer now s
  | .syncLoss => Sys2Proof.Machine.execSyncLoss s
  | .delayMeasureTimer now => Sys2Proof.Machine.execDelayMeasureTimer now s
  | .delayReq port seq t2 t3 => Sys2Proof.Machine.execDelayReq port seq t2 t3 s
  | .delayResp port seq t2 t3 t4 resent => Sys2Proof.Machine.execDelayResp port seq t2 t3 t4 resent s
  | .ppsEdge stamp => Sys2Proof.Machine.execPpsEdge stamp s
  | .ppsLoss => Sys2Proof.Machine.execPpsLoss s
  | .ppsOutPulse => Sys2Proof.Machine.execPpsOutPulse s
  | .noRootCandidate => Sys2Proof.Machine.execNoRootCandidate s
  | .dumpLatch => Sys2Proof.Machine.execDumpLatch s
  | .dumpWriteDone => Sys2Proof.Machine.execDumpWriteDone s
  | .sampleComplete panel => Sys2Proof.Machine.execSampleComplete panel s
  | .counterShadowRefresh group => Sys2Proof.Machine.execCounterShadowRefresh group s
  | .vstbyLoss => Sys2Proof.Machine.execVstbyLoss s
  | .resetNRelease => Sys2Proof.Machine.execResetNRelease s
  | .pciePerstRelease => Sys2Proof.Machine.execPciePerstRelease s
  | .jtagInstruction j => Sys2Proof.Machine.execJtagInstruction j s
  | .mbRequestWrite off bytes => Sys2Proof.Machine.execMbRequestWrite off bytes s
  | .lqRingConfigWrite off v => Sys2Proof.Machine.execLqRingConfigWrite off v s
  | .flitTransmit port => Sys2Proof.Machine.execFlitTransmit port s
  | .frameCheckPass group => Sys2Proof.Machine.execFrameCheckPass group s

end Sys2Proof.Machine
end

