-- ==== Sys2Proof/Safety.lean ====
section
/-!
DEFINITION. The terms in which statements about the device are made: when a panel takes an operation, when an
island has nothing due, what a command leaves alone, and when nothing follows from a command by itself.
-/
namespace Sys2Proof.Machine
open Sys2Proof

/-- The state after a command that leaves the device e: what follows from e by itself is done as well
(Dev.settle), and the fuses and the queue are as before. -/
def State.after (s : State) (e : Dev) : State := { s with dev := e.settle }

/-! ### Panels and islands -/

/-- The panel takes an operation: VSTBY is good, the stack is clocked, and the panel is of the Pattern's mask, started, and
not halted, frozen, fenced, stalled or held by s.wait (R49, R83, R139, R182, R189, R613). -/
structure Dev.Ready (d : Dev) (a : At) : Prop where
  vstby : d.boot.vstby = true
  issue : d.canIssue a.panel = true
  stall : d.stalled a.panel = false
  held : (d.panel a.panel).held = none

/-- The cycle in which an operation sent to a panel issues: the one named, or the island's present cycle. -/
def Dev.issueCycle (d : Dev) (a : At) : Nat := max a.cycle (d.island (islandOf a.panel)).cycle

/-- The device at the issue of an operation: the island's time has come to its cycle. -/
def Dev.atIssue (d : Dev) (a : At) : Dev :=
  (d.advance (islandOf a.panel) (d.issueCycle a)).modPanel a.panel fun x => x.prune (d.issueCycle a)

/-- The cycle of an event of island i, and the device when the island's time has come to it. -/
def Dev.eventCycle (d : Dev) (i cycle : Nat) : Nat := max cycle (d.island i).cycle
def Dev.atEvent (d : Dev) (i cycle : Nat) : Dev := d.advance i (d.eventCycle i cycle)

/-- Nothing in the agenda of island i is due by cycle c. -/
def Dev.NoneDue (d : Dev) (i c : Nat) : Prop := ∀ t ∈ (d.island i).agenda, c < t.cycle

/-! ### Frames -/

/-- The parts of the device that no operation of a panel reaches. -/
structure Dev.SameFar (d e : Dev) : Prop where
  pat : e.pat = d.pat
  time : e.time = d.time
  weave : e.weave = d.weave
  shuttles : e.shuttles = d.shuttles
  descOrder : e.descOrder = d.descOrder
  coll : e.coll = d.coll
  power : e.power = d.power
  burn : e.burn = d.burn
  resil : e.resil = d.resil
  stack : e.stack = d.stack
  boot : e.boot = d.boot

/-- What a command leaves alone: every byte of memory and its poison, every panel but ps, every island but is,
every dictionary entry but ks, and everything far. -/
structure Dev.Frame (d e : Dev) (ps is ks : List Nat) : Prop where
  bytes : ∀ a, e.byte a = d.byte a
  tier : e.tier = d.tier
  panels : ∀ q, q ∉ ps → e.panel q = d.panel q
  islands : ∀ j, j ∉ is → e.island j = d.island j
  entries : ∀ k, k ∉ ks → e.get k = d.get k
  far : d.SameFar e

/-- An item joins the agenda of island i, and the island is otherwise as it was. -/
def Dev.Adds (d e : Dev) (i : Nat) (t : Item) : Prop :=
  e.island i = { d.island i with agenda := insertItem (d.island i).agenda t, cycle := (e.island i).cycle }

/-- Island i is as it was, but for its time. -/
def Dev.SameIsland (d e : Dev) (i : Nat) : Prop := e.island i = { d.island i with cycle := (e.island i).cycle }

/-- What a command leaves alone where it writes memory: every panel but ps, every island but is, every dictionary
entry but ks, and everything far. -/
structure Dev.Around (d e : Dev) (ps is ks : List Nat) : Prop where
  panels : ∀ q, q ∉ ps → e.panel q = d.panel q
  islands : ∀ j, j ∉ is → e.island j = d.island j
  entries : ∀ k, k ∉ ks → e.get k = d.get k
  far : d.SameFar e

/-- Panel p becomes x; no byte of memory changes, no other panel, no other island, of the dictionary at most ks, no
flag set, no wide-buffer tile and nothing of the contract. -/
structure Dev.PanelBecomes (d e : Dev) (p : Nat) (x : Panel) (ks : List Nat) : Prop where
  panel : e.panel p = x
  frame : d.Frame e [p] [islandOf p] ks
  flags : e.flags = d.flags
  wide : e.wide = d.wide
  contract : e.contract = d.contract

/-- The agenda of island i holds what it held and the items ts. -/
def Dev.Agenda (d e : Dev) (i : Nat) (ts : List Item) : Prop :=
  ∀ t, t ∈ (e.island i).agenda ↔ t ∈ (d.island i).agenda ∨ t ∈ ts

/-- e differs from d in the Tack and the Tally at most, and of the dictionary in the entries ks at most. -/
structure OnlyTack (ks : List Nat) (d e : Dev) : Prop where
  same : e = { d with tack := e.tack, tally := e.tally }
  entries : ∀ k, k ∉ ks → e.get k = d.get k

/-! ### Commands that complete -/

/-- A panel that takes the command c, with nothing due in its island at the issue, completes it: the next state is
s.after e, and P says how e differs from the device at the issue. -/
def Issues (c : Instr) (a : At) (s : State) (P : Dev → Dev → Prop) : Prop :=
  s.dev.Ready a → (s.dev.atIssue a).NoneDue (islandOf a.panel) (s.dev.issueCycle a) →
    ∃ e, exec c s = .next (s.after e) ∧ P (s.dev.atIssue a) e

/-- An event c of island i completes with VSTBY good, the stack clocked and nothing due: P says how the device after
it differs from the device at the event. -/
def Occurs (c : Instr) (i cycle : Nat) (s : State) (P : Dev → Dev → Prop) : Prop :=
  s.dev.boot.vstby = true → i < 16 → s.dev.clocked = true →
    (s.dev.atEvent i cycle).NoneDue i (s.dev.eventCycle i cycle) →
    ∃ e, exec c s = .next (s.after e) ∧ P (s.dev.atEvent i cycle) e

/-- A command outside the panels completes with VSTBY good: P says how the device after it differs from the device. -/
def Completes (c : Instr) (s : State) (P : Dev → Dev → Prop) : Prop :=
  s.dev.boot.vstby = true → ∃ e, exec c s = .next (s.after e) ∧ P s.dev e

/-! ### What follows by itself -/

/-- Nothing follows from the device's present state by itself: no collective unit is loaded, no Pattern is left in
RETIRED, every disabled port idles, no start-up moment is unmarked, no pending state command is over, and no freeze begins or ends. -/
structure Dev.Quiet (d : Dev) : Prop where
  coll : d.hasColl = false
  retired : d.devState = St.retired → d.pat.loaded = false
  ports : ∀ i, i < 8 → bitOf (d.get Ent.portEnable) i = true ∨ d.portState i = PortSt.disabled
  starting : d.devState ≠ St.configured
  command : d.getB Ent.stateCmdStatus 0 2 < 0x105 ∨ 0x108 < d.getB Ent.stateCmdStatus 0 2
  freeze : d.frozen = d.power.frozenAt.isSome

/-! ### Fuses -/

/-- No fuse is ever cleared: the rollback count does not fall, no key slot comes back, and every other fuse
stands (R567). -/
structure Fuses.Kept (f g : Fuses) : Prop where
  rollback : f.rollback ≤ g.rollback
  revoked : ∀ k, bitOf f.revoked k = true → bitOf g.revoked k = true
  rest : g.grade = f.grade ∧ g.dieStepping = f.dieStepping ∧ g.serial = f.serial ∧ g.eui64 = f.eui64 ∧
    g.debugLock = f.debugLock ∧ g.keyHash = f.keyHash ∧ g.deviceKey = f.deviceKey ∧ g.bgClass = f.bgClass ∧
    g.couplingRepair = f.couplingRepair ∧ g.accSpares = f.accSpares ∧ g.bgSpares = f.bgSpares

end Sys2Proof.Machine
end

