-- ==== Sys2Proof/Certificates/Slice0/Obligations.lean ====
section
/-!
DEFINITION. The statements about the device. Each docstring says which rules of spec/ it formalises. Statements about
one command have as their conclusion the next state it answers: s.after e, with e the device its own effect leaves.
-/

/-! ### The block as a whole -/

open Sys2Proof Sys2Proof.Machine

/-- A step runs the command at the front of the queue with the rest of the queue. -/
def Sys2Proof.Certificates.StepRunsFront : Prop :=
  ∀ (c : Instr) (cs : List Instr) (s : State),
    step { s with pending := c :: cs } = exec c { s with pending := cs }

/-- With no command waiting the block idles (log 1: the model's choice, the spec has no tick). -/
def Sys2Proof.Certificates.StepIdles : Prop := ∀ s : State, s.pending = [] → step s = .next s

/-- Every command of the table answers a next state in every state, and leaves the rest of the queue alone: the spec's
faults are records of the fault log and the device goes on (R546). -/
def Obligations.EveryCommandAnswers : Prop :=
  ∀ (c : Instr) (s : State), ∃ t, exec c s = .next t ∧ t.pending = s.pending

/-- The commands through which a dictionary write can reach the fuses (R567). -/
def Sys2Proof.Certificates.writesFuses : Instr → Bool
  | .rollbackAdvance _ _ => true
  | .keyRevoke _ _ => true
  | .tackWrite _ _ _ _ _ _ _ => true
  | .mbDoorbell _ _ => true
  | .bridleFrame _ _ _ => true
  | _ => false

/-- Whatever step is taken from whatever state, no fuse is ever cleared: the rollback count does not fall, a revoked
key slot stays revoked, and every other fuse stands as it is (R567). -/
def Obligations.FusesNeverClear : Prop := ∀ s t : State, step s = .next t → s.fuses.Kept t.fuses

/-- At least one key slot is not revoked. -/
def Sys2Proof.Certificates.KeyLeft (s : State) : Prop :=
  ¬ (bitOf s.fuses.revoked 0 = true ∧ bitOf s.fuses.revoked 1 = true)

/-- KEY_REVOKE is refused when the other slot is already revoked, so that, from any state, no step leaves the device
without a key slot (R567). -/
def Obligations.OneKeySlotStays : Prop :=
  ∀ s t : State, Certificates.KeyLeft s → step s = .next t → Certificates.KeyLeft t

/-- After reset both key slots may be used (fuse values are the model's choice, log 2). -/
def Sys2Proof.Certificates.KeyLeftAtReset : Prop := Certificates.KeyLeft State.reset

/-- Of all commands only a dictionary write reaches the fuses (R567). -/
def Sys2Proof.Certificates.FusesOnlyByWrites : Prop :=
  ∀ (c : Instr) (s t : State), exec c s = .next t → Certificates.writesFuses c = false → t.fuses = s.fuses

/-- While VSTBY is down nothing of the device runs: the state stays as it is until a power-on reset (R613). -/
def Sys2Proof.Certificates.NothingWithoutVstby : Prop :=
  ∀ (c : Instr) (s : State), s.dev.boot.vstby = false → (∀ x, c ≠ .powerOnReset x) → exec c s = .next s

/-- VSTBY_LOSS takes the device down: VSTBY is no longer good, and nothing else changes by the loss itself (R613). -/
def Sys2Proof.Certificates.VstbyLossStops : Prop :=
  ∀ s : State, s.dev.boot.vstby = true →
    exec .vstbyLoss s = .next (s.after { s.dev with boot := { s.dev.boot with vstby := false } })

/-- Nothing follows by itself from a quiet device: what a command leaves is the next state. -/
def Sys2Proof.Certificates.QuietStays : Prop := ∀ d : Dev, d.Quiet → d.settle = d

/-- What follows from a command by itself, when no collective unit is loaded and no Pattern is left in RETIRED, is
confined to the ports, three status entries (R415, R533, R579) and the time that beat counting stands (R588): every other part of the device and every other
dictionary entry stays. -/
def Sys2Proof.Certificates.SettleFrame : Prop :=
  ∀ d : Dev, d.hasColl = false → (d.devState = St.retired → d.pat.loaded = false) →
    (∀ k, k ≠ Ent.portState → k ≠ Ent.bootTimes → k ≠ Ent.bootStatus → k ≠ Ent.stateCmdStatus →
      d.settle.get k = d.get k) ∧
    d.settle.mem = d.mem ∧ d.settle.tier = d.tier ∧ d.settle.flags = d.flags ∧ d.settle.panels = d.panels ∧
    d.settle.islands = d.islands ∧ d.settle.wide = d.wide ∧ d.settle.pat = d.pat ∧
    d.settle.contract = d.contract ∧ d.settle.time = d.time ∧ d.settle.tally = d.tally ∧
    d.settle.shuttles = d.shuttles ∧ d.settle.coll = d.coll ∧
    d.settle.power = { d.power with frozenAt := d.settle.power.frozenAt, frozenSum := d.settle.power.frozenSum } ∧
    (d.frozen = d.power.frozenAt.isSome → d.settle.power = d.power) ∧
    d.settle.burn = d.burn ∧ d.settle.resil = d.resil ∧ d.settle.stack = d.stack ∧ d.settle.boot = d.boot ∧
    d.settle.tack.faults = d.tack.faults ∧ d.settle.weave.loom = d.weave.loom

/-- The values the spec gives for reset (R549, R550, R579, R86, R230, R335, R372, R536): SEALED, OWNER HOST, no fault
recorded, every panel in the mask and none fenced, no late mode, loss scale 2^16, and no command waiting. -/
def Sys2Proof.Certificates.ResetValues : Prop :=
  let d := State.reset.dev
  d.devState = St.sealed ∧ d.get Ent.owner = 1 ∧ d.tack.faults = [] ∧ d.get Ent.panelMask = 2 ^ 128 - 1 ∧
    d.get Ent.panelFenced = 0 ∧ d.get Ent.lateStatus = 0 ∧ d.get Ent.lossScale = 0x47800000 ∧
    d.get Ent.logicalBeat = 0 ∧ d.get Ent.stepCounter = 0 ∧ d.get Ent.contractResponse = 0x6A ∧
    d.get Ent.slackMin = 0x7FFFFFFF ∧ d.get Ent.beatPeriodNs = 8192 ∧ d.tack.eventEnable = 0xF ∧
    State.reset.pending = []

/-! ### The vector unit -/

namespace Sys2Proof.Certificates
open Sys2Proof.Machine

/-- What an elementwise command computes (R116, R118): its panel and cycle, destination, latency, and the 64 lanes with
their events from the panel's registers and constants. -/
def vectorRow : Instr → Option (At × Nat × Nat × (Panel → Fl (List F32)))
  | .vuAdd a dst x y => some (a, dst, 4, fun q => zipFl f32Add (q.source x) (q.source y))
  | .vuSub a dst x y => some (a, dst, 4, fun q => zipFl f32Sub (q.source x) (q.source y))
  | .vuMul a dst x y => some (a, dst, 4, fun q => zipFl f32Mul (q.source x) (q.source y))
  | .vuMax a dst x y => some (a, dst, 4, fun q => zipFl (f32MaxMin false) (q.source x) (q.source y))
  | .vuMin a dst x y => some (a, dst, 4, fun q => zipFl (f32MaxMin true) (q.source x) (q.source y))
  | .vuFma a dst x y z => some (a, dst, 4, fun q =>
      Fl.mapList (fun t => f32Fma t.1 t.2.1 t.2.2) ((q.source x).zip ((q.source y).zip (q.source z))))
  | .vuAbs a dst x => some (a, dst, 4, fun q => Fl.mapList (fun v => Fl.pure (f32Abs v)) (q.source x))
  | .vuNeg a dst x => some (a, dst, 4, fun q => Fl.mapList (fun v => Fl.pure (f32Neg v)) (q.source x))
  | .vuMov a dst x => some (a, dst, 4, fun q => Fl.mapList Fl.pure (q.source x))
  | .vuExp a dst x => some (a, dst, 10, fun q => Fl.mapList (fnF32 .exp) (q.source x))
  | .vuLog a dst x => some (a, dst, 10, fun q => Fl.mapList (fnF32 .log) (q.source x))
  | .vuRecip a dst x => some (a, dst, 10, fun q => Fl.mapList (fnF32 .recip) (q.source x))
  | .vuRsqrt a dst x => some (a, dst, 10, fun q => Fl.mapList (fnF32 .rsqrt) (q.source x))
  | .vuGelut a dst x => some (a, dst, 10, fun q => Fl.mapList (fnF32 .gelut) (q.source x))
  | .vuGelue a dst x => some (a, dst, 10, fun q => Fl.mapList (fnF32 .gelue) (q.source x))
  | .vuSilu a dst x => some (a, dst, 10, fun q => Fl.mapList (fnF32 .silu) (q.source x))
  | .vuDgelut a dst x dy => some (a, dst, 12, fun q =>
      zipFl (fun v w => Fl.bind (fnF32 .dgelut v) fun g => f32Mul w g) (q.source x) (q.source dy))
  | .vuDgelue a dst x dy => some (a, dst, 12, fun q =>
      zipFl (fun v w => Fl.bind (fnF32 .dgelue v) fun g => f32Mul w g) (q.source x) (q.source dy))
  | .vuDsilu a dst x dy => some (a, dst, 12, fun q =>
      zipFl (fun v w => Fl.bind (fnF32 .dsilu v) fun g => f32Mul w g) (q.source x) (q.source dy))
  | .vuCvt a dst x 1 0 => some (a, dst, 4, fun q => cvtLanes .bf16 (q.source x))
  | .vuCvt a dst x 2 0 => some (a, dst, 4, fun q => cvtLanes .fp16 (q.source x))
  | .vuCvt a dst x 4 0 => some (a, dst, 4, fun q => cvtMx .e4m3 (q.source x))
  | .vuCvt a dst x 5 0 => some (a, dst, 4, fun q => cvtMx .e5m2 (q.source x))
  | .vuCvt a dst x 6 0 => some (a, dst, 4, fun q => cvtMx .e2m3 (q.source x))
  | .vuCvt a dst x 7 0 => some (a, dst, 4, fun q => cvtMx .e3m2 (q.source x))
  | .vuCvt a dst x 8 0 => some (a, dst, 4, fun q => cvtMx .e2m1 (q.source x))
  | .vuCvt a dst x 1 (n + 1) => some (a, dst, 4, fun q => Fl.pure ((q.source x).map (termValue (n + 1))))
  | _ => none

/-- A result of the vector unit: the lanes wait in the island's agenda for issue + latency, the events go to the flag
set of VSLOT's step, and no register, memory byte or other panel changes before that cycle (R116, R117). -/
def VectorEffect (k p dst lat : Nat) (r : Fl (List F32)) (d e : Dev) : Prop :=
  d.Adds e (islandOf p) ⟨k + lat, 0, p, k, 1, .vreg p dst r.1⟩ ∧
    e.flags = (d.raise (FlagUnit.panel p) (d.stepTag (d.panel p).vslot) r.2).flags ∧
    d.Frame e [] [islandOf p] [Ent.stickyLast, Ent.faultClassCounts] ∧ e.wide = d.wide ∧ e.contract = d.contract

end Sys2Proof.Certificates

/-- The elementwise operations of the vector unit and vu.cvt (R116, R117, R118): each command whose panel takes it
completes, and its 64 lanes are written at issue + latency. -/
def Obligations.VectorResults : Prop :=
  ∀ (c : Instr) (a : At) (dst lat : Nat) (res : Panel → Fl (List F32)) (s : State),
    Certificates.vectorRow c = some (a, dst, lat, res) →
    Issues c a s fun d e =>
      Certificates.VectorEffect (s.dev.issueCycle a) a.panel dst lat (res (d.panel a.panel)) d e

/-- A result is in its register from its cycle on, and only there: a read before it sees the old value (R117). -/
def Obligations.VectorResultLands : Prop :=
  ∀ (d : Dev) (i c p reg : Nat) (lanes : List F32) (t : Item) (rest : List Item),
    (d.island i).agenda = t :: rest → t.work = .vreg p reg lanes → lanes.length = 64 →
    (∀ u ∈ rest, c < u.cycle) →
    (c < t.cycle → ∀ q, (d.advance i c).panel q = d.panel q) ∧
    (t.cycle ≤ c →
      ((d.advance i c).panel p).vreg reg = lanes ∧
      (∀ r, r ≠ reg → ((d.advance i c).panel p).vreg r = (d.panel p).vreg r) ∧
      (∀ q, q ≠ p → (d.advance i c).panel q = d.panel q) ∧
      (∀ a, (d.advance i c).byte a = d.byte a) ∧ (∀ k, (d.advance i c).get k = d.get k))

/-- vu.drop (R119, R120): every lane whose number is below the threshold gives +0.0, every other RNE(x times the
scale), six cycles after the issue, and ECTR advances by 64. -/
def Sys2Proof.Certificates.VectorDropout : Prop :=
  ∀ (a : At) (dst src i j site : Nat) (s : State),
    Issues (.vuDrop a dst (.reg src) (.const i) (.const j) site) a s fun d e =>
      let x := d.panel a.panel
      let tag := d.stepTag x.vslot
      let below (n : Nat) : Bool :=
        decide (dropNumber (d.get Ent.jobSeed) tag x.vslot site ((x.ectr + n) % 2 ^ 42) <
          (sget f32Zero x.vconst i).toNat % 0x1000000)
      let lanes := Fl.mapList
        (fun q => if below q.1 then Fl.pure f32Zero else f32Mul q.2 (sget f32Zero x.vconst j)) ((upTo 64).zip (x.vreg src))
      d.Adds e (islandOf a.panel) ⟨s.dev.issueCycle a + 6, 0, a.panel, s.dev.issueCycle a, 1, .vreg a.panel dst lanes.1⟩ ∧
        e.panel a.panel = { x with ectr := (x.ectr + 64) % 2 ^ 42 } ∧
        d.Frame e [a.panel] [islandOf a.panel] [Ent.stickyLast, Ent.faultClassCounts] ∧
        e.wide = d.wide ∧ e.contract = d.contract

/-- vu.eset sets VSLOT and sets ECTR to 64 times ROWNUM (R116, R175); nothing else changes. -/
def Sys2Proof.Certificates.VectorSlotSet : Prop :=
  ∀ (a : At) (slot rowNum : Nat) (s : State),
    Issues (.vuEset a slot rowNum) a s fun d e =>
      e.panel a.panel = { d.panel a.panel with vslot := slot % 64, ectr := 64 * rowNum % 2 ^ 42 } ∧
        d.Frame e [a.panel] [islandOf a.panel] [] ∧ d.SameIsland e (islandOf a.panel) ∧
        e.flags = d.flags ∧ e.tack = d.tack ∧ e.wide = d.wide ∧ e.contract = d.contract

/-- vu.ld from panel scratch, and vu.st to scratch or to the Felt, with a legal type, a legal address and a free port: a
load takes 64 elements to a register at issue + 4, with the events of their conversion (R17), a store is in scratch from
issue + 2 and in the Felt from issue + 14, where a Felt write stands five cycles after the read that would see it (R116,
R175, R197). -/
def Obligations.VectorLoadStore : Prop :=
  ∀ (a : At) (reg aix row typ es addr : Nat) (scr : Bool) (t : ElemType) (s : State),
    let k := s.dev.issueCycle a
    let p := a.panel
    (typ = 0 ∧ t = .fp32 ∧ es = 4) ∨ (typ = 1 ∧ t = .bf16 ∧ es = 2) ∨ (typ = 2 ∧ t = .fp16 ∧ es = 2) →
    (s.dev.atIssue a).rowOperand p aix row (64 * es) (64 * es) = some (scr, addr) →
    (scr = true → ((s.dev.atIssue a).panel p).portBusy .scratchRd k k = false →
      Issues (.vuLd a reg aix row typ .none) a s fun d e =>
        let res := elemsOf t 64 (d.read addr (64 * es))
        d.Adds e (islandOf p) ⟨k + 4, 0, p, k, 1, .vreg p reg res.1⟩ ∧
        e.flags = (d.raise (FlagUnit.panel p) (d.stepTag (d.panel p).vslot) res.2).flags ∧
        d.Frame e [p] [islandOf p] [Ent.stickyLast, Ent.faultClassCounts] ∧ (e.panel p).vr = (d.panel p).vr ∧
        e.wide = d.wide ∧ e.contract = d.contract) ∧
    ((if scr = true then ((s.dev.atIssue a).panel p).portBusy .scratchWr (k + 1) (k + 1)
      else ((s.dev.atIssue a).panel p).portBusy .vertOut (k + 14) (k + 14)) = false →
      (s.dev.atIssue a).contract.inPause = false →
      Issues (.vuSt ⟨a, .none⟩ reg aix row typ) a s fun d e =>
        let res := Fl.mapList (fun v => convScalar .fp32 t v.toNat) ((d.panel p).vreg reg)
        let bytes := res.1.flatMap (leBytes es)
        d.Adds e (islandOf p) ⟨if scr = true then k + 2 else k + 14 + 5, if scr = true then 0 else 2 + p % 8, p, k, 1,
          .bits addr bytes.length (leNat bytes) (allOnes bytes.length)⟩ ∧
        d.Frame e [p] [islandOf p] [Ent.stickyLast, Ent.faultClassCounts] ∧
        (e.panel p).vr = (d.panel p).vr ∧ e.wide = d.wide ∧ e.contract = d.contract)

/-- re.go: the request reaches its island's queue two cycles after the issue, with the step tag and the step of
the request's own slot (R91, R114, R176; log 92); nothing else changes. -/
def Sys2Proof.Certificates.RowRequestSent : Prop :=
  ∀ (a : At) (request slot rowOff : Nat) (s : State),
    Issues (.reGo a request slot rowOff) a s fun d e =>
      let k := s.dev.issueCycle a
      d.PanelBecomes e a.panel (d.panel a.panel) [] ∧ e.tack = d.tack ∧
        d.Adds e (islandOf a.panel) ⟨k + 2, 10 + a.panel % 8, a.panel, k, 1,
          .reAccept ⟨a.panel, k + 2, request, slot, rowOff, d.stepTag slot, d.slotStep slot⟩⟩

/-! ### Tiles, weight loads and streams -/

/-- mm.tile with a value the rules allow, on an entry no operation still uses: the entry holds the value (R61, R62,
R165). -/
def Sys2Proof.Certificates.TileWrites : Prop :=
  ∀ (a : At) (tile value : Nat) (s : State), tileRefused value = false →
    ((s.dev.atIssue a).panel a.panel).tileInUse tile (s.dev.issueCycle a) = false →
    Issues (.mmTile a tile value) a s fun d e =>
      d.PanelBecomes e a.panel { d.panel a.panel with tiles := sset 0 (d.panel a.panel).tiles tile value } [] ∧
        d.SameIsland e (islandOf a.panel) ∧ e.tack = d.tack

/-- mm.zero of a valid tile with its port free (R66, R75): 16 physical rows a cycle, or one in mode 0b11. The k-th group's
clearing falls k cycles after the issue; accumulator rows of the first group hold the initial value at once, scratch rows
read as cleared a cycle after their clearing, and no other byte changes. -/
def Obligations.ZeroClears : Prop :=
  ∀ (a : At) (tile : Nat) (s : State),
    let t := (s.dev.atIssue a).tile a.panel tile
    let k := s.dev.issueCycle a
    let rate := if t.mode = 3 then 1 else 16
    let port : Port := if t.mode = 3 then .scratchWr else .clear
    let n := t.count / rate
    let base := (s.dev.atIssue a).tileBase a.panel t
    t.valid = true → 0 < n →
    ((s.dev.atIssue a).panel a.panel).portBusy port k (k + n - 1) = false →
    Issues (.mmZero a tile) a s fun d e =>
      (∀ x, e.byte x = (if t.mode = 3 then d else d.zeroRows a.panel t.mode t.sense base rate).byte x) ∧
      d.Agenda e (islandOf a.panel) ((if t.mode = 3 then upTo n else (upTo n).tail).map fun j =>
        ⟨k + j + (if t.mode = 3 then 1 else 0), 1, a.panel, k, 0, .zeroRows a.panel t.mode t.sense (base + rate * j) rate⟩) ∧
      e.panel a.panel = { d.panel a.panel with
        claims := ⟨port, k, k + n - 1, k, 0⟩ :: (d.panel a.panel).claims
        touches := ⟨.zero, rowKey t.mode base, t.count, rate, k, k⟩ :: (d.panel a.panel).touches
        tileBusy := (tile, k + n - 1) :: (d.panel a.panel).tileBusy
        pendingOps := (if t.mode = 3 then [(1, k + n, k)] else []) ++ (d.panel a.panel).pendingOps } ∧
      d.Around e [a.panel] [islandOf a.panel] [] ∧ e.flags = d.flags ∧ e.wide = d.wide ∧ e.contract = d.contract

namespace Sys2Proof.Certificates
open Sys2Proof.Machine

/-- The input path of panel p serves loads and moves from bank cycle c on, and nothing else joins the agenda but ts. -/
def PathFrom (d e : Dev) (p c : Nat) (ts : List Item) : Prop :=
  (∃ t ∈ (e.island (islandOf p)).agenda, t.work = .pathCycle p ∧ t.cycle ≤ c) ∧
    ∀ t ∈ (e.island (islandOf p)).agenda,
      t ∈ (d.island (islandOf p)).agenda ∨ t ∈ ts ∨ t = ⟨c, 0, p, 0, 0, .pathCycle p⟩

end Sys2Proof.Certificates

/-- The four loads (R53–R55, R69, R126, R167) with a legal type, a readable operand and a free load slot: the load
takes the slot. A load from the Felt has its first bytes at issue + 14, so that its banks are read from issue + 6; a
load from scratch reads its first 256 bytes at once; a restore claims the clear port from issue + 15 until its last row
is written. -/
def Obligations.LoadsStart : Prop :=
  ∀ (a : At) (s : State),
    let d := s.dev.atIssue a
    let p := a.panel
    let k := s.dev.issueCycle a
    d.loadBusy p k = false → d.contract.inPause = false →
    (∀ typ term aix t ad, ElemType.ofCode typ = some t → loadTypeFault false typ term = none →
      d.operandAddr p aix 1 (tileBytes t) 2 = some ad → ad.scratch = false →
      Issues (.mmLoad a typ term aix .none) a s fun d e =>
        d.PanelBecomes e p { (d.finishLoad p k).panel p with
          load := some (mkLoad .plain typ term k (tileBytes t) [(ad.row p 0, tileBytes t)] false) } [] ∧
        Certificates.PathFrom d e p (k + 6) []) ∧
    (∀ typ term aix t ad, ElemType.ofCode typ = some t → loadTypeFault false typ term = none →
      d.operandAddr p aix 1 (tileBytes t) 2 = some ad → ad.scratch = true → (d.panel p).moves = [] →
      (d.panel p).portBusy .scratchRd k (k + ceilDiv (tileBytes t) 256 - 1) = false →
      Issues (.mmLoad a typ term aix .none) a s fun d e =>
        (∃ j, (e.panel p).load = some j ∧ j.kind = .scratch ∧ j.typ = typ ∧ j.term = term ∧ j.total = tileBytes t ∧
          j.left = tileBytes t - 256) ∧
        (e.panel p).active = (d.panel p).active ∧ (e.panel p).shadow = ((d.finishLoad p k).panel p).shadow ∧
        d.Frame e [p] [islandOf p] [] ∧ e.flags = d.flags ∧ e.wide = d.wide ∧ e.contract = d.contract) ∧
    (∀ typ term aix t ad, ElemType.ofCode typ = some t → loadTypeFault true typ term = none →
      ((d.addrEntry p aix).valid = true → (d.addrEntry p aix).scratch = false) →
      d.operandAddr p aix 64 (96 * t.bits / 8) 0 = some ad →
      Issues (.mmLoadTurn a typ term aix .none) a s fun d e =>
        d.PanelBecomes e p { (d.finishLoad p k).panel p with
          load := some (mkLoad .turn typ term k (64 * (96 * t.bits / 8))
            ((upTo 64).map fun r => (ad.row p r, 96 * t.bits / 8)) false) } [] ∧
        Certificates.PathFrom d e p (k + 6) [⟨k + 6, 0, p, k, 0, .turnHalf p k true⟩]) ∧
    (∀ aix tile first rows ad,
      let t := d.tile p tile
      let n := rows * t.per
      let row0 := d.tileBase p t + first * t.per
      t.valid = true → t.mode ≠ 2 → t.mode ≠ 3 → first + rows ≤ t.logical → (d.addrEntry p aix).scratch = false →
      d.operandAddr p aix n 256 256 = some ad → (d.panel p).portBusy .clear (k + 15) (k + 14 + n) = false →
      Issues (.mmLoadAcc a aix tile first rows .none) a s fun d e =>
        (∃ j, (e.panel p).load = some j ∧ j.kind = .acc ∧ j.total = 256 * n ∧ j.left = 256 * n ∧ j.tile = tile ∧
          j.rows = (upTo n).map (· + row0) ∧ j.src = (upTo n).map fun m => (ad.row p m, 256)) ∧
        (e.panel p).touches = (d.panel p).touches ∧
        (e.panel p).claims = ⟨.clear, k + 15, openEnd, k, 0⟩ :: (d.panel p).claims ∧
        d.Frame e [p] [islandOf p] [] ∧ e.flags = d.flags ∧ e.wide = d.wide ∧ e.contract = d.contract)

/-- The completion of a load (R53–R55, R126): the slot is free, and the shadow latches hold the tile that was
delivered; a restore leaves them as they were. -/
def Sys2Proof.Certificates.LoadCompletes : Prop :=
  ∀ (a : At) (s : State) (j : LoadJob) (t : Nat), s.dev.fenced a.panel = false →
    ((s.dev.atEvent (islandOf a.panel) a.cycle).panel a.panel).load = some j → j.doneAt = some t →
    t ≤ s.dev.eventCycle (islandOf a.panel) a.cycle →
    Occurs (.mmLoadComplete a) (islandOf a.panel) a.cycle s fun d e =>
      let x := d.panel a.panel
      d.PanelBecomes e a.panel { x with
        load := none
        shadow := match j.kind with
          | .acc => x.shadow
          | .turn => ⟨j.typ, j.term, leNat (turnTile (match ElemType.ofCode j.typ with | some y => y.bits / 8 | none => 1) j.got)⟩
          | .plain => ⟨j.typ, j.term, leNat j.got⟩
          | .scratch => ⟨j.typ, j.term, leNat j.got⟩ } [] ∧
        d.SameIsland e (islandOf a.panel) ∧ e.tack = d.tack

/-- mm.swap with no weight load in the slot exchanges the active and the shadow tile for rows that enter after its
cycle (R52, R55). -/
def Sys2Proof.Certificates.SwapExchanges : Prop :=
  ∀ (a : At) (s : State),
    (∀ j, (((s.dev.atIssue a).finishLoad a.panel (s.dev.issueCycle a)).panel a.panel).load = some j → j.kind = .acc) →
    Issues (.mmSwap a) a s fun d e =>
      let x := (d.finishLoad a.panel (s.dev.issueCycle a)).panel a.panel
      d.PanelBecomes e a.panel { x with active := x.shadow, shadow := x.active, swapAt := s.dev.issueCycle a } [] ∧
        d.SameIsland e (islandOf a.panel) ∧ e.tack = d.tack

namespace Sys2Proof.Certificates
open Sys2Proof.Machine

/-- mm.stream of each operation. -/
def streamCommand (op : StreamOp) (a : At) (f : StreamF) (group : Nat) (strict : Bool) (term kBase : Nat) : Instr :=
  match op with
  | .add => .mmStreamAdd a f group strict term kBase
  | .max => .mmStreamMax a f group strict term kBase
  | .min => .mmStreamMin a f group strict term kBase

/-- A stream as it stands when it is issued in cycle k by a panel x of d. -/
def newStream (d : Dev) (x : Panel) (k : Nat) (op : StreamOp) (f : StreamF) (group : Nat) (strict : Bool)
    (term kBase addr pitch spacing : Nat) : StreamJob :=
  { op := op, issue := k, tile := f.tile, first := f.first, rows := f.rows, next := 0, src := f.src, group := group,
    strict := strict, term := term, typ := f.typ, kBase := kBase, addr := addr, pitch := pitch, spacing := spacing,
    fetched := [], stepTag := d.stepTag x.vslot }

/-- What a stream's fields and tile must meet, the source apart (R27, R37, R56, R60–R63, R71, R168). strict is the
STRICT bit or ARITH_MODE, arith ARITH_MODE alone. -/
def streamFits (d : Dev) (p k : Nat) (op : StreamOp) (f : StreamF) (group : Nat) (strict arith : Bool) (term kBase : Nat)
    (xt : ElemType) : Prop :=
  let x := d.panel p
  let t := d.tile p f.tile
  ElemType.ofCode f.typ = some xt ∧ streamFieldFault (op == .add) strict group f.typ term = none ∧ t.valid = true ∧
    streamModeFault t op strict arith = none ∧ f.first + f.rows ≤ t.logical ∧
    (op ≠ .add → kBase + (if xt = .e2m1 then 192 else kOfType xt) ≤ 65536) ∧ ¬ (t.mode = 3 ∧ f.src = 3) ∧
    x.streamsEndBefore (k + if f.src = 3 then 4 else 14) = true

end Sys2Proof.Certificates

/-- mm.stream ADD, MAX and MIN (R56, R57, R70, R72, R168, R169) with fields that fit and its ports free: the stream joins
the panel's streams, and on a tile of panel scratch its writes are pending until the last is visible. From the Felt its
first row's bank is read at issue + 6; from a broadcast channel nothing is read; from scratch the first row is read at
once. -/
def Obligations.StreamsStart : Prop :=
  ∀ (op : StreamOp) (a : At) (f : StreamF) (group : Nat) (strict : Bool) (term kBase : Nat) (xt : ElemType) (x : Panel)
    (s : State),
    let d := s.dev.atIssue a
    let p := a.panel
    let k := s.dev.issueCycle a
    let arith := op == .add && d.get Ent.arithMode == 1
    let st := strict || arith
    let spacing := if st = true then 16 else if xt = .fp32 then 2 else 1
    let t := d.tile p f.tile
    let first := k + if f.src = 3 then 4 else 14
    let last := first + (f.rows - 1) * spacing
    let pends := (if t.mode = 3 then [(1, last + 15, k)] else []) ++ x.pendingOps
    Certificates.streamFits d p k op f group st arith term kBase xt → d.contract.inPause = false →
    (d.panel p).takePorts k 0 (streamPorts t.mode f.src k first last spacing f.rows (xt == .fp32)) = some x →
    (f.src = 1 ∨ f.src = 2 → f.aix = 0 →
      Issues (Certificates.streamCommand op a f group strict term kBase) a s fun d e =>
        d.PanelBecomes e p { x with pendingOps := pends, streams := (d.panel p).streams ++
          [Certificates.newStream d (d.panel p) k op f group st term kBase 0 0 spacing] } [] ∧
        d.SameIsland e (islandOf p) ∧ e.tack = d.tack) ∧
    (∀ ad, f.src = 0 → (d.addrEntry p f.aix).scratch = false → d.operandAddr p f.aix f.rows (actBytes xt) 0 = some ad →
      Issues (Certificates.streamCommand op a f group strict term kBase) a s fun d e =>
        d.PanelBecomes e p { x with pendingOps := pends, streams := (d.panel p).streams ++
          [Certificates.newStream d (d.panel p) k op f group st term kBase (ad.row p 0) ad.pitch spacing] } [] ∧
        d.Adds e (islandOf p) ⟨k + 6, 0, p, k, 0, .streamRead p k 0 0⟩ ∧ e.tack = d.tack) ∧
    (∀ ad, f.src = 3 → (d.addrEntry p f.aix).scratch = true → d.operandAddr p f.aix f.rows (actBytes xt) 0 = some ad →
      (∀ j ∈ (d.panel p).streams, j.issue ≠ k) →
      Issues (Certificates.streamCommand op a f group strict term kBase) a s fun d e =>
        (e.panel p).streams = (d.panel p).streams ++
          [{ Certificates.newStream d (d.panel p) k op f group st term kBase (ad.row p 0) ad.pitch spacing with
             fetched := [(0, d.read (ad.row p 0) (actLen f.typ))] }] ∧
        d.Frame e [p] [islandOf p] [] ∧ e.flags = d.flags ∧ e.wide = d.wide ∧ e.contract = d.contract ∧ e.tack = d.tack)

/-- A row of a stream enters (R28, R52, R65, R71, R78, R88): it carries the bytes its source gave it and the weight tile
that is active at its entry, its update lands after the latency of R78, no byte changes yet, and the stream has one row
less to come. -/
def Sys2Proof.Certificates.StreamRowEnters : Prop :=
  ∀ (a : At) (s : State) (j : StreamJob) (rest : List StreamJob) (bs : List Byte) (wt xt : ElemType),
    let i := islandOf a.panel
    let p := a.panel
    let d := s.dev.atEvent i a.cycle
    let x := d.panel p
    let t := d.tile p j.tile
    let entry := j.issue + (if j.src = 3 then 4 else 14) + j.next * j.spacing
    let l := x.latchFor entry
    let phys := d.tileBase p t + (j.first + j.next) * t.per
    let land := entry + updateLatency t.mode j.strict (wt.isMx || xt.isMx)
    s.dev.fenced p = false → x.streams = j :: rest → entry ≤ s.dev.eventCycle i a.cycle →
    s.dev.eventCycle i a.cycle < land →
    (if j.src = 1 ∨ j.src = 2 then d.busRow i (j.src - 1) entry
      else (j.fetched.find? fun r => r.1 == j.next).map Prod.snd) = some bs →
    streamRefusal j.strict l.typ l.term j.typ j.term = none →
    ElemType.ofCode l.typ = some wt → ElemType.ofCode j.typ = some xt →
    (j.op ≠ .add → j.kBase + (kRow wt xt).getD 96 ≤ 65536) →
    x.entersTooSoon (rowKey t.mode phys) t.mode entry = false →
    Occurs (.streamRowEntry a .none) i a.cycle s fun d e =>
      d.Adds e i ⟨land + (if t.mode = 3 then 1 else 0), 1, p, j.issue, 0, .landRow p ⟨j, t.mode, t.sense, phys, l, bs, land⟩⟩ ∧
      e.panel p = { x with
        streams := if j.next + 1 < j.rows then
          { j with next := j.next + 1, fetched := j.fetched.filter fun r => r.1 != j.next } :: rest else rest
        touches := ⟨.enter, rowKey t.mode phys, t.per, 64, entry, j.issue⟩ :: x.touches
        tileBusy := (j.tile, land) :: x.tileBusy } ∧
      d.Frame e [p] [i] [] ∧ e.flags = d.flags ∧ e.wide = d.wide ∧ e.contract = d.contract

/-- The update of a row that breaks no hazard (R28, R33, R36, R65, R70, R72): in its cycle, and not before, the words of its
logical row become the sums of the rules, no other byte changes, and the events go to the flag set of the stream's
step. -/
def Sys2Proof.Certificates.StreamRowLands : Prop :=
  ∀ (d : Dev) (i c p : Nat) (r : ArrayRow) (t : Item) (rest : List Item) (wt xt : ElemType),
    let key := rowKey r.mode r.phys
    let two := rowsPer r.mode = 2
    let k := (kRow wt xt).getD 96
    let r0 := d.rowAt p r.mode r.phys
    let r1 := if two then d.rowAt p r.mode (r.phys + 1) else []
    let res := applyRow r.mode r.sense r.job.kBase ((groupSize r.job.group).getD 16) r.job.strict r.latch wt xt r.job.term
      k r.bytes r0 r1
    (d.island i).agenda = t :: rest → t.work = .landRow p r → (∀ u ∈ rest, c < u.cycle) →
    ElemType.ofCode r.latch.typ = some wt → ElemType.ofCode r.job.typ = some xt →
    (d.panel p).landHazard key r.job.issue r.land = false →
    (two → (d.panel p).landHazard (key + 1) r.job.issue r.land = false) →
    (c < t.cycle → ∀ y, (d.advance i c).byte y = d.byte y) ∧
    (t.cycle ≤ c →
      (∀ y, (d.advance i c).byte y = sget 0#8 (if two then
          memWrite (memWrite d.mem (rowAddr p r.mode r.phys) (wordBytes res.1.1)) (rowAddr p r.mode (r.phys + 1)) (wordBytes res.1.2)
        else memWrite d.mem (rowAddr p r.mode r.phys) (wordBytes res.1.1)) y) ∧
      (d.advance i c).flags = (d.raise (FlagUnit.panel p) r.job.stepTag res.2).flags ∧
      d.Around (d.advance i c) [] [i] [Ent.stickyLast, Ent.faultClassCounts] ∧
      (d.advance i c).wide = d.wide ∧ (d.advance i c).contract = d.contract)

/-! ### Drains -/

namespace Sys2Proof.Certificates
open Sys2Proof.Machine

/-- The ports a drain of n physical rows claims from cycle c on (R65, R67, R68). -/
def drainPorts (t : Tile) (c n rows : Nat) (zap vert scr : Bool) : List (Port × Nat × Nat) :=
  let after := if vert then 14 else 6
  let out : Option Port := if vert then some .vertOut else if scr then some .scratchWr else none
  [((if t.mode = 3 then Port.scratchRd else Port.drain), c + 1, c + n)] ++
    (if zap then [((if t.mode = 3 then Port.scratchWr else Port.clear), c + 2, c + n + 1)] else []) ++
    match out with
    | none => []
    | some q => if t.per = 1 then [(q, c + after, c + after + n - 1)]
        else (upTo rows).map fun r => (q, c + after + 2 * r + 1, c + after + 2 * r + 1)

/-- A drain that has started (R67): its job waits at the panel, its first row is read in the next cycle, and no byte has
changed yet; in pair mode the halves have exchanged their roles and the new fill half is cleared (R73). -/
def DrainStarted (p k n : Nat) (t : Tile) (j : DrainJob) (d e : Dev) : Prop :=
  let pair := (d.panel p).pairMode && t.mode != 3
  (e.panel p).drains = (d.panel p).drains ++ [j] ∧
    (e.panel p).tileBusy = (j.tile, k + n + 1) :: (d.panel p).tileBusy ∧
    (e.panel p).touches = ⟨.read, rowKey t.mode (d.tileBase p t + j.first * t.per), n, 1, k + 1, k⟩ :: (d.panel p).touches ∧
    (e.panel p).vr = (d.panel p).vr ∧ (e.panel p).fillB = ((d.panel p).fillB ^^ pair) ∧
    d.Adds e (islandOf p) ⟨k + 1, 0, p, k, 0, .drainRow p k 0⟩ ∧
    (∀ y, e.byte y = (if pair = true then d.exchangeHalves p t else d).byte y) ∧
    d.Around e [p] [islandOf p] [] ∧ e.flags = d.flags ∧ e.wide = d.wide ∧ e.contract = d.contract

end Sys2Proof.Certificates

/-- mm.drain to each of its four destinations (R67, R170). -/
def Sys2Proof.Certificates.DrainStarts : Prop :=
  ∀ (a : At) (f : DrainF) (ad : Addr) (s : State),
    let d := s.dev.atIssue a
    let p := a.panel
    let k := s.dev.issueCycle a
    let t := d.tile p f.tile
    let entry := d.addrEntry p f.target
    let n := f.rows * t.per
    t.valid = true → drainTypeFault t.mode f.typ f.index = none → f.first + f.rows ≤ t.logical →
    (f.dest = 0 ∧ f.target ≤ 31 ∧ ad = ⟨false, 0, 0⟩ ∨ f.dest = 2 ∧ f.target = 0 ∧ ad = ⟨false, 0, 0⟩ ∨
      (f.dest = 1 ∧ entry.scratch = true ∨ f.dest = 3 ∧ entry.scratch = false) ∧
        d.operandAddr p f.target f.rows (drainRowBytes f.typ f.cols f.index) 0 = some ad) →
    (∀ q ∈ Certificates.drainPorts t k n f.rows f.zap (f.dest == 3) (f.dest == 1), (d.panel p).portBusy q.1 q.2.1 q.2.2 = false) →
    Issues (.mmDrain a f .none) a s fun d e => Certificates.DrainStarted p k n t
      { issue := k, tile := f.tile, mode := t.mode, sense := t.sense, first := f.first, rows := f.rows, cols := f.cols,
        typ := f.typ, zap := f.zap, index := f.index,
        dest := if f.dest = 0 then .vector f.target else if f.dest = 2 then .rowEngine
          else .memory ad.scratch (ad.row p 0) ad.pitch
        todo := (upTo n).map (· + (d.tileBase p t + f.first * t.per)), done := 0,
        stepTag := d.stepTag (d.panel p).vslot } d e

/-- mm.drain with WB (R133, R171): every row's address lies in a wide-buffer tile,
and the rows carry the contributor ID, with the loop counter added where CADD is set. -/
def Sys2Proof.Certificates.DrainWideStarts : Prop :=
  ∀ (a : At) (f : DrainWbF) (ad : Addr) (s : State),
    let d := s.dev.atIssue a
    let p := a.panel
    let k := s.dev.issueCycle a
    let t := d.tile p f.tile
    let entry := d.addrEntry p f.aix
    let n := f.rows * t.per
    t.valid = true → t.mode ≠ 1 → t.mode ≠ 2 → f.first + f.rows ≤ t.logical → entry.pitch = 256 → entry.scratch = false →
    d.operandAddr p f.aix f.rows 256 256 = some ad → (∀ r ∈ upTo f.rows, (d.wbFind (ad.row p r)).isSome = true) →
    (∀ q ∈ Certificates.drainPorts t k n f.rows f.zap true false, (d.panel p).portBusy q.1 q.2.1 q.2.2 = false) →
    Issues (.mmDrainWb a f .none) a s fun d e => Certificates.DrainStarted p k n t
      { issue := k, tile := f.tile, mode := t.mode, sense := t.sense, first := f.first, rows := f.rows, cols := f.cols,
        typ := 0, zap := f.zap, index := false,
        dest := .wide (ad.row p 0) (if f.cadd = true then (f.contrib + sget 0 (d.panel p).its f.clevel) % 65536 else f.contrib)
        todo := (upTo n).map (· + (d.tileBase p t + f.first * t.per)), done := 0,
        stepTag := d.stepTag (d.panel p).vslot } d e

/-! ### Moves, turns and broadcasts -/

/-- x.move, x.turn and x.bcast with legal operands and free ports (R57, R127, R177–R179). A move or turn from the Felt
has its first bytes at issue + 14; a move from scratch reads its first row at once, to be written as its rule says. -/
def Obligations.MovesStart : Prop :=
  ∀ (a : At) (x y : Addr) (s : State),
    let d := s.dev.atIssue a
    let p := a.panel
    let k := s.dev.issueCycle a
    (∀ f : MoveF, d.operandAddr p f.saix f.rows f.bytes 0 = some x → d.operandAddr p f.daix f.rows f.bytes 0 = some y →
      x.scratch = false → y.scratch = true → d.contract.inPause = false →
      Issues (.xMove ⟨a, .none⟩ f) a s fun d e =>
        d.PanelBecomes e p { d.panel p with moves := (d.panel p).moves ++
          [{ issue := k, turn := false, srcScratch := false, dstScratch := true, rowBytes := f.bytes, rows := f.rows,
             src := x.row p 0, srcPitch := x.pitch, dst := y.row p 0, dstPitch := y.pitch, left := f.rows * f.bytes,
             got := [], token := f.token, half := none, elemBytes := 1, late := false }] } [] ∧
        Certificates.PathFrom d e p (k + 6) []) ∧
    (∀ f : MoveF, d.operandAddr p f.saix f.rows f.bytes 0 = some x → d.operandAddr p f.daix f.rows f.bytes 0 = some y →
      x.scratch = true → 0 < f.rows → (∀ m ∈ (d.panel p).moves, m.issue ≠ k) →
      (y.scratch = false → d.contract.inPause = false) →
      (d.panel p).portBusy .scratchRd k (k + f.rows - 1) = false →
      (if y.scratch = true then (d.panel p).portBusy .scratchWr (k + 5) (k + 5 + f.rows - 1)
        else (d.panel p).portBusy .vertOut (k + 15) (k + 15 + f.rows - 1)) = false →
      Issues (.xMove ⟨a, .none⟩ f) a s fun d e =>
        let bytes := d.read (x.row p 0) f.bytes
        (∃ t ∈ (e.island (islandOf p)).agenda,
          t.cycle = (if y.row p 0 < feltSize then k + 15 + 5 else k + if y.scratch = true then 6 else 15) ∧
          t.work = .bits (y.row p 0) bytes.length (leNat bytes) (allOnes bytes.length)) ∧
        d.Frame e [p] [islandOf p] [] ∧ (e.panel p).vr = (d.panel p).vr ∧ e.flags = d.flags ∧ e.tack = d.tack ∧
        e.wide = d.wide ∧ e.contract = d.contract) ∧
    (∀ saix daix typ t token, ElemType.ofCode typ = some t → (t = .fp32 ∨ t.is16 = true) →
      (d.addrEntry p saix).scratch = false → d.operandAddr p saix 96 (64 * (t.bits / 8)) 0 = some x →
      d.operandAddr p daix 64 (96 * (t.bits / 8)) 0 = some y → d.contract.inPause = false →
      Issues (.xTurn ⟨a, .none⟩ saix daix typ token) a s fun d e =>
        let es := t.bits / 8
        d.PanelBecomes e p { d.panel p with moves := (d.panel p).moves ++
          [{ issue := k, turn := true, srcScratch := false, dstScratch := y.scratch, rowBytes := 64 * es, rows := 96,
             src := x.row p 0, srcPitch := x.pitch, dst := y.row p 0, dstPitch := y.pitch, left := 96 * 64 * es,
             got := [], token := token, half := none, elemBytes := es, late := false }] } [] ∧
        Certificates.PathFrom d e p (k + 6) [⟨k + 6, 0, p, k, 2, .turnHalf p k false⟩]) ∧
    (∀ ch aix rows typ t, ElemType.ofCode typ = some t → t.operandOk = true → (d.addrEntry p aix).scratch = false →
      d.operandAddr p aix rows (actBytes t) 0 = some x → d.contract.inPause = false →
      Issues (.xBcast ⟨a, .none⟩ ch aix rows typ) a s fun d e =>
        (⟨p, ch, k, x.row p 0, x.pitch, rows, typ, if t = .fp32 then 2 else 1, [], false⟩ : BcastJob) ∈ (e.island (islandOf p)).bcasts ∧
        d.Agenda e (islandOf p) [⟨k + 6, 0, p, k, 2, .bcastRead p ch k 0 0⟩] ∧
        d.PanelBecomes e p (d.panel p) [] ∧ e.tack = d.tack)

/-! ### Tokens, waits and the sequencer's own operations -/

/-- s.post: an amount to a counter of the panel's own island is there two cycles later; one to another island is on its
way (R181, R203, R217). A stash retire post reaches the stash two cycles later (R147). -/
def Sys2Proof.Certificates.PostsLeave : Prop :=
  ∀ (a : At) (s : State),
    let p := a.panel
    let k := s.dev.issueCycle a
    (∀ ctr n, n ≠ 0 → Issues (.sPostToken a (islandOf p) ctr n) a s fun d e =>
      d.PanelBecomes e p (d.panel p) [] ∧ d.Adds e (islandOf p) ⟨k + 2, 0, p, k, 3, .token ctr n (p + 1)⟩ ∧ e.tack = d.tack) ∧
    (∀ i ctr n, n ≠ 0 → i ≠ islandOf p → Issues (.sPostToken a i ctr n) a s fun d e =>
      e.contract = { d.contract with transit := d.contract.transit ++ [⟨false, i, ctr, n, p + 1⟩] } ∧
        d.Frame e [] [islandOf p] [] ∧ d.SameIsland e (islandOf p) ∧ e.tack = d.tack ∧ e.flags = d.flags ∧ e.wide = d.wide) ∧
    (∀ entry tag, Issues (.sPostStash a entry tag 1) a s fun d e =>
      d.PanelBecomes e p (d.panel p) [] ∧ d.Adds e (islandOf p) ⟨k + 2, 0, p, k, 3, .stash entry tag p⟩ ∧ e.tack = d.tack)

/-- A token that arrives adds its amount to the counter, which stops at 0xFFFF (R180, R203, R204). -/
def Sys2Proof.Certificates.TokensArrive : Prop :=
  ∀ (offTree : Bool) (i cycle : Nat) (t : Transit) (s : State),
    (s.dev.atEvent i cycle).contract.transit.find? (fun t => t.offTree == offTree && t.island == i) = some t →
    Occurs (if offTree = true then .offTreeToken i cycle else .tokenCrossing i cycle) i cycle s fun d e =>
      e.contract.transit = d.contract.transit.erase t ∧
      e.island i = { d.island i with
        tokens := sset 0 (d.island i).tokens t.ctr (min (d.tokens i t.ctr + t.amount) 0xFFFF), cycle := (e.island i).cycle } ∧
      (d.tokens i t.ctr + t.amount ≤ 0xFFFF →
        d.Frame e [] [i] [] ∧ e.tack = d.tack ∧ e.flags = d.flags ∧ e.wide = d.wide) ∧
      (0xFFFF < d.tokens i t.ctr + t.amount → ∃ r, e.tack.newestRec = some r ∧ r.code = 0x0584)

namespace Sys2Proof.Certificates
open Sys2Proof.Machine

/-- A wait of panel p is served after waiting some beats (R182, R215): its tokens are taken, the slack of a wait counted
in beats is kept, the panel becomes x, and nothing else changes. -/
def WaitServed (p ctr n unit maxWait beats : Nat) (x : Panel) (d e : Dev) : Prop :=
  let i := islandOf p
  e.island i = { d.island i with tokens := sset 0 (d.island i).tokens ctr (d.tokens i ctr - n), cycle := (e.island i).cycle } ∧
    e.panel p = x ∧
    e.contract = (if unit = 3 then { d.contract with slack := some (match d.contract.slack with
        | some o => min o ((maxWait : Int) - beats)
        | none => (maxWait : Int) - beats) } else d.contract) ∧
    d.Frame e [p] [i] [] ∧ e.tack = d.tack ∧ e.flags = d.flags ∧ e.wide = d.wide

end Sys2Proof.Certificates

/-- s.wait: a counter that covers N loses N tokens at once; otherwise the panel is held (R182, R183). -/
def Sys2Proof.Certificates.WaitTakesOrHolds : Prop :=
  ∀ (a : At) (f : WaitF) (s : State), f.n ≠ 0 →
    let p := a.panel
    let k := s.dev.issueCycle a
    (f.n ≤ (s.dev.atIssue a).leftFor p f.ctr → Issues (.sWait a f) a s fun d e =>
      Certificates.WaitServed p f.ctr f.n f.unit f.maxWait 0 (d.panel p) d e) ∧
    ((s.dev.atIssue a).leftFor p f.ctr < f.n → Issues (.sWait a f) a s fun d e =>
      d.PanelBecomes e p { d.panel p with held := some ⟨k, f.ctr, f.n, f.unit, f.maxWait, 0, none, false, d.frozenTime⟩ } [] ∧
      d.SameIsland e (islandOf p) ∧ e.tack = d.tack)

/-- A held wait of its own, once covered, takes its tokens and its panel, unless stalled, goes on (R139, R182, R183). -/
def Sys2Proof.Certificates.HeldWaitEnds : Prop :=
  ∀ (a : At) (h : Held) (slots : SlotUpsets) (s : State),
    let p := a.panel
    let i := islandOf p
    let d := s.dev.atEvent i a.cycle
    d.canIssue p = true → d.stalled p = false → (d.panel p).held = some h → (d.panel p).haltAtBoundary = false → h.bundle = none →
    h.n ≤ d.leftFor p h.ctr →
    Occurs (.sWaitSatisfied ⟨a, slots⟩) i a.cycle s fun d e =>
      Certificates.WaitServed p h.ctr h.n h.unit h.maxWait h.beats { d.panel p with held := none } d e

/-- A wait that passes its maximum outside late mode is marked, once, and 0x0510 is recorded for its panel (R182,
R207). -/
def Sys2Proof.Certificates.WaitTimesOut : Prop :=
  ∀ (a : At) (h : Held) (s : State),
    let p := a.panel
    let i := islandOf p
    let d := s.dev.atEvent i a.cycle
    (d.panel p).held = some h → h.late = false → d.lateMode = false → d.leftFor p h.ctr < h.n →
    (if h.unit = 3 then h.maxWait < h.beats
      else h.due + h.maxWait * (if h.unit = 0 then 1 else if h.unit = 1 then 64 else 4096) < s.dev.eventCycle i a.cycle) →
    Occurs (.tokenWaitTimeout a) i a.cycle s fun d e =>
      (e.panel p).held = some { h with late := true } ∧ (∃ r, e.tack.newestRec = some r ∧ r.code = 0x0510 ∧ r.unit = p) ∧
      d.Frame e [p] [i] [Ent.contractFaultCount, Ent.faultClassCounts, Ent.lateStatus] ∧ d.SameIsland e i ∧
      e.flags = d.flags ∧ e.wide = d.wide

/-- s.loop, s.fence with nothing incomplete, s.halt and s.tally of an open group (R184, R187–R189). -/
def Sys2Proof.Certificates.SequencerOps : Prop :=
  ∀ (a : At) (s : State),
    let p := a.panel
    let i := islandOf p
    let k := s.dev.issueCycle a
    (∀ level start count, Issues (.sLoop a level start count) a s fun d e =>
      let x := d.panel p
      let n := sget 0 x.its level
      d.PanelBecomes e p (if n < count then { x with its := sset 0 x.its level (n + 1), pc := start }
        else { x with its := sset 0 x.its level 0, pc := (x.lastPc + 1) % 8192 }) [] ∧ d.SameIsland e i ∧ e.tack = d.tack) ∧
    (∀ classes, (∀ c ∈ upTo 4, bitOf classes c = true → (s.dev.atIssue a).incomplete p k c = false) →
      Issues (.sFence a classes) a s fun d e =>
        d.PanelBecomes e p (d.panel p) [] ∧ d.SameIsland e i ∧ e.tack = d.tack) ∧
    (∀ code, code < 65536 → Issues (.sHalt a code) a s fun d e =>
      d.PanelBecomes e p { d.panel p with halted := true, haltedByFault := false, started := false } [Ent.panelHaltCode] ∧
      e.getB Ent.panelHaltCode (2 * p) 2 = code ∧ (∀ q, q < 128 → q ≠ p →
        e.getB Ent.panelHaltCode (2 * q) 2 = d.getB Ent.panelHaltCode (2 * q) 2) ∧ d.SameIsland e i) ∧
    (∀ n g aix row addr, tallyGroup n = some g → bitOf ((s.dev.atIssue a).get Ent.tallyOpen) g = true →
      ((s.dev.atIssue a).addrEntry p aix).scratch = true →
      (s.dev.atIssue a).rowOperand p aix row 8 8 = some (true, addr) →
      ((s.dev.atIssue a).panel p).portBusy .scratchWr (k + 3) (k + 3) = false →
      Issues (.sTally a n aix row) a s fun d e =>
        let v := if n / 64 = i then d.counter n else sget 0 d.tally.shadows (i * 4096 + n)
        d.Adds e i ⟨k + 4, 0, p, k, 3, .bits addr 8 v (allOnes 8)⟩ ∧ d.Frame e [p] [i] [] ∧
        (e.panel p).vr = (d.panel p).vr ∧ e.tack = d.tack ∧ e.flags = d.flags ∧ e.wide = d.wide ∧ e.contract = d.contract)

/-- s.beat arms a free alarm for a beat still to come, and an armed alarm whose beat has been observed posts its token
two cycles later (R186). -/
def Sys2Proof.Certificates.AlarmsArmAndFire : Prop :=
  ∀ (a : At) (basis : Bool) (ctr beat : Nat) (s : State),
    let p := a.panel
    let i := islandOf p
    (let d := s.dev.atIssue a
     let target : Int := if basis = true then (d.pat.startBeat : Int) + beat else d.startBeat d.step + beat
     ((d.get Ent.logicalBeat : Nat) : Int) < target →
      ((d.panel p).alarm0 = none → Issues (.sBeat a basis 0 ctr beat) a s fun d e =>
        d.PanelBecomes e p { d.panel p with alarm0 := some ⟨ctr, target.toNat⟩ } [] ∧ d.SameIsland e i ∧ e.tack = d.tack) ∧
      ((d.panel p).alarm1 = none → Issues (.sBeat a basis 1 ctr beat) a s fun d e =>
        d.PanelBecomes e p { d.panel p with alarm1 := some ⟨ctr, target.toNat⟩ } [] ∧ d.SameIsland e i ∧ e.tack = d.tack)) ∧
    (let d := s.dev.atEvent i a.cycle
     let k := s.dev.eventCycle i a.cycle
     (∀ l, (d.panel p).alarm0 = some l → l.beat ≤ d.get Ent.logicalBeat →
       Occurs (.beatAlarmFire a 0) i a.cycle s fun d e =>
        d.PanelBecomes e p { d.panel p with alarm0 := none } [] ∧
        d.Adds e i ⟨k + 2, 0, p, k, 9, .token l.ctr 1 (p + 1)⟩ ∧ e.tack = d.tack) ∧
     (∀ l, (d.panel p).alarm1 = some l → l.beat ≤ d.get Ent.logicalBeat →
       Occurs (.beatAlarmFire a 1) i a.cycle s fun d e =>
        d.PanelBecomes e p { d.panel p with alarm1 := none } [] ∧
        d.Adds e i ⟨k + 2, 0, p, k, 9, .token l.ctr 1 (p + 1)⟩ ∧ e.tack = d.tack))

/-- A bundle issues ISSUE_DELAY cycles after the last one (R155, R184): with no slot used, the panel's program goes on to
the next bundle, or repeats this one; with s.loop in its S slot and no repeat left, it goes where the loop says. -/
def Sys2Proof.Certificates.BundleIssues : Prop :=
  ∀ (p w : Nat) (b : Bundle) (s : State),
    let x := s.dev.panel p
    let i := islandOf p
    let due := max (x.lastIssue + b.delay) (x.stallFrom.getD 0)
    let left := match x.rem with | some r => r | none => b.repeats
    let d := (s.dev.advance i due).modPanel p fun y => { y.prune due with bundle := w }
    let after := { d.panel p with
      lastIssue := due, lastPc := x.pc, stallFrom := none, rem := if left = 0 then none else some (left - 1),
      pc := if left = 0 then (x.pc + 1) % 8192 else x.pc }
    s.dev.Ready ⟨p, 0⟩ → x.started = true → x.haltAtBoundary = false → s.dev.fetchBundle p = .ok (w, b) →
    s.dev.NoneDue i due → b.m = none → b.v = none → b.x = none →
    (b.s = none → ∃ e, exec (.bundleIssue p ⟨.none, .none, .none, .none⟩) s = .next (s.after e) ∧
      d.PanelBecomes e p after [] ∧ d.SameIsland e i ∧ e.tack = d.tack) ∧
    (∀ level start count, b.s = some (.loop level start count) → left = 0 →
      ∃ e, exec (.bundleIssue p ⟨.none, .none, .none, .none⟩) s = .next (s.after e) ∧
        d.PanelBecomes e p (if sget 0 x.its level < count
          then { after with its := sset 0 x.its level (sget 0 x.its level + 1), pc := start }
          else { after with its := sset 0 x.its level 0 }) [] ∧ d.SameIsland e i ∧ e.tack = d.tack)

/-- A panel outside the Pattern's mask, not started, halted, frozen, fenced, stalled or held by s.wait issues nothing:
an operation sent to it leaves the device as it is (R49, R83, R139, R182, R189). -/
def Sys2Proof.Certificates.BlockedPanelIssuesNothing : Prop :=
  ∀ (a : At) (s : State), s.dev.boot.vstby = true →
    (s.dev.canIssue a.panel = false ∨ s.dev.stalled a.panel = true ∨ (s.dev.panel a.panel).held.isSome = true) →
    ∀ (c : Instr) (dst lat : Nat) (res : Panel → Fl (List F32)),
      (Certificates.vectorRow c = some (a, dst, lat, res) ∨ (∃ e v, c = .mmTile a e v) ∨ (∃ e, c = .mmZero a e) ∨
        c = .mmSwap a ∨ (∃ f u, c = .mmDrain a f u) ∨ (∃ f u, c = .mmDrainWb a f u) ∨ (∃ f u, c = .xMove ⟨a, u⟩ f) ∨
        (∃ q y z, c = .reGo a q y z) ∨ (∃ i n m, c = .sPostToken a i n m) ∨ (∃ f, c = .sWait a f) ∨
        (∃ l y n, c = .sLoop a l y n) ∨ ∃ code, c = .sHalt a code) →
      exec c s = .next (s.after s.dev)

/-! ### The row engine -/

/-- The oldest queued request starts once the engine is free (R91, R92): its record is fetched, it leaves the queue, and
where it reads the Felt the lines of its first delivery cycle, S + 14, are read eight cycles before. -/
def Sys2Proof.Certificates.RowRequestStarts : Prop :=
  ∀ (i cycle st : Nat) (r : ReReq) (rest : List ReReq) (s : State),
    let d := s.dev.atEvent i cycle
    let x : ReRun := { req := r, start := st, record := d.reRecord i r.index, next := 0, lastEnd := st,
                       arrivals := [], fetched := [], got := [], visible := 0, dg := [], db := [] }
    (d.island i).queue = r :: rest → (d.island i).running = none → (d.island i).reFrozen = false →
    st = (if (d.island i).reLastEnd = 0 then r.accepted else max r.accepted ((d.island i).reLastEnd + 1)) →
    st ≤ s.dev.eventCycle i cycle → s.dev.eventCycle i cycle < st + 6 →
    Occurs (.reRequestStart i cycle) i cycle s fun d e =>
      (e.island i).running = some x ∧ (e.island i).queue = rest ∧ (e.island i).tokens = (d.island i).tokens ∧
      d.Agenda e i (if x.fields.wb = 0 then []
        else [⟨st + 14 - 8, 0, 8 * i, st, 9, .reRead 0 0⟩]) ∧
      d.Frame e [] [i] [] ∧ e.tack = d.tack ∧ e.flags = d.flags ∧ e.wide = d.wide ∧ e.contract = d.contract

namespace Sys2Proof.Certificates
open Sys2Proof.Machine

/-- The row-engine operations that take one row at a time, by their OP field (R94). -/
def rowCommand (i cycle : Nat) : Nat → Option Instr
  | 0x01 => some (.reLnFwd i cycle .none)
  | 0x02 => some (.reLnBwd i cycle .none)
  | 0x03 => some (.reRmsFwd i cycle .none)
  | 0x04 => some (.reRmsBwd i cycle .none)
  | 0x05 => some (.reSmaxFwd i cycle .none)
  | 0x06 => some (.reSmaxBlk i cycle .none)
  | 0x08 => some (.reSmaxBwd i cycle .none)
  | 0x09 => some (.reRowdot i cycle .none)
  | 0x0A => some (.reXentStat i cycle .none)
  | 0x0B => some (.reXentGrad i cycle .none)
  | 0x0C => some (.reWmax i cycle .none)
  | 0x0D => some (.reTopk i cycle .none)
  | _ => none

/-- An output of the engine is on its way to an address: in scratch 6 cycles after the row's end, in the Felt 14 (a Felt
write stands five cycles after the read that would see it, R92, R197). -/
def OutputDue (e : Dev) (i a : Nat) (bytes : List Byte) (ends : Nat) : Prop :=
  bytes ≠ [] → ∃ t ∈ (e.island i).agenda, t.cycle = (if a < feltSize then ends + 14 + 5 else ends + 6) ∧
    t.work = .bits a bytes.length (leNat bytes) (allOnes bytes.length)

end Sys2Proof.Certificates

/-- A row of every row-engine operation but re.smax.fin (R92, R93, R98, R101–R104, R106–R113): with its inputs there and
its record's place in the island's table, the row's values are those of the rules, its outputs and its record become
visible at their times, its events go to the engine's flag set, and the engine ends the row at its cycle; the request
ends in the cycle after its last row's. -/
def Obligations.RowEngineRows : Prop :=
  ∀ (i cycle op : Nat) (c : Instr) (x : ReRun) (at_ : Nat) (spot : Option Nat) (s : State),
    let d := s.dev.atEvent i cycle
    let k := s.dev.eventCycle i cycle
    let q := x.fields
    let r := x.next
    let ends := x.endAt at_ false
    let inputs := ((x.fetched.find? fun f => f.1 == r).map Prod.snd).getD ([], [], [])
    let rec_ := match reKind q.op, spot with
      | some kind, some a => if q.readsStat = true then d.read a (statSize kind) else initialRecord.take (statSize kind)
      | _, _ => []
    let const := sget f32Zero (d.island i).consts q.const
    let g := f32Mul (d.lossScale x.req) const
    let res := reRow q const g.1 r (x.rowA r inputs.1) inputs.2.1 inputs.2.2 rec_
    let packed := packRow q.outType res.1.outA
    let dg := if res.1.dg.isEmpty = true then Fl.pure x.dg else addSums x.dg res.1.dg
    let db := if res.1.db.isEmpty = true then Fl.pure x.db else addSums x.db res.1.db
    let events := ((res.2.or packed.2).or (dg.2.or db.2)).or (if q.op = 11 then g.2 else Flags.none)
    let seen := max (if packed.1.isEmpty = true then ends else reVisible q.da ends)
      (if res.1.outB.isSome = true then reVisible q.db ends else ends)
    Certificates.rowCommand i cycle op = some c → (d.island i).running = some x → q.op = op → r < q.rows →
    d.stalled (128 + i) = false → (d.island i).reFrozen = false → x.inputAt r = some at_ → at_ ≤ k → k < ends →
    d.contract.inPause = false →
    (match reKind q.op with
      | none => spot = none
      | some kind => ∃ a, spot = some a ∧
          d.statPlace i q.inst kind x.req.slot ((q.row + x.req.rowOff + r) % 65536) = some (false, a)) →
    Occurs c i cycle s fun d e =>
      Certificates.OutputDue e i (q.da + r * packed.1.length) packed.1 ends ∧
      (∀ bs, res.1.outB = some bs → Certificates.OutputDue e i (q.db + r * bs.length) bs ends) ∧
      (∀ bs a, res.1.record = some bs → spot = some a → ∃ t ∈ (e.island i).agenda,
        t.cycle = ends ∧ t.work = .bits a bs.length (leNat bs) (allOnes bs.length)) ∧
      (e.island i).running = some { x with
        next := r + 1, fetched := x.fetched.filter (fun f => f.1 != r), lastEnd := ends, dg := dg.1, db := db.1,
        visible := max x.visible seen } ∧
      (r + 1 = q.rows → ⟨ends + 1, 0, 8 * i, ends, 9, .reDone ends⟩ ∈ (e.island i).agenda) ∧ e.wide = d.wide ∧
      e.flags = (d.raise (FlagUnit.rowEngine i) x.req.stepTag events).flags ∧ (∀ a, e.byte a = d.byte a)

/-- re.smax.fin takes up to 64 rows at once (R92, R107): the reciprocal of each row's running sum, correctly rounded, is
written for it, with every record's place in the island's table and none in the spill area. -/
def Sys2Proof.Certificates.RowEngineFinish : Prop :=
  ∀ (i cycle : Nat) (x : ReRun) (place : Nat → Nat) (s : State),
    let d := s.dev.atEvent i cycle
    let k := s.dev.eventCycle i cycle
    let q := x.fields
    let n := min 64 (q.rows - x.next)
    let ends := x.endAt 0 false
    (d.island i).running = some x → q.op = 7 → x.next < q.rows → d.stalled (128 + i) = false → (d.island i).reFrozen = false → k < ends →
    d.contract.inPause = false →
    (∀ r, x.next ≤ r → r < x.next + n →
      d.statPlace i q.inst 2 x.req.slot ((q.row + x.req.rowOff + r) % 65536) = some (false, place r)) →
    Occurs (.reSmaxFin i cycle .none) i cycle s fun d e =>
      (∀ r, x.next ≤ r → r < x.next + n → Certificates.OutputDue e i (q.da + 4 * r)
        (leBytes 4 (fnF32 .recip (BitVec.ofNat 32 (d.readNat (place r + 4) 4))).1.toNat) ends) ∧
      (e.island i).running = some { x with
        next := x.next + n, lastEnd := ends, visible := max x.visible (reVisible q.da ends) } ∧
      (x.next + n = q.rows → ⟨ends + 1, 0, 8 * i, ends, 9, .reDone ends⟩ ∈ (e.island i).agenda) ∧
      (∀ a, e.byte a = d.byte a)

/-- In the cycle after its last row ended a request leaves the engine (R91, R92, R104): the gain and bias sums of a
backward request go to the wide buffer, one row a cycle, and the completion token is posted where everything that the
request wrote is visible, three cycles before it is. -/
def Sys2Proof.Certificates.RowRequestEnds : Prop :=
  ∀ (i ends : Nat) (x : ReRun) (t : Item) (d : Dev), i < 16 → t.work = .reDone ends → (d.island i).running = some x →
    let q := x.fields
    let rows := if q.op = 4 then gainRows i q x.req.stepTag ends 0 x.dg
      else if q.op = 2 then gainRows i q x.req.stepTag ends 0 x.dg ++ gainRows i q x.req.stepTag ends q.w x.db else []
    let seen := if rows = [] then max ends x.visible else max x.visible (ends + 18 + rows.length - 1)
    let e := d.runItem i t
    (e.island i).running = none ∧ (e.island i).reLastEnd = ends ∧ (e.island i).queue = (d.island i).queue ∧
      e.wide = { d.wide with inFlight := d.wide.inFlight ++ rows } ∧
      d.Agenda e i (match q.token with | some n => [⟨seen + 3, 0, 8 * i, ends, 9, .token n 1 0⟩] | none => []) ∧
      d.Frame e [] [i] [] ∧ e.flags = d.flags ∧ e.tack = d.tack

/-! ### The wide buffer and the stash -/

namespace Sys2Proof.Certificates
open Sys2Proof.Machine

/-- A contribution row is applied to its tile (R134, R137): its first COLS words get one addition more, the rest stays
(or is +0.0 on the first), the row has passed one more list entry, and the events go to the region's flag set. -/
def RowApplied (c : Contrib) (region step : Nat) (d e : Dev) : Prop :=
  let a := c.addr / 256 * 256
  let res := addContribution (d.progress c.addr) c.cols (rowWords (d.read a 256)) c.vals
  e.read a 256 = wordBytes res.1 ∧ e.progress c.addr = d.progress c.addr + 1 ∧
    (∀ y, (y < a ∨ a + 256 ≤ y) → (y < wideTableBase 0 ∨ stashBase ≤ y) → e.byte y = d.byte y) ∧
    e.flags = (d.raise (FlagUnit.region region) step res.2).flags

/-- The tile of a row is OPEN for the row's step and expects it next (R137). -/
def Expected (d : Dev) (c : Contrib) (region k before : Nat) : Prop :=
  c.addr < feltSize ∧ d.wbFind c.addr = some (region, k) ∧ (d.wbEnt region k).state = 1 ∧
    (d.wbEnt region k).step = c.tag ∧ d.rowKind (d.wbEnt region k) c before = .expected

end Sys2Proof.Certificates

/-- A contribution row that reaches an OPEN tile (R136, R137, R138, R140): the expected row goes to the adders of its bank
group, which it reaches four cycles later, an early row takes its place by arrival in the group's window, and a foreign row
is discarded with 0x0573 and the contribution withheld. -/
def Sys2Proof.Certificates.ContributionRows : Prop :=
  ∀ (sender cycle : Nat) (c : Contrib) (region k : Nat) (s : State),
    let i := if sender < 128 then islandOf sender else sender - 128
    let d := s.dev.atEvent i cycle
    let now := s.dev.eventCycle i cycle
    d.wide.inFlight.find? (fun c => c.sender == sender) = some c → c.arrival ≤ now → d.stalled sender = false →
    c.addr < feltSize → d.wbFind c.addr = some (region, k) → (d.wbEnt region k).state = 1 → (d.wbEnt region k).step = c.tag →
    (Certificates.Expected d c region k d.wide.arrivals →
      Occurs (.wbContributionRow sender cycle) i cycle s fun d e =>
        e.wide.adders = d.wide.adders ++ [⟨c, d.wide.arrivals, now⟩] ∧ e.wide.inFlight = d.wide.inFlight.erase c ∧
        e.wide.windows = d.wide.windows ∧ d.Adds e i ⟨now + 4, 0, 8 * i, now, 9, .wbRow d.wide.arrivals⟩ ∧
        d.Frame e [] [i] [] ∧ e.flags = d.flags ∧ e.tack = d.tack) ∧
    (d.rowKind (d.wbEnt region k) c d.wide.arrivals = .early → (d.window (rowGroup c.addr)).length < 8 →
      Occurs (.wbContributionRow sender cycle) i cycle s fun d e =>
        e.window (rowGroup c.addr) = insertRow (d.window (rowGroup c.addr)) ⟨c, d.wide.arrivals⟩ ∧
        e.wide.inFlight = d.wide.inFlight.erase c ∧ d.Frame e [] [i] [] ∧ e.flags = d.flags ∧ e.tack = d.tack) ∧
    (d.rowKind (d.wbEnt region k) c d.wide.arrivals = .foreign →
      Occurs (.wbContributionRow sender cycle) i cycle s fun d e =>
        (∃ r, e.tack.newestRec = some r ∧ r.code = 0x0573) ∧ e.withheld = true ∧
        e.wide.inFlight = d.wide.inFlight.erase c ∧ e.wide.windows = d.wide.windows ∧
        d.Frame e [] [i] [Ent.faultClassCounts, Ent.lateStatus] ∧ e.flags = d.flags)

/-- A row that comes to the adders of its bank group (R134, R136, R138): it is applied where the adders are free, and
otherwise waits in the group's window, at its place in the order of arrival. -/
def Sys2Proof.Certificates.AdderRowApplies : Prop :=
  ∀ (i region k : Nat) (w : AdderRow) (t : Item) (d : Dev), i < 16 → t.work = .wbRow w.order →
    d.wide.adders.find? (fun x => x.order == w.order) = some w → w.row.addr < feltSize →
    d.wbFind w.row.addr = some (region, k) →
    let e := d.runItem i t
    e.wide.adders = d.wide.adders.erase w ∧
    (d.adderTaken w t.cycle = false → Certificates.RowApplied w.row region (d.wbEnt region k).step d e ∧
      e.wide.windows = d.wide.windows) ∧
    (d.adderTaken w t.cycle = true → (d.window (rowGroup w.row.addr)).length < 8 →
      e.window (rowGroup w.row.addr) = insertRow (d.window (rowGroup w.row.addr)) ⟨w.row, w.order⟩ ∧
        d.Frame e [] [] [] ∧ e.flags = d.flags ∧ e.tack = d.tack)

/-- The oldest eligible row of a window is applied once the adder is free (R138), with no sender stalled at the
window. -/
def Sys2Proof.Certificates.EarlyRowApplies : Prop :=
  ∀ (g cycle : Nat) (w : WindowRow) (region k : Nat) (s : State),
    let i := g / 32
    let d := s.dev.atEvent i cycle
    sget 0 d.wide.adder g ≠ s.dev.eventCycle i cycle + 1 → (d.window g).find? (fun w => d.eligible w) = some w →
    d.wide.stalls.find? (fun s => s.group == g) = none → rowGroup w.row.addr = g →
    Certificates.Expected (d.setWindow g ((d.window g).erase w)) w.row region k w.order →
    Occurs (.wbEarlyRowApply g cycle) i cycle s fun d e =>
      Certificates.RowApplied w.row region (d.wbEnt region k).step d e ∧ e.window g = (d.window g).erase w

/-- A sender whose stall passes its tile's bound is marked, once, and 0x0572 is recorded (R139). -/
def Sys2Proof.Certificates.StallLimitRecords : Prop :=
  ∀ (sender cycle : Nat) (x : SenderStall) (region k : Nat) (s : State),
    let i := if sender < 128 then islandOf sender else sender - 128
    let d := s.dev.atEvent i cycle
    d.wide.stalls.find? (fun t => t.row.sender == sender) = some x → x.faulted = false →
    d.wbFind x.row.addr = some (region, k) → x.since + (d.wbEnt region k).stallMax < s.dev.eventCycle i cycle →
    Occurs (.wbSenderStallLimit sender cycle) i cycle s fun d e =>
      e.wide = { d.wide with stalls := d.wide.stalls.map fun t => if t == x then { t with faulted := true } else t } ∧
      (∃ r, e.tack.newestRec = some r ∧ r.code = 0x0572) ∧ (∀ a, e.byte a = d.byte a) ∧ e.flags = d.flags ∧
      d.SameIsland e i

/-- A held stash claim is granted once the entry's REMAIN is 0: the entry holds the claim's word, the claim is gone, and
no other byte of memory changes (R145, R146). -/
def Sys2Proof.Certificates.StashClaimGranted : Prop :=
  ∀ (entry : Nat) (c : StashClaim) (s : State), s.dev.power.stackUp = true → entry < 4 →
    s.dev.wide.claims.find? (fun c => c.entry == entry) = some c → stashRemain (s.dev.stashWord entry) = 0 →
    Completes (.stashClaimGrant entry) s fun d e =>
      e.stashWord entry = c.word % 2 ^ 64 ∧ e.wide.claims = d.wide.claims.erase c ∧
      (∀ a, a < stashAddr entry ∨ stashAddr entry + 8 ≤ a → e.byte a = d.byte a) ∧
      (∀ k, e.get k = d.get k) ∧ (∀ q, e.panel q = d.panel q) ∧ (∀ j, e.island j = d.island j) ∧ e.flags = d.flags

/-! ### Beats, steps and runs -/

/-- A raw boundary with no hold, Weave time acquired and no STOW waiting: Weave time comes to the boundary, the device
observes the next logical beat, the lateness of the step is at least what its longest wait counted in beats is late, and no
byte of memory and no island changes (R208, R221, R465). -/
def Sys2Proof.Certificates.BoundaryCountsABeat : Prop :=
  ∀ s : State,
    let d := s.dev
    d.power.holds = [] → d.power.skip = 0 → d.power.stowing = false → d.devState ≠ St.held → d.time.acquired = true →
    d.time.alignHold = false → d.contract.inPause = false → 0 < d.get Ent.beatPeriodNs →
    d.get Ent.logicalBeat + 1 < 2 ^ 64 →
    Completes .rawBoundary s fun d e =>
      e.get Ent.logicalBeat = d.get Ent.logicalBeat + 1 ∧ e.time.clock = (d.rawIndex + 1) * d.beatUnits ∧
      (∀ a, e.byte a = d.byte a) ∧ (∀ i, e.island i = d.island i) ∧ e.get Ent.stepCounter = d.get Ent.stepCounter ∧
      e.flags = d.flags ∧
      (d.power.stackUp = true →
        e.contract = { d.contract with lateness := max d.contract.lateness e.waitLateness }) ∧
      (d.power.stackUp = false → e.contract = d.contract)

/-- While a hold freezes counting and none has its end, a raw boundary falls and no beat is observed (R464, R465). -/
def Sys2Proof.Certificates.HoldFreezesBeats : Prop :=
  ∀ s : State,
    let d := s.dev
    d.frozen = true → (∀ h ∈ d.power.holds, h.resume = none) → d.power.stowing = false →
    0 < d.get Ent.beatPeriodNs →
    Completes .rawBoundary s fun d e =>
      e.get Ent.logicalBeat = d.get Ent.logicalBeat ∧ e.time.clock = (d.rawIndex + 1) * d.beatUnits ∧ e.frozen = true ∧
      e.power.holds = d.power.holds ∧ (∀ a, e.byte a = d.byte a) ∧ (∀ i, e.island i = d.island i) ∧
      (∀ q, e.panel q = d.panel q)

/-- The start beat of the next step observed in RUNNING, HELD or BRACED (R210, R215, R637): the step counter takes the
step's number, the fault step advances, the slack and the withholding of the step before are over, and SLACK_MIN shows
the slack that was kept. -/
def Sys2Proof.Certificates.StepBegins : Prop :=
  ∀ (k : Nat) (s : State),
    let d := s.dev
    k = d.contract.nextStep → d.pat.loaded = true → d.frozen = false → k < 2 ^ 32 → k ≤ d.pat.lastStep →
    d.startBeatOf k ≤ d.get Ent.logicalBeat → d.inState [St.running, St.held, St.braced] = true → d.hasColl = false →
    d.contract.recoveryPending = false → d.reloadState = 0 → d.stack.copied = [] →
    Completes .stepStart s fun d e =>
      e.get Ent.stepCounter = k ∧ e.contract.nextStep = k + 1 ∧ e.contract.slack = none ∧ e.withheld = false ∧
      (∀ v, d.contract.slack = some v → e.get Ent.slackMin = ofInt 32 v) ∧
      (d.contract.slack = none → e.get Ent.slackMin = 0x7FFFFFFF) ∧
      e.devState = d.devState ∧ (∀ a, e.byte a = d.byte a) ∧ e.flags = d.flags ∧ e.wide = d.wide ∧
      (∀ i, (e.island i).tokens = (d.island i).tokens ∧ (e.island i).agenda = (d.island i).agenda)

/-- The start beat of the start step observed in LOADED with every required port ready and no hold (R228): the device
enters RUNNING, the step counter takes the step, and every panel of the Pattern starts at its start bundle with its
loop counters and VSLOT at 0. -/
def Sys2Proof.Certificates.RunStarts : Prop :=
  ∀ (k : Nat) (s : State),
    let d := s.dev
    k = d.runStep → d.pat.loaded = true → d.contract.nextStep = k → d.frozen = false → k < 2 ^ 32 →
    d.startBeatOf k ≤ d.get Ent.logicalBeat → d.power.stackUp = true → d.devState = St.loaded →
    d.resil.witnessFrom = none → d.portsReady = true → d.power.holds = [] → d.hasColl = false →
    d.get Ent.resilienceMode ≠ 2 → d.stack.copied = [] →
    Completes .runStart s fun d e =>
      e.devState = St.running ∧ e.get Ent.stepCounter = k ∧ e.contract.nextStep = k + 1 ∧
      (∀ p, p < 128 → d.inMask p = true → (e.panel p).started = true ∧ (e.panel p).halted = false ∧
        (e.panel p).pc = fieldOf (sget 0 d.pat.panelTable p) 12 0 ∧ (e.panel p).its = [] ∧ (e.panel p).vslot = 0 ∧
        (e.panel p).held = none) ∧
      (∀ p, d.inMask p = false → (e.panel p).started = (d.panel p).started)

/-- After the last step, with every panel of the mask at its step entry, every queue empty and no Burnisher at work, the
device returns to LOADED (R229); where the start beat of the start step is past by then, it records 0x0508 and stays there
(R228). -/
def Sys2Proof.Certificates.RunEnds : Prop :=
  ∀ s : State,
    let d := s.dev
    d.devState = St.running → (d.contract.ended = true ∨ d.startBeatOf (d.pat.lastStep + 1) ≤ d.get Ent.logicalBeat) →
    (∀ p ∈ d.maskPanels, d.atStepEntry p = true) → d.queuesEmpty = true → d.burnersIdle = true →
    Completes .runEnd s fun d e =>
      e.devState = St.loaded ∧ e.flags = d.flags ∧ e.wide = d.wide ∧
      (d.pat.loaded = false ∨ ((d.get Ent.logicalBeat : Nat) : Int) < d.startBeat d.runStep →
        d.Frame e [] [] [Ent.stateHistory, Ent.deviceState] ∧ e.contract = d.contract) ∧
      (d.pat.loaded = true → d.startBeat d.runStep ≤ ((d.get Ent.logicalBeat : Nat) : Int) →
        (∃ r, e.tack.newestRec = some r ∧ r.code = 0x0508) ∧
        d.Frame e [] [] [Ent.stateHistory, Ent.deviceState, Ent.faultClassCounts, Ent.stepCounter, Ent.faultStep])

/-- Lateness beyond LATE_LIMIT_BEATS in a run (R221): 0x0512 is recorded, the device enters FAULTED and its ports
idle. -/
def Sys2Proof.Certificates.LateLimitFaults : Prop :=
  ∀ s : State, s.dev.inRun = true → s.dev.pat.lateLimit < s.dev.contract.lateness →
    Completes .lateLimitExceeded s fun d e =>
      e.devState = St.faulted ∧ (∃ r, e.tack.newestRec = some r ∧ r.code = 0x0512) ∧ e.get Ent.portEnable = 0 ∧
      d.Frame e [] [] [Ent.faultClassCounts, Ent.stateHistory, Ent.deviceState, Ent.portEnable]

/-- The recovery beat of the next step with a contribution withheld (R222), where no table has a copy to refill and no
poison was met: 0x0511 is recorded, late mode ends, LATE_STATUS shows that recovery was performed, and the panels wait
for step 7. Where nothing was withheld and no panel is halted, LATE_STATUS shows that none was performed, and no more
changes. -/
def Sys2Proof.Certificates.RecoveryBeat : Prop :=
  ∀ (found : TuneF) (failing : List (Nat × Nat)) (s : State),
    let d := s.dev
    d.pat.loaded = true → d.inState [St.running, St.held, St.braced] = true → d.clocked = true → d.frozen = false →
    d.startBeatOf (d.step + 1) ≤ d.get Ent.logicalBeat + d.pat.recoveryBeats → d.contract.recovered ≠ d.step + 1 →
    (d.withheld = true → d.pat.copies = [] → d.contract.poisonThisStep = false →
      Completes (.stepRecovery found failing) s fun _ e =>
        e.contract.recoveryPending = true ∧ (∃ r, e.tack.newestRec = some r ∧ r.code = 0x0511) ∧ e.lateMode = false ∧
        bitOf (e.get Ent.lateStatus) 2 = true) ∧
    (d.withheld = false → d.anyHalted = false →
      Completes (.stepRecovery found failing) s fun d e =>
        e = ({ d with contract := { d.contract with recovered := d.step + 1 } } : Dev).put Ent.lateStatus
          (setBit (d.get Ent.lateStatus) 2 false))

/-- The pause beat of the step begins the pause, in which the channel tests run and a crossing of the coupling is
recorded (R214, R448). -/
def Sys2Proof.Certificates.PauseBegins : Prop :=
  ∀ (found : TuneF) (s : State),
    let d := s.dev
    d.pat.loaded = true → d.power.stackUp = true → d.contract.inPause = false →
    d.get Ent.logicalBeat = d.startBeatOf d.step + d.pat.pauseOffset →
    Completes (.beatPause found) s fun d e => e = { d with
      stack := { d.stack with tuning := some found }
      contract := { d.contract with inPause := true, pauseTraffic := false } }

/-- The witness run (R426): at WITNESS_BEAT an armed device in LOADED starts every panel with a replay entry there, in
pair mode; after REPLAY_BEATS the replayed losses are compared with the witness rows, and the panels leave pair
mode. -/
def Sys2Proof.Certificates.WitnessRun : Prop :=
  ∀ s : State,
    let d := s.dev
    (∀ n, d.resil.restored = some n → d.resil.armed = true → d.resil.witnessFrom = none → d.devState = St.loaded →
      d.frozen = false → d.get Ent.witnessBeat ≤ d.get Ent.logicalBeat →
      Completes .witnessRunStart s fun d e =>
        e.resil = { d.resil with armed := false, witnessFrom := some (d.get Ent.witnessBeat) } ∧
        e.get Ent.witnessStatus = 1 ∧ (∀ a, e.byte a = d.byte a) ∧
        (∀ p, p < 128 → d.inMask p = true → bitOf (d.replayEntry p) 15 = true →
          (e.panel p).started = true ∧ (e.panel p).pairMode = true ∧ (e.panel p).fillB = false ∧
          (e.panel p).pc = d.replayEntry p % 8192)) ∧
    (∀ b, d.resil.witnessFrom = some b → b + d.replayBeats ≤ d.get Ent.logicalBeat →
      Completes .witnessRunEnd s fun d e =>
        e.resil = { d.resil with witnessFrom := none } ∧ (∀ a, e.byte a = d.byte a) ∧
        (d.lastStage = false ∨ d.resil.witnessValid = false → e.get Ent.witnessStatus = 4) ∧
        (d.lastStage = true → d.resil.witnessValid = true →
          (d.read d.replayArea (4 * d.lossRows) = d.resil.witnessRows → e.get Ent.witnessStatus = 2) ∧
          (d.read d.replayArea (4 * d.lossRows) ≠ d.resil.witnessRows → e.get Ent.witnessStatus = 3 ∧
            ∃ r, e.tack.newestRec = some r ∧ r.code = 0x0739)) ∧
        (∀ p, p < 128 → d.inMask p = true → (e.panel p).pairMode = false))

/-! ### Shuttles -/

namespace Sys2Proof.Certificates
open Sys2Proof.Machine

/-- Of everything beside shuttle n, the dictionary entries ks and the counters, nothing changes. -/
def OnlyShuttle (d e : Dev) (n : Nat) (ks : List Nat) : Prop :=
  (∀ m, m ≠ n → e.shuttle m = d.shuttle m) ∧ (∀ k, k ∉ ks → e.get k = d.get k) ∧ (∀ a, e.byte a = d.byte a) ∧
    (∀ p, e.panel p = d.panel p) ∧ e.flags = d.flags ∧ e.wide = d.wide ∧ e.contract = d.contract

end Sys2Proof.Certificates

/-- A Shuttle whose body is done starts the body of the next step once its die has observed the step's start beat (R234):
at its first body descriptor of that step. -/
def Sys2Proof.Certificates.BodyStarts : Prop :=
  ∀ (n : Nat) (s : State),
    let x := s.dev.shuttle n
    s.dev.shuttleStill n = false → x.phase = 3 → x.step < s.dev.step → x.step < s.dev.pat.lastStep → x.inFlight = [] →
    x.body ≠ 0 →
    Completes (.shuttleBodyStart n) s fun d e =>
      e.shuttle n = { x with
        phase := 2, step := x.step + 1, next := x.prologue + (x.step + 1) % x.period * x.body, left := x.body, completed := 0 } ∧
      Certificates.OnlyShuttle d e n [] ∧ (∀ i, e.island i = d.island i)

/-- The next descriptor of a Shuttle starts (R235, R236, R240): with the stack up, its start condition met, the one
before it issued, fewer than 8 in flight, and a record that no check refuses, it joins what is in flight and the tokens
of its condition are taken. -/
def Sys2Proof.Certificates.DescriptorStarts : Prop :=
  ∀ (n : Nat) (s : State),
    let d := s.dev
    let x := d.shuttle n
    let raw := d.read (x.base + 128 * x.next) 128
    let c := Desc.ofBytes raw
    d.shuttleStill n = false → d.power.stackUp = true → d.contract.inPause = false → x.left ≠ 0 → x.phase ≠ 0 → x.phase ≠ 3 → x.inFlight.length < 8 →
    (∀ r, x.current = some r → r.issued = true) → d.startMet x.step c = true →
    d.poisonIn (x.base + 128 * x.next) 128 = [] → c.refused d.deviceId = none → d.creditNeed c = none →
    c.guard = false → d.get Ent.guardForce = 0 → c.gather = false →
    Completes (.descriptorStart ⟨n, .none⟩) s fun d e =>
      e.shuttle n = { x with phase := 2, next := x.next + 1, left := x.left - 1, inFlight := x.inFlight ++
        [{ index := x.next, step := x.step, order := d.descOrder, raw := raw, pos := 0, total := c.total,
           issued := c.total == 0, open_ := 0, failed := false, need := 0, run := none, queued := [], parts := [], rode := false, fetched := [],
           asked := false, block := [], staged := [], extent := c.range, claiming := false }] } ∧
      e.descOrder = d.descOrder + 1 ∧ (∀ m, m ≠ n → e.shuttle m = d.shuttle m) ∧ (∀ k, e.get k = d.get k) ∧
      (∀ a, e.byte a = d.byte a) ∧ e.flags = d.flags ∧
      (c.startMode ≠ 1 → ∀ i, e.island i = d.island i) ∧
      (c.startMode = 1 → ∀ i ctr, e.tokens i ctr =
        if i = fieldOf c.start 29 26 ∧ ctr = fieldOf c.start 25 17 then d.tokens i ctr - fieldOf c.start 16 9
        else d.tokens i ctr)

/-- The oldest waiting descriptor of a stream takes its credits once the stream holds them, and may then release its
first request (R324). -/
def Sys2Proof.Certificates.CreditsTaken : Prop :=
  ∀ (n k v : Nat) (r : DescRun) (s : State),
    let d := s.dev
    (d.shuttle n).current = some r → d.shuttleStill n = false → r.need ≠ 0 → r.failed = false →
    d.creditNeed (Desc.ofBytes r.raw) = some (k, v) → k < 64 → r.need ≤ d.creditsHeld k →
    (∀ m ∈ d.shuttles, ∀ q ∈ m.2.inFlight, q.need ≠ 0 → q.failed = false → q.order < r.order →
      (d.creditNeed (Desc.ofBytes q.raw)).map Prod.fst ≠ some k) →
    Completes (.streamCreditTake n) s fun d e =>
      e.creditsHeld k = d.creditsHeld k - r.need ∧
      e.shuttle n = { d.shuttle n with
        inFlight := (d.shuttle n).inFlight.map fun q => if q.index == r.index then { q with need := 0 } else q } ∧
      Certificates.OnlyShuttle d e n [Ent.streamState] ∧ (∀ i, e.island i = d.island i)

/-- A position of a descriptor that copies single elements from what it reads to plain local memory (R242, R244): the
element, converted, is stored at its place, no other byte changes, the conversion's events go to the Shuttle's flag
set, and the descriptor goes on to its next position. -/
def Obligations.PositionCopies : Prop :=
  ∀ (n : Nat) (r : DescRun) (i : List Nat) (t u : ElemType) (el : Elem) (addr a y : Nat) (x : TallyState) (s : State),
    let d := s.dev
    let c := Desc.ofBytes r.raw
    let j := c.coords r.pos
    let v := el.convert u
    let bytes := leBytes (u.bits / 8) v.1
    (d.shuttle n).current = some r → (∀ q ∈ (d.shuttle n).inFlight, q.index = r.index → q = r) →
    d.shuttleStill n = false → r.issued = false → r.failed = false → r.need = 0 → r.queued = [] → d.outstanding n < 256 →
    r.pos + 1 < r.total → d.sourceAt n c j = (d, .elem i) → c.typeIn = some t → c.typeOut = some u →
    t ≠ .gradBlock → u ≠ .gradBlock → u.isMx = false → c.accumulate = false →
    d.readElem n r c t i .none = ({ d with tally := x, tack := { d.tack with freeCount := y } }, .elem el) →
    addRange c.dst (elemBytes u (elemOffset (fun k => nth 0 c.ds k) (fun k => nth 0 j k))).1 bytes.length = some addr →
    decodeAddr d.deviceId addr = some (.local_ a) → inControl a = false → d.lostIn a bytes.length = [] →
    d.writeRefused n a bytes.length .write = none →
    Completes (.shuttlePosition ⟨n, .none⟩) s fun d e =>
      (∀ y, e.byte y = sget 0#8 (memWrite d.mem a bytes) y) ∧
      e.flags = (d.raise (FlagUnit.shuttle n) r.step v.2).flags ∧
      (e.shuttle n).inFlight = (d.shuttle n).inFlight.map (fun q => if q.index == r.index then { q with pos := r.pos + 1 } else q) ∧
      (∀ p, e.panel p = d.panel p) ∧ (∀ k, k ≠ Ent.stickyLast → k ≠ Ent.faultClassCounts → e.get k = d.get k)

/-- The oldest descriptor in flight completes once it has issued its last request and none is open (R236, R237): it
leaves the Shuttle, and its token goes to its counter, two cycles later in the Shuttle's own island and as a crossing
to any other; a post at another device that no request carried there leaves by itself. -/
def Sys2Proof.Certificates.DescriptorCompletes : Prop :=
  ∀ (n cycle : Nat) (r : DescRun) (rest : List DescRun) (s : State),
    let d := s.dev
    let c := Desc.ofBytes r.raw
    (d.shuttle n).inFlight = r :: rest → (d.shuttle n).left ≠ 0 → d.shuttleStill n = false → r.issued = true →
    r.open_ = 0 → r.claiming = false → r.failed = false → r.staged = [] →
    Completes (.descriptorComplete n cycle) s fun d e =>
      e.shuttle n = { d.shuttle n with inFlight := rest, completed := (d.shuttle n).completed + 1 } ∧
      (∀ m, m ≠ n → e.shuttle m = d.shuttle m) ∧ (∀ a, e.byte a = d.byte a) ∧ (∀ k, e.get k = d.get k) ∧ e.flags = d.flags ∧
      (c.tokenEn = true → c.atDest = false →
        (n < 16 ∧ c.tokenIsland = n →
          d.Adds e n ⟨max cycle (d.island n).cycle + 2, 0, 0, 0, 0, .token c.tokenCtr c.tokenAmount 0⟩) ∧
        (¬ (n < 16 ∧ c.tokenIsland = n) →
          e.contract.transit = d.contract.transit ++ [⟨decide (16 ≤ n), c.tokenIsland, c.tokenCtr, c.tokenAmount, 0⟩])) ∧
      (c.tokenEn = true → c.atDest = true → r.rode = false → ∀ dev off, decodeAddr d.deviceId c.dst = some (.global dev off) →
        e.weave = { d.weave with farPosts := d.weave.farPosts ++ [⟨false, dev, c.tokenWord⟩] } ∧
        e.contract.transit = d.contract.transit ∧ ∀ i, e.island i = d.island i) ∧
      (c.tokenEn = false ∨ c.atDest = true ∧ r.rode = true →
        e.contract.transit = d.contract.transit ∧ e.weave = d.weave ∧ ∀ i, e.island i = d.island i)

/-! ### Ports and links -/

namespace Sys2Proof.Certificates
open Sys2Proof.Machine

/-- Beside the ports' link layers, the dictionary entries ks and the counters, nothing of what a command of the Weave
could reach changes. -/
def OnlyWeave (d e : Dev) (ks : List Nat) : Prop :=
  (∀ k, k ∉ ks → e.get k = d.get k) ∧ (∀ a, e.byte a = d.byte a) ∧ (∀ p, e.panel p = d.panel p) ∧
    (∀ i, e.island i = d.island i) ∧ e.flags = d.flags ∧ e.wide = d.wide ∧ e.coll = d.coll ∧ e.burn = d.burn

/-- A record of a code by a unit is the newest of the fault log. -/
def Recorded (e : Dev) (code unit : Nat) : Prop := ∃ r, e.tack.newestRec = some r ∧ r.code = code ∧ r.unit = unit

/-- A message of this device leaves by the direction of R307: it joins the output queue of that port, cut into flits,
where the port is UP. -/
def Sends (d e : Dev) (type cls tag dest : Nat) (late : Bool) (payload : List Byte) : Prop :=
  match d.direction d.coord (Coord.ofId dest) cls with
  | none => e.weave.ports = d.weave.ports
  | some dir => d.portUp (d.portOf dir) = true →
      (e.link (d.portOf dir)).out = (d.link (d.portOf dir)).out ++
        [⟨cls, d.vcFor dir none, none,
          cutFlits ⟨type, cls, d.vcFor dir none, dest, d.deviceId, tag, true, true, late, 0, 0⟩ payload, true⟩]

end Sys2Proof.Certificates

/-- The states of a port (R303): training that completes makes it UP, but a port that was lost and carries a direction
waits for a matched neighbour first; training that does not complete in its time makes it FAILED with 0x0403; a port that
is DOWN or FAILED trains again, its link layer fresh; the loss of an UP port's link makes it DOWN with 0x0402, its queues
and its replay buffer discarded, and the loss of a port that no run needs starts no hold. -/
def Sys2Proof.Certificates.PortStates : Prop :=
  ∀ (i : Nat) (s : State), i < 8 →
    let d := s.dev
    (d.portState i = PortSt.training → bitOf (d.get Ent.portEnable) i = true →
      Completes (.portTrained i) s fun d e =>
        (∀ j, j ≠ i → e.link j = d.link j) ∧ (∀ j, j < 8 → j ≠ i → e.portState j = d.portState j) ∧
        Certificates.OnlyWeave d e [Ent.portState] ∧
        ((d.link i).lost = false ∨ d.dirOf i = none →
          e.portState i = PortSt.up ∧ e.link i = { d.link i with lost := false, trained := false }) ∧
        ((d.link i).lost = true → d.dirOf i ≠ none →
          e.portState i = PortSt.training ∧ e.link i = { d.link i with trained := true })) ∧
    (d.portState i = PortSt.training → Completes (.portTrainingTimeout i) s fun d e =>
        e.portState i = PortSt.failed ∧ Certificates.Recorded e 0x0403 (Unit.port i) ∧
        e.link i = { Link.reset with wire := (d.link i).wire, lost := true } ∧ (∀ j, j ≠ i → e.link j = d.link j) ∧
        Certificates.OnlyWeave d e [Ent.portState, Ent.faultClassCounts]) ∧
    (d.portState i = PortSt.down ∨ d.portState i = PortSt.failed → bitOf (d.get Ent.portEnable) i = true →
      Completes (.portRetrain i) s fun d e =>
        e.portState i = PortSt.training ∧
        e.link i = { Link.reset with wire := (d.link i).wire, lost := (d.link i).lost } ∧
        (∀ j, j ≠ i → e.link j = d.link j) ∧ Certificates.OnlyWeave d e [Ent.portState]) ∧
    (d.portState i = PortSt.up → (d.requiredPort i = false ∨ d.inState [St.running, St.held, St.braced, St.stowed] = false) →
      Completes (.linkLoss i) s fun d e =>
        e.portState i = PortSt.down ∧ e.link i = { Link.reset with wire := (d.link i).wire, lost := true } ∧ e.matched i = false ∧
        Certificates.Recorded e 0x0402 (Unit.port i) ∧ e.power.holds = d.power.holds ∧ (∀ j, j ≠ i → e.link j = d.link j) ∧
        Certificates.OnlyWeave d e [Ent.portState, Ent.linkCounts, Ent.neighbour, Ent.faultClassCounts])

/-- The loss of a required port's link in RUNNING adds the port cause to the device's own hold, which is in the table
afterwards (R332, R464). -/
def Sys2Proof.Certificates.RequiredLinkLossHolds : Prop :=
  ∀ (i : Nat) (s : State), i < 8 → s.dev.portState i = PortSt.up → s.dev.requiredPort i = true →
    s.dev.devState = St.running → s.dev.power.holds = [] →
    Completes (.linkLoss i) s fun _ e =>
      e.portState i = PortSt.down ∧ 3 ∈ e.power.causes ∧ e.ownHold.isSome = true ∧ e.devState = St.held

/-- No ACK progress for 2 µs (R301): the oldest unacknowledged flit goes out again with RESENT set, from a port that carries
traffic (R299, R304), and after 16 re-sends the link is lost. -/
def Sys2Proof.Certificates.OldestIsResent : Prop :=
  ∀ (i : Nat) (r : Replay) (rest : List Replay) (s : State),
    let l := s.dev.link i
    s.dev.portUp i = true → l.replay = r :: rest → (∀ q ∈ rest, q.seq ≠ r.seq) →
    (r.resends < 16 → s.dev.carries i = false → Completes (.ackTimeoutResend i) s fun d e => e = d) ∧
    (r.resends < 16 → s.dev.carries i = true → l.naks = [] → Completes (.ackTimeoutResend i) s fun d e =>
      e.link i = { l with
        replay := { r with resends := r.resends + 1, wanted := false } :: rest
        wire := l.wire ++ [flitBytes r.piece.hdr r.piece.payload r.seq l.rxSeq false true false true]
        sinceLink := l.sinceLink + 1 } ∧
      (∀ j, j ≠ i → e.link j = d.link j) ∧ Certificates.OnlyWeave d e [Ent.linkCounts]) ∧
    (16 ≤ r.resends → Completes (.ackTimeoutResend i) s fun _ e => e.portState i = PortSt.down)

/-- A LINK flit of an UP port (R302, R304): the neighbour's counts of freed flits are taken, and NEIGHBOUR shows its
identity, matched where it is the device the shape expects there; a wrong one records 0x0401 until a match, once. A port
that was lost and has trained again is UP once its neighbour matches (R303). -/
def Sys2Proof.Certificates.LinkFlitTakesIdentity : Prop :=
  ∀ (i : Nat) (f : LinkF) (s : State), i < 8 → s.dev.linkOpen i = true → f.device < 2 ^ 16 → f.warp < 256 → f.weft < 256 →
    f.pile < 256 → f.state < 256 → f.zone < 256 →
    let ok := match s.dev.dirOf i with
      | some dir => s.dev.neighbourAt dir == some ⟨f.warp, f.weft, f.pile⟩
      | none => true
    Completes (.linkFlit i f) s fun d e =>
      (∀ q, q < 8 → sget 0 (e.link i).peerFreed q = nth 0 f.freed q % 65536) ∧
      (e.link i).out = (d.link i).out ∧ (e.link i).replay = (d.link i).replay ∧ e.neighbourId i = f.device ∧
      e.matched i = ok ∧ (ok = false → d.portUp i = true → (d.link i).told = false →
        Certificates.Recorded e 0x0401 (Unit.port i) ∧ (e.link i).told = true) ∧
      (ok = true → e.portState i = PortSt.up ∧ (e.link i).told = false) ∧
      (ok = false → e.portState i = d.portState i) ∧
      (∀ j, j ≠ i → e.link j = d.link j) ∧ Certificates.OnlyWeave d e [Ent.neighbour, Ent.portState, Ent.faultClassCounts]

/-- A flit that arrives (R301, R307): with a wrong check it is counted and nothing else; the expected SEQ is taken, its
queue slot is freed and a flit for another device joins the output of its direction; a SEQ ahead of the expected one is
kept, and each SEQ newly missing is named in a NAK; a duplicate changes nothing. Nothing that was held before is free to go
on. -/
def Sys2Proof.Certificates.FlitsArrive : Prop :=
  ∀ (i stamp egress : Nat) (bytes : List Byte) (s : State),
    let d := s.dev
    let low := leAt bytes 248 4
    let h := FlitHdr.ofWord (leAt bytes 0 8)
    let l := d.link i
    let seq := fieldOf low 31 20
    let ahead := seqAhead seq l.rxSeq
    stamp ≤ d.time.clock → d.portUp i = true → (d.holdsMsgs = true ∨ d.weave.held = [] ∧ d.power.completions = []) →
    (leAt bytes 252 4 ≠ crc32c (bytes.take 252) → Completes (.flitReceive i bytes stamp egress) s fun d e =>
      e.weave = d.weave ∧ Certificates.OnlyWeave d e [Ent.linkCounts]) ∧
    (leAt bytes 252 4 = crc32c (bytes.take 252) → bitOf low 3 = false → bitOf low 1 = false → bitOf low 0 = false →
      d.carries i = true →
      (0 < ahead → ahead < 2048 → l.reorder = [] → Completes (.flitReceive i bytes stamp egress) s fun d e =>
        e.link i = { l with
          reorder := [(seq, bytes)]
          naks := (l.naks.filter fun n => n != seq) ++ (upTo ahead).map fun k => (l.rxSeq + k) % 4096 } ∧
        Certificates.OnlyWeave d e [Ent.linkCounts]) ∧
      (2048 ≤ ahead → Completes (.flitReceive i bytes stamp egress) s fun d e =>
        (∀ j, e.link j = d.link j) ∧ Certificates.OnlyWeave d e [Ent.linkCounts]) ∧
      (ahead = 0 → l.reorder = [] → h.type < 0xA → h.type ≠ 0 → h.reserved = 0 →
        d.forMe i h ((bytes.drop 8).take 240) = false → d.queueHeld i (2 * h.cls + h.vc) = false →
        d.devState ≠ St.spare → ∀ dir, d.direction d.coord (Coord.ofId h.dest) h.cls = some dir →
        d.portUp (d.portOf dir) = true → d.portOf dir ≠ i →
        Completes (.flitReceive i bytes stamp egress) s fun d e =>
          (e.link i).rxSeq = (l.rxSeq + 1) % 4096 ∧
          sget 0 (e.link i).freed (2 * h.cls + h.vc) = (sget 0 l.freed (2 * h.cls + h.vc) + 1) % 65536 ∧
          (∃ o ∈ (e.link (d.portOf dir)).out, o.source = some (8 * i + 2 * h.cls + h.vc) ∧ o.closed = h.last ∧
            o.pieces.getLast? = some
              ⟨{ h with vc := d.vcFor dir ((d.dirOf i).map fun k => (k / 2, h.vc)) }.word, (bytes.drop 8).take 240⟩) ∧
          Certificates.OnlyWeave d e [Ent.linkCounts]))

/-- An UP port sends its next flit (R301, R302, R310): a new one of the class the arbiter serves is numbered, kept until
it is acknowledged and takes a credit of the neighbour's queue; with nothing to send a LINK flit goes out. -/
def Sys2Proof.Certificates.FlitsLeave : Prop :=
  ∀ (i : Nat) (s : State),
    let d := s.dev
    let l := d.link i
    d.carries i = true → l.sinceLink < 127 → (∀ r ∈ l.replay, r.wanted = false) → l.replay.length < 2048 → l.naks = [] →
    (∀ cls left o p ps, d.nextClass l = some (cls, left) → l.ready cls = some o → o.pieces = p :: ps →
      Completes (.flitTransmit i) s fun d e =>
        (e.link i).txSeq = (l.txSeq + 1) % 4096 ∧ (e.link i).replay = l.replay ++ [⟨l.txSeq, p, 0, false⟩] ∧
        sget 0 (e.link i).sent (2 * cls + o.vc) = (sget 0 l.sent (2 * cls + o.vc) + 1) % 65536 ∧
        (e.link i).wire = l.wire ++ [flitBytes p.hdr p.payload l.txSeq l.rxSeq false false false true] ∧
        (∀ j, j ≠ i → e.link j = d.link j) ∧ Certificates.OnlyWeave d e []) ∧
    (d.nextClass l = none → Completes (.flitTransmit i) s fun d e =>
        e.link i = { l with
          wire := l.wire ++ [flitBytes (⟨FlitType.link, 0, 0, 0, d.deviceId, 0, true, true, false, 0, 26⟩ : FlitHdr).word
            (d.linkPayload i) 0 l.rxSeq true false false true],
          sinceLink := 0 } ∧
        (∀ j, j ≠ i → e.link j = d.link j) ∧ Certificates.OnlyWeave d e [])

/-! ### Requests -/

/-- PUT, GET_REQ and ATOMIC that this device serves at once (R312–R315, R326): with no check refusing them, a PUT stores
its bytes and is answered with status OK; an ATOMIC adds its elements one after another; a GET_REQ changes no byte and
is answered with the bytes read. -/
def Sys2Proof.Certificates.RequestsServed : Prop :=
  ∀ (r : ReqF) (s : State),
    let d := s.dev
    d.holdsMsgs = false → d.gate r.tag = none → (r.cls ≠ 1 ∨ r.late = false) → bitOf r.token 31 = false →
    (d.addressStatus r.addr r.data.length .write = none → Completes (.put r) s fun d e =>
      (∀ y, e.byte y = sget 0#8 (memWrite d.mem r.addr r.data) y) ∧
      Certificates.Sends d e FlitType.completion 3 0 r.src false (completionPayload r.reqId 0 none) ∧
      (∀ p, e.panel p = d.panel p) ∧ (∀ i, e.island i = d.island i) ∧ e.flags = d.flags ∧ e.contract = d.contract) ∧
    (∀ op, AddOp.ofCode r.op = some op → d.addressStatus r.addr r.data.length (.add r.op) = none →
      Completes (.atomic r) s fun d e =>
        (∀ y, e.byte y = (Dev.addRun op (r.data.length + 1) d r.addr r.data).byte y) ∧
        Certificates.Sends d e FlitType.completion 3 0 r.src false (completionPayload r.reqId 0 none) ∧
        (∀ p, e.panel p = d.panel p) ∧ (∀ i, e.island i = d.island i) ∧ e.contract = d.contract) ∧
    (d.addressStatus r.addr r.len .read = none → d.poisonIn r.addr r.len = [] → Completes (.getReq r) s fun d e =>
      Certificates.Sends d e FlitType.getRsp r.cls d.pat.jobTag r.src false
        (reqHead 0 r.len r.reqId 0 0 0 ++ d.read r.addr r.len) ∧
      (∀ y, e.byte y = d.byte y) ∧ (∀ p, e.panel p = d.panel p) ∧ (∀ i, e.island i = d.island i) ∧
      e.flags = d.flags ∧ e.contract = d.contract)

/-- A request that a check refuses writes nothing and is answered with the check's status (R313, R314): SOURCE state
before the job tag, the job tag before the address. -/
def Sys2Proof.Certificates.RequestsRefused : Prop :=
  ∀ (r : ReqF) (st : Nat) (s : State),
    let d := s.dev
    d.holdsMsgs = false → (d.gate r.tag = some st ∨ d.gate r.tag = none ∧ d.addressStatus r.addr r.data.length .write = some st) →
    Completes (.put r) s fun d e =>
      (∀ y, e.byte y = d.byte y) ∧
      Certificates.Sends d e FlitType.completion 3 0 r.src false (completionPayload r.reqId st none) ∧
      (d.pat.loaded = false → st = 5) ∧ (d.pat.loaded = true → r.tag ≠ d.pat.jobTag → st = 1) ∧
      (∀ p, e.panel p = d.panel p) ∧ (∀ i, e.island i = d.island i) ∧ e.flags = d.flags

/-- The completion of a request of a Shuttle (R311, R313, R316): the request is no longer open at its descriptor; a
GET_RSP adds its data to what the descriptor has read; a request with no completion in its time stops its descriptor
with 0x040B. -/
def Obligations.RequestsComplete : Prop :=
  ∀ (p : Pend) (run : DescRun) (s : State),
    let d := s.dev
    let id := p.shuttle * 2048 + p.num
    d.weave.pends.find? (fun q => q.shuttle * 2048 + q.num == id) = some p → id ≠ 0xFFFF → d.weave.combines = [] →
    (d.shuttle p.shuttle).inFlight = [run] → run.failed = false →
    (∀ port src group pos addr, p.purpose = .shuttle run.index pos addr → d.devState ≠ St.stowed →
      Completes (.completion port src id 0 group) s fun d e =>
        e.weave.pends = d.weave.pends.filter (fun q => q.shuttle * 2048 + q.num != id) ∧
        (e.shuttle p.shuttle).inFlight = [{ run with open_ := run.open_ - 1 }] ∧
        Certificates.OnlyWeave d e [Ent.e2eStatusCount]) ∧
    (∀ src pos addr data, p.purpose = .fetch run.index pos addr → d.holdsMsgs = false →
      Completes (.getRsp src id data) s fun d e =>
        e.weave.pends = d.weave.pends.filter (fun q => q.shuttle * 2048 + q.num != id) ∧
        (e.shuttle p.shuttle).inFlight =
          [{ run with fetched := run.fetched ++ [(addr, data)], open_ := run.open_ - 1, asked := false }] ∧
        Certificates.OnlyWeave d e [Ent.e2eStatusCount]) ∧
    (∀ pos addr t, p.purpose = .shuttle run.index pos addr → p.sentAt = some t →
      t + d.get Ent.e2eTimeoutUs * clockUs ≤ d.time.clock → d.power.holds = [] → d.get Ent.lpState ≠ 1 →
      Completes (.requestTimeout id) s fun d e =>
        e.weave.pends = d.weave.pends.filter (fun q => q.shuttle * 2048 + q.num != id) ∧
        (∃ x, (e.shuttle p.shuttle).inFlight = [x] ∧ x.failed = true ∧ x.issued = true ∧ x.open_ = run.open_ - 1) ∧
        Certificates.Recorded e 0x040B (shuttleUnit p.shuttle) ∧ e.withheld = true ∧ (∀ a, e.byte a = d.byte a))

/-- A multicast request at a member with no OUT port (R328, R329): it is written where DELIVER is set, and its completion
goes back on the IN port. -/
def Obligations.MulticastDelivers : Prop :=
  ∀ (port group : Nat) (r : ReqF) (s : State),
    let d := s.dev
    let ent := d.mcastEnt group
    d.holdsMsgs = false → ent.valid = true → ent.inPort = port → port ≠ 0xF → ent.tag = r.tag → d.pat.loaded = true →
    r.tag = d.pat.jobTag → ent.outPorts = [] → ent.deliver = true → d.requestStatus r.tag r.addr r.data.length .write = 0 →
    (r.cls ≠ 1 ∨ r.late = false) → bitOf r.token 31 = false → d.hasColl = false → d.weave.combines = [] →
    Completes (.mcast port group r) s fun d e =>
      (∀ y, e.byte y = sget 0#8 (memWrite d.mem r.addr r.data) y) ∧ e.weave.combines = [] ∧
      (d.portUp port = true → (e.link port).out = (d.link port).out ++
        [⟨3, 0, none, cutFlits ⟨FlitType.completion, 3, 0, d.neighbourId port, d.deviceId, 0, true, true, false, 0, 0⟩
          (completionPayload r.reqId 0 (some group)), true⟩])

/-! ### Streams and the Loom map -/

/-- CREDIT flits of a valid outbound stream's peer (R325): INIT with the stream's own sizes adds BUFS to its credits, RETURN
adds what the receiver returned, and neither passes BUFS. One of another device or stream moves nothing (log 103: the
model's choice). -/
def Sys2Proof.Certificates.CreditsMove : Prop :=
  ∀ (f : CreditF) (s : State), f.outbound < 64 →
    let d := s.dev
    let ent := d.outStream f.outbound
    ent.valid = true →
    (f.src ≠ ent.peer ∨ f.inbound ≠ ent.peerStream → ∀ c, c = .creditInit f ∨ c = .creditReturn f → Completes c s fun d e =>
      Certificates.Recorded e 0x0406 Unit.device ∧ e.weave = d.weave ∧ Certificates.OnlyWeave d e [Ent.faultClassCounts]) ∧
    (f.src = ent.peer → f.inbound = ent.peerStream → ent.bufLog = f.bufLog → ent.bufs = f.count → Completes (.creditInit f) s fun d e =>
      e.creditsHeld f.outbound = min ent.bufs (d.creditsHeld f.outbound + ent.bufs) ∧ e.weave = d.weave ∧
      Certificates.OnlyWeave d e [Ent.streamState]) ∧
    (f.src = ent.peer → f.inbound = ent.peerStream → d.creditsHeld f.outbound + f.count ≤ ent.bufs → Completes (.creditReturn f) s fun d e =>
      e.creditsHeld f.outbound = d.creditsHeld f.outbound + f.count ∧ e.weave = d.weave ∧
      Certificates.OnlyWeave d e [Ent.streamState]) ∧
    (f.src = ent.peer → f.inbound = ent.peerStream → ent.bufs < d.creditsHeld f.outbound + f.count → Completes (.creditReturn f) s fun _ e =>
      e.creditsHeld f.outbound = ent.bufs ∧ Certificates.Recorded e 0x0406 Unit.device)

/-- A write of an inbound stream's release word is in the word, and where the stream is valid its count goes to the
stream's sender as a RETURN credit (R325). -/
def Sys2Proof.Certificates.ReleaseWordReturns : Prop :=
  ∀ (k count : Nat) (s : State), k < 64 → count < 65536 →
    Completes (.releaseWordWrite k count) s fun d e =>
      let ent := d.inStream k
      let a := streamBase + 0x800 + 8 * k
      e.readNat a 2 = count ∧ (∀ y, y < a ∨ a + 2 ≤ y → e.byte y = d.byte y) ∧
      (ent.valid = false → e.weave = d.weave) ∧
      (ent.valid = true → Certificates.Sends d e FlitType.credit 3 0 ent.peer false
        (leBytes 1 k ++ leBytes 1 ent.peerStream ++ leBytes 1 2 ++ leBytes 1 ent.bufLog ++ leBytes 2 count ++
          List.replicate 234 0#8))

/-- An update record whose reserved bytes are 0, whose entry is of the loaded job and has no reserved bit, and is not both
MULTICAST and STREAM (R317; that the update is refused then is the model's reading, log 104), rewrites its
entry of the Loom map and no other, and drops it from every Shuttle's cache (R256, R320); a record that is refused
changes no entry and records 0x0408. -/
def Sys2Proof.Certificates.LoomUpdates : Prop :=
  ∀ (n : Nat) (record : List Byte) (s : State),
    let d := s.dev
    let i := leAt record 0 4
    let w := leAt record 8 16
    let refused := (leAt record 4 4 != 0 || leAt record 24 8 != 0 || decide (2097152 ≤ i) || fieldOf w 72 0 != 0 ||
      !d.pat.loaded || fieldOf w 123 112 != d.pat.jobTag || (bitOf w 80 && bitOf w 79)) = true
    (¬ refused → Completes (.loomUpdateWrite n record) s fun d e =>
      e.loomWord i = w ∧ (∀ j, j ≠ i → e.loomWord j = d.loomWord j) ∧ (∀ m, i ∉ (e.shuttle m).cache) ∧
      Certificates.OnlyWeave d e []) ∧
    (refused → Completes (.loomUpdateWrite n record) s fun d e =>
      (∀ j, e.loomWord j = d.loomWord j) ∧ Certificates.Recorded e 0x0408 (Unit.shuttle n) ∧
      Certificates.OnlyWeave d e [Ent.faultClassCounts])

/-! ### Reductions -/

namespace Sys2Proof.Certificates
open Sys2Proof.Machine

/-- A reduce request is on time at round i of the record i and the state x of that round: its job is loaded and the
state serves it, its fields fit the record, and its step is the expected one (R314, R350). -/
structure OnTime (d : Dev) (f : ReduceF) (first blocks i : Nat) (x : RoundState) : Prop where
  awake : d.holdsMsgs = false
  serves : d.gate f.tag = none
  up : d.power.stackUp = true
  fits : d.reduceFits f first blocks = some i
  round : d.round i f.round = some x
  step : x.expected = f.step
  live : d.resil.witnessFrom = none
  free : blocks = 0 ∨ d.ringBusy i f.round = false

/-- A round changes to y; every other round, the dictionary but the entries ks, and the panels stay. -/
def OnlyRound (d e : Dev) (i r : Nat) (y : RoundState) (ks : List Nat) : Prop :=
  e.round i r = some y ∧ (∀ j q, (j, q) ≠ (i, r) → e.round j q = d.round j q) ∧
    (∀ k, k ∉ ks → e.get k = d.get k) ∧ (∀ p, e.panel p = d.panel p) ∧ (∀ k, e.island k = d.island k) ∧ e.flags = d.flags ∧
    e.coll.folds = d.coll.folds

end Sys2Proof.Certificates

/-- A reduce request on time (R350): DATA goes to its staging blocks and its indices join the child's; CLOSE closes the
child with its masks, and VOID makes it void, and the round stays open while a term is missing; each is answered with
status OK. No lost block is to be written in part (R277). -/
def Sys2Proof.Certificates.ReduceArrives : Prop :=
  ∀ (f : ReduceF) (i : Nat) (x : RoundState) (s : State),
    let d := s.dev
    let answered (e : Dev) : Prop :=
      Certificates.Sends d e FlitType.completion 3 0 f.src false (completionPayload 0xFFFF 0 none)
    (∀ first blocks data, Certificates.OnTime d f first blocks i x →
      d.partialLost ((d.nodeRec i).stageAddr f.round f.slot first) (data.take (516 * blocks)).length = false →
      Completes (.reduceData f first blocks data) s fun d e =>
        Certificates.OnlyRound d e i f.round
          ({ x.setTerm { x.term f.slot with blocks := (x.term f.slot).blocks ++ (upTo blocks).map (first + ·) } with
              firstAt := some (x.firstAt.getD d.measured) }) [Ent.faultClassCounts] ∧
        (∀ y, e.byte y =
          sget 0#8 (memWrite d.mem ((d.nodeRec i).stageAddr f.round f.slot first) (data.take (516 * blocks))) y) ∧
        answered e) ∧
    (∀ on fold, Certificates.OnTime d f 0 0 i x → f.replay = false →
      let y := { x.setTerm { x.term f.slot with status := 1, on := on, fold := fold } with
        firstAt := some (x.firstAt.getD d.measured) }
      d.roundComplete i y = false →
      Completes (.reduceClose f on fold) s fun d e =>
        Certificates.OnlyRound d e i f.round y [Ent.faultClassCounts] ∧ (∀ a, e.byte a = d.byte a) ∧ answered e) ∧
    (Certificates.OnTime d f 0 0 i x →
      let y := { x.setTerm { x.term f.slot with status := 2 } with firstAt := some (x.firstAt.getD d.measured) }
      d.roundComplete i y = false →
      Completes (.reduceVoid f) s fun d e =>
        Certificates.OnlyRound d e i f.round y [Ent.faultClassCounts] ∧ (∀ a, e.byte a = d.byte a) ∧ answered e)

/-- A reduce request whose job tag passes and whose fields do not fit the device's records is answered REFUSED_TARGET
with 0x0707, and changes no round and no byte (R350). -/
def Sys2Proof.Certificates.ReduceRefused : Prop :=
  ∀ (f : ReduceF) (first blocks : Nat) (data : List Byte) (s : State),
    let d := s.dev
    d.holdsMsgs = false → d.gate f.tag = none → d.power.stackUp = true → d.reduceFits f first blocks = none →
    Completes (.reduceData f first blocks data) s fun d e =>
      e.coll = d.coll ∧ (∀ a, e.byte a = d.byte a) ∧ (∃ r ∈ e.tack.faults, r.code = 0x0707) ∧
      Certificates.Sends d e FlitType.completion 3 0 f.src false (completionPayload 0xFFFF 2 none)

/-- A node that observes the deadline beat closes the round with the terms it has (R351): it expects the next step, keeps
the OR of the masks of the included terms, and forgets the terms; a root writes one FP32 gradient per element of each
block (R344). Before the deadline nothing happens. -/
def Sys2Proof.Certificates.DeadlineClosesRound : Prop :=
  ∀ (i r : Nat) (x : RoundState) (s : State),
    let d := s.dev
    let q := d.roundRec i r
    d.round i r = some x → (d.nodeRec i).level ≠ 0 → d.inRun = true → d.frozen = false →
    (d.get Ent.logicalBeat < d.startBeatOf x.expected + q.deadline →
      Completes (.roundDeadline i r) s fun d e => e = d) ∧
    (d.startBeatOf x.expected + q.deadline ≤ d.get Ent.logicalBeat → d.coll.folds = [] →
      Completes (.roundDeadline i r) s fun d e =>
        let own := if x.own = 1 && q.hasOwn then 2 ^ d.collHead.leaf else 0
        let kids := x.terms.filter fun t => t.status == 1
        e.round i r = some { x with
          expected := x.expected + 1
          own := 0
          terms := []
          firstAt := none
          masks := (⟨x.expected, kids.foldl (fun m t => m ||| t.on) own, kids.foldl (fun m t => m ||| t.fold) 0⟩ ::
            x.masks).take 8 } ∧
        (∀ j p, (j, p) ≠ (i, r) → e.round j p = d.round j p) ∧ (∀ p, e.panel p = d.panel p) ∧
        ((d.nodeRec i).isRoot = true → q.blocks = 1 → d.termsOf i x [] 0 ≠ [] →
          d.partialLost q.rootOut (4 * min 256 q.elements) = false →
          (∀ a, e.byte a = sget 0#8 (memWrite d.mem q.rootOut
            (wordBytes ((rootBlock (d.termsOf i x [] 0) (d.scaleOf x.expected)).1.take (min 256 q.elements)))) a) ∧
          e.weave = d.weave ∧ e.coll.sent = d.coll.sent))

/-- LEAF_CLOSE (R349, R360): refused with 0x0707 where the tree or the round is not this device's; held while a
fingerprint set of the step is unchecked; at a leaf-only device the round's blocks go to the parent, with a CLOSE of the
device's own bit; at a node the own term is closed, and the round stays open while a child is missing. -/
def Sys2Proof.Certificates.LeafCloses : Prop :=
  ∀ (tree r step : Nat) (s : State),
    let d := s.dev
    d.resil.witnessFrom = none →
    (d.nodeOf tree = none → Completes (.leafClose tree r step) s fun d e =>
      Certificates.Recorded e 0x0707 Unit.device ∧ e.coll = d.coll ∧ e.weave = d.weave ∧ e.mem = d.mem) ∧
    (∀ i x, d.nodeOf tree = some i → r < (d.nodeRec i).rounds → (d.roundRec i r).hasOwn = true → d.round i r = some x →
      (d.unchecked = true → Completes (.leafClose tree r step) s fun d e =>
        e = { d with coll := { d.coll with heldCloses := d.coll.heldCloses ++ [(i, r)] } }) ∧
      (d.unchecked = false → (d.withheld = false ∨ d.coll.ownVoid = false) →
        ((d.nodeRec i).level = 0 → (x.own = 0 ∨ x.expected ≠ step) → Completes (.leafClose tree r step) s fun d e =>
          e.round i r = some { x with own := 1, expected := step } ∧ e.mem = d.mem ∧
          (∃ y ∈ e.coll.sent, y.node = i ∧ y.round = r ∧ y.step = step ∧ y.kind = 2 ∧ y.on = 2 ^ d.collHead.leaf ∧
            y.fold = 0 ∧ y.blocks = (upTo (d.roundRec i r).blocks).map fun j => (j, (d.roundRec i r).own + 516 * j))) ∧
        ((d.nodeRec i).level ≠ 0 → x.expected ≤ step →
          let y := { x with own := 1, firstAt := some (x.firstAt.getD d.measured) }
          d.roundComplete i y = false → Completes (.leafClose tree r step) s fun d e =>
            Certificates.OnlyRound d e i r y [] ∧ e.mem = d.mem ∧ e.weave = d.weave)))

/-- A fingerprint set is opened afresh for its tag and becomes the receiving one; its check passes where every copy seen
agrees with its reference and with copy 0, and otherwise the device counts the failure, records 0x0710 and withholds
(R357–R360). -/
def Sys2Proof.Certificates.FingerprintSets : Prop :=
  ∀ (tag : Nat) (s : State),
    let d := s.dev
    let set := d.fpSet (tag % 4)
    let r0 := nth 0 set.refs 0
    let ok := !set.failed && (r0 != 0 || set.sealed0) && (upTo 4).all fun c =>
      !bitOf set.seen c || (nth 0 set.copies c == nth 0 set.refs c && nth 0 set.refs c == r0)
    d.resil.witnessFrom = none →
    (Completes (.fpOpen tag) s fun d e =>
      e.fpSet (tag % 4) = { FpSet.reset with tag := tag, opened := some d.step } ∧ e.coll.receiving = some (tag % 4) ∧
      (∀ j, j ≠ tag % 4 → e.fpSet j = d.fpSet j) ∧ e.coll.rounds = d.coll.rounds ∧ e.tack = d.tack ∧ e.mem = d.mem) ∧
    (d.coll.heldCloses = [] →
      (ok = true → Completes (.fpCheck tag) s fun d e =>
        e.fpSet (tag % 4) = { set with checked := true, passed := true } ∧
        (∀ j, j ≠ tag % 4 → e.fpSet j = d.fpSet j) ∧ e.tack = d.tack) ∧
      (ok = false → within1000 d.coll.lastFpFail d.faultStep = false → Completes (.fpCheck tag) s fun d e =>
        e.fpSet (tag % 4) = { set with checked := true, passed := false } ∧ Certificates.Recorded e 0x0710 Unit.device ∧
        e.withheld = true ∧ e.lateMode = true ∧ e.getB Ent.fpStatus 4 4 = d.step % 2 ^ 32 ∧ e.coll.rounds = d.coll.rounds ∧
        e.getB Ent.fpStatus 0 4 = satAdd (2 ^ 32 - 1) (d.getB Ent.fpStatus 0 4) 1))

/-! ### The vote -/

/-- A vote that is due goes up (R42, R363): a device that observes the vote deadline, and that is no root, sends its
parent one VOTE_UP that joins its own entry with those of its children, INCOMPLETE where a child's is missing; the
step's flags are captured to STICKY_LAST and cleared. -/
def Sys2Proof.Certificates.VoteGoesUp : Prop :=
  ∀ s : State,
    let d := s.dev
    let n := d.coll.voteStep
    let h := d.collHead
    let mine := d.coll.ups.filter fun u => (VoteMsg.ofBytes u.2).step == n
    d.hasColl = true → d.inRun = true → d.frozen = false → n ≤ d.step →
    (∀ x ∈ d.rootRounds, n < x.expected) → d.startBeatOf n + h.voteDeadline ≤ d.get Ent.logicalBeat →
    h.voteParent ≠ 0xFFFF →
    Completes .voteDeadline s fun d e =>
      e.coll.voteStep = n + 1 ∧ e.get Ent.stickyLast = d.flagBlob (n % 4) ∧ (∀ u, u < 188 → e.flagByte (n % 4) u = 0) ∧
      (∀ q, q < 4 → q ≠ n % 4 → ∀ u, u < 188 → e.flagByte q u = d.flagByte q u) ∧
      e.coll.rounds = d.coll.rounds ∧ (∀ p, e.panel p = d.panel p) ∧ (∀ i, e.island i = d.island i) ∧
      e.coll.overflow = false ∧
      ∃ m : VoteMsg, e.coll.upsSent = ⟨n, m.toBytes, d.get Ent.shardFp, d.withheld, d.measured⟩ :: d.coll.upsSent ∧ m.sub = 0x20 ∧ m.step = n ∧
        m.reported = mine.foldl (fun k u => k + (VoteMsg.ofBytes u.2).reported) 1 ∧
        ((∃ c ∈ h.voteChildren, ∀ u ∈ mine, u.1 ≠ c) → m.incomplete = true) ∧
        Certificates.Sends d e FlitType.control 3 0 h.voteParent false m.toBytes

/-- VOTE_UP of a child (R363): one of another step, or of a device that is no vote child, is discarded with 0x0713; one
of the step is kept, in place of an earlier one of the same child, and the vote waits while another child's is
missing. -/
def Sys2Proof.Certificates.VoteUpArrives : Prop :=
  ∀ (src : Nat) (bs : List Byte) (s : State),
    let d := s.dev
    let m := VoteMsg.ofBytes bs
    d.hasColl = true →
    (m.step ≠ d.coll.voteStep ∨ src ∉ d.collHead.voteChildren → Completes (.voteUp src bs) s fun d e =>
      Certificates.Recorded e 0x0713 Unit.device ∧ e.coll = d.coll ∧ e.weave = d.weave ∧ e.flags = d.flags) ∧
    (m.step = d.coll.voteStep → src ∈ d.collHead.voteChildren → d.coll.deadlineSeen = false →
      (∃ c ∈ d.collHead.voteChildren, c ≠ src ∧ ∀ u ∈ d.coll.ups, u.1 ≠ c) →
      Completes (.voteUp src bs) s fun d e =>
        e = { d with coll := { d.coll with ups := (src, bs) :: d.coll.ups.filter fun u =>
          !(u.1 == src && (VoteMsg.ofBytes u.2).step == m.step) } })

/-- The first VOTE_DOWN of the vote step (R364, R366): the new loss scale is the message's, with 0x0708 where the
device's own result differs; the next step's VOTE_DOWN is awaited, and VOTE_LAST holds the message's head. Copies of
another step change nothing; while counting is frozen the message is held. -/
def Sys2Proof.Certificates.VoteComesDown : Prop :=
  ∀ (bs : List Byte) (s : State),
    let d := s.dev
    let m := VoteMsg.ofBytes bs
    d.hasColl = true →
    (m.step ≠ d.coll.downStep → Completes (.voteDown bs) s fun d e => e = d) ∧
    (m.step = d.coll.downStep → d.frozen = true → Completes (.voteDown bs) s fun d e =>
      e = { d with coll := { d.coll with heldDown := some bs } }) ∧
    (m.step = d.coll.downStep → d.frozen = false → d.get Ent.snapInterval = 0 → (d.scaleNext m).2 < 2 ^ 32 →
      Completes (.voteDown bs) s fun d e =>
        e.get Ent.lossScale = m.scale ∧ e.get Ent.lsCleanSteps = (d.scaleNext m).2 ∧ e.coll.downStep = m.step + 1 ∧
        e.coll.heldDown = none ∧ (∀ u ∈ e.coll.upsSent, m.step < u.step) ∧ e.get Ent.voteLast = leNat (bs.take 32) ∧
        ((d.scaleNext m).1 ≠ m.scale → ∃ r ∈ e.tack.faults, r.code = 0x0708) ∧
        (∀ b, b < 8 → d.hasPart b = true →
          (e.burner b).marked = (d.burner b).marked ++ [⟨m.step, m.skip, false, true, false, 0⟩]) ∧
        (∀ p, e.panel p = d.panel p) ∧ e.coll.rounds = d.coll.rounds)

/-- REPLICA_VOID of the present step makes the device withhold, with 0x0709, and of another step is only counted (R356,
R373); REDUCE_REPLAY of a parent re-sends its kept VOIDs of the step, marked as a replay, and where it keeps none changes
nothing (R370). -/
def Sys2Proof.Certificates.ReplicaMessages : Prop :=
  ∀ s : State,
    let d := s.dev
    d.hasColl = true →
    (d.inState [St.running, St.held, St.braced] = true → Completes (.replicaVoid d.step) s fun d e =>
      Certificates.Recorded e 0x0709 Unit.device ∧ e.withheld = true ∧ e.lateMode = true ∧
      e.coll.rounds = d.coll.rounds ∧ e.mem = d.mem ∧ e.weave = d.weave) ∧
    (∀ step, step ≠ d.step → Completes (.replicaVoid step) s fun d e => e = d.bump Ent.lateCounts 24 8 1) ∧
    (∀ src step x, d.coll.upsSent = [] → d.coll.sent = [x] → x.kind = 3 → x.step = step →
      (d.nodeRec x.node).parent = src → Completes (.reduceReplay src step) s fun d e =>
        Certificates.Sends d e FlitType.reduce 2 d.pat.jobTag src false
          (reduceHead (d.nodeRec x.node).tree x.round 3 step 0 0 (d.nodeRec x.node).parentSlot true x.beat) ∧
        e.coll = d.coll ∧ e.mem = d.mem) ∧
    (∀ src step, d.coll.upsSent = [] → (∀ x ∈ d.coll.sent, x.step ≠ step) →
      Completes (.reduceReplay src step) s fun d e => e = d)

/-! ### Burnishers -/

namespace Sys2Proof.Certificates
open Sys2Proof.Machine

/-- A command of a Burnisher reaches no panel, no island, no collective and, of the dictionary, at most ks. -/
def OnlyBurnisher (d e : Dev) (ks : List Nat) : Prop :=
  (∀ k, k ∉ ks → e.get k = d.get k) ∧ (∀ p, e.panel p = d.panel p) ∧ (∀ i, e.island i = d.island i) ∧ e.flags = d.flags ∧
    e.coll = d.coll ∧ e.pat = d.pat ∧ e.power = d.power

/-- No block of a range of n bytes from a is lost (R277). -/
def NoneLost (d : Dev) (a n : Nat) : Prop := ∀ off len, off + len ≤ n → d.lostIn (a + off) len = []

/-- No block that chunk c of a part writes is lost: its state block, its log slot, its arrays in buffer buf and the places
of its weights (R392). -/
def ChunkWhole (d : Dev) (b c buf : Nat) : Prop :=
  let p := d.part b
  let al := d.partAlgo b
  let e0 := chunkElems * c
  let n := p.chunkLen c
  NoneLost d p.state 256 ∧ NoneLost d (p.slot (d.sb b 8 8)) 0x100000 ∧ NoneLost d (nth 0 p.master buf + 4 * e0) (4 * n) ∧
    (al.usesM = true → NoneLost d (nth 0 p.m buf + 4 * e0) (4 * n)) ∧
    (al.usesV = true → NoneLost d (nth 0 p.v buf + 4 * e0) (4 * n)) ∧
    (p.hasComp = true → NoneLost d (nth 0 p.comp buf + 2 * e0) (2 * n)) ∧
    ∀ k, k < n → NoneLost d (d.elemPlace b (e0 + k)).2.1 2

/-- The entries that show the Burnishers' state blocks (R400). -/
def burnerEntries : List Nat := [Ent.updateCount, Ent.burnisherState, Ent.shardFp, Ent.burnisherFlags]

end Sys2Proof.Certificates

/-- The next marked run of a part starts (R383): with SKIP it touches no memory; otherwise the state block shows RUN in
progress, the step and no chunk committed, and nothing but the state block changes. It waits, with 0x0727, for the
mirror puts of the run before. -/
def Sys2Proof.Certificates.RunOfPartStarts : Prop :=
  ∀ (b : Nat) (k : BurnMark) (rest : List BurnMark) (s : State),
    let d := s.dev
    let x := d.burner b
    let a := (d.part b).state
    b < 8 → x.run = none → x.marked = k :: rest → d.asleep = false → d.hasPart b = true → k.needStart = false →
    (k.needRounds = true → d.rootsClosed k.step = true) → k.freeze = false → k.grad = 0 →
    (x.puts ≠ [] → x.waited = false → Completes (.burnisherRunStart b) s fun d e =>
      e.burner b = { x with waited := true } ∧ Certificates.Recorded e 0x0727 (Unit.billet b) ∧ e.mem = d.mem ∧
      Certificates.OnlyBurnisher d e [Ent.faultClassCounts]) ∧
    (x.puts = [] → x.remirroring = 0 →
      (k.skip = true → Completes (.burnisherRunStart b) s fun d e =>
        e.burner b = { x with run := some k, marked := rest, waited := false } ∧ e.getB Ent.burnisherFlags b 1 = 0 ∧
        e.mem = d.mem ∧ Certificates.OnlyBurnisher d e [Ent.burnisherFlags]) ∧
      (k.skip = false → Certificates.NoneLost d a 256 → Completes (.burnisherRunStart b) s fun d e =>
        e.burner b = { x with run := some k, marked := rest, waited := false } ∧ e.getB Ent.burnisherFlags b 1 = 0 ∧
        e.sb b 6 1 = 1 ∧ e.sb b 20 4 = k.step % 2 ^ 32 ∧ e.sb b 24 4 = 0 ∧ e.sb b 32 8 = 0 ∧
        (∀ y, y < a ∨ a + 256 ≤ y → e.byte y = d.byte y) ∧ e.sb b 16 4 = d.sb b 16 4 ∧
        Certificates.OnlyBurnisher d e Certificates.burnerEntries))

/-- One chunk of a run is committed (R391, R392): the log record of the chunk's slot says COMMITTED with its arrays'
CRC, the state block counts the chunk and advances SEQ, and the run's flags are kept. A run that is over, or that
skips, commits nothing; a lost block of the chunk stops the device with 0x0724. -/
def Sys2Proof.Certificates.ChunkCommits : Prop :=
  ∀ (b : Nat) (k : BurnMark) (s : State),
    let d := s.dev
    let c := d.sb b 24 4
    let p := d.part b
    b < 8 → (d.burner b).run = some k → d.asleep = false → d.power.stackUp = true →
    (k.skip = true ∨ p.chunks ≤ c → Completes (.burnisherChunkCommit b) s fun d e => e = d) ∧
    (k.skip = false → c < p.chunks → d.chunkLost b c (d.sb b 4 1) = true →
      Completes (.burnisherChunkCommit b) s fun d e =>
        Certificates.Recorded e 0x0724 (Unit.billet b) ∧ e.devState = St.faulted ∧ e.mem = d.mem) ∧
    (k.skip = false → c < p.chunks → d.chunkLost b c (d.sb b 4 1) = false → d.mirroring b = false →
      Certificates.ChunkWhole d b c (if k.freeze then 1 - d.sb b 4 1 else d.sb b 4 1) →
      Completes (.burnisherChunkCommit b) s fun d e =>
        let act := d.sb b 4 1
        let u := d.sb b 16 4
        let seq := d.sb b 8 8
        let o := d.chunkCompute b c act u
        let rec_ := logRecord 2 (if k.freeze then 1 - act else act) seq u k.step c o.hi.length o.fp
          (crc32c ((d.chunkArrays b o).flatMap Prod.snd))
        e.sb b 24 4 = (c + 1) % 2 ^ 32 ∧ e.sb b 8 8 = (seq + 1) % 2 ^ 64 ∧
        (p.state + 256 ≤ p.slot seq ∨ p.slot seq + 64 ≤ p.state → e.read (p.slot seq) rec_.length = rec_) ∧
        e.getB Ent.burnisherFlags b 1 = d.getB Ent.burnisherFlags b 1 ||| o.flags.toByte ∧ e.burn = d.burn ∧
        Certificates.OnlyBurnisher d e Certificates.burnerEntries)

/-- A run whose chunks are all committed is complete (R395): FP_PART is the accumulated fingerprint, FP_OUT holds it,
UPDATE_COUNT advances, and with no DONE post nothing leaves. A run with SKIP writes nothing; a run with chunks left
goes on. -/
def Sys2Proof.Certificates.RunOfPartCompletes : Prop :=
  ∀ (b : Nat) (k : BurnMark) (s : State),
    let d := s.dev
    let p := d.part b
    b < 8 → (d.burner b).run = some k → k.freeze = false → bitOf p.done 31 = false → (d.burner b).remirroring = 0 →
    (k.skip = true → Completes (.burnisherRunComplete b) s fun d e =>
      e.burner b = { d.burner b with run := none } ∧ e.mem = d.mem ∧ Certificates.OnlyBurnisher d e []) ∧
    (k.skip = false → d.sb b 24 4 < p.chunks → Completes (.burnisherRunComplete b) s fun d e => e = d) ∧
    (k.skip = false → p.chunks ≤ d.sb b 24 4 → p.fpOut + 8 ≤ p.state ∨ p.state + 256 ≤ p.fpOut →
      Certificates.NoneLost d p.state 256 → Certificates.NoneLost d p.fpOut 8 → d.getB Ent.burnisherFlags b 1 < 2 → Completes (.burnisherRunComplete b) s fun d e =>
        e.burner b = { d.burner b with run := none } ∧ e.sb b 40 8 = d.sb b 32 8 ∧ e.readNat p.fpOut 8 = d.sb b 32 8 ∧
        e.sb b 16 4 = (d.sb b 16 4 + 1) % 2 ^ 32 ∧ e.sb b 6 1 = 2 ∧
        (∀ y, (y < p.state ∨ p.state + 256 ≤ y) → (y < p.fpOut ∨ p.fpOut + 8 ≤ y) → e.byte y = d.byte y) ∧
        Certificates.OnlyBurnisher d e Certificates.burnerEntries)

/-! ### Mirrors and snapshots -/

/-- A drain to host memory ends (R409): with every write acknowledged the header is written again with COMPLETE = 1, the
drained parts' FROZEN is 0xFF and SNAP_STATUS names the step; a write that failed records 0x0737 and leaves the
generation incomplete. -/
def Sys2Proof.Certificates.DrainEnds : Prop :=
  ∀ (x : Drain) (b : Nat) (s : State),
    let d := s.dev
    b < 8 → d.resil.drain = some x → d.get Ent.snapTarget = 1 → x.parts = 2 ^ b → x.ready = 2 ^ b →
    x.headed = true → x.closing = false → d.lostIn ((d.part b).state + 5) 1 = [] →
    ((∀ p ∈ d.weave.pends, ∀ b, p.purpose ≠ .snapshot b) → (∀ b, b < 8 → ∀ q ∈ (d.burner b).toSend, q.kind ≠ 1) →
      x.issued = 2 ^ b → Completes (.snapshotDrainComplete true) s fun d e =>
        e.resil.drain = none ∧ e.getB Ent.snapStatus 4 4 = x.step % 2 ^ 32 ∧ e.getB Ent.snapStatus 16 1 = 0 ∧
        e.sb b 5 1 = 0xFF ∧ (∀ y, y ≠ (d.part b).state + 5 → e.byte y = d.byte y) ∧
        e.resil.hostOut = d.resil.hostOut ++
          [(d.get Ent.snapBase + x.gen * d.get Ent.snapBytes, d.snapHeader x 1)] ∧
        e.weave = d.weave ∧ Certificates.OnlyBurnisher d e (Ent.snapStatus :: Certificates.burnerEntries)) ∧
    (Completes (.snapshotDrainComplete false) s fun d e =>
        e.resil.drain = none ∧ Certificates.Recorded e 0x0737 (Unit.selvage 0) ∧ e.getB Ent.snapStatus 16 1 = 2 ∧
        e.getB Ent.snapStatus 4 4 = d.getB Ent.snapStatus 4 4 ∧ e.sb b 5 1 = 0xFF ∧
        (∀ y, y ≠ (d.part b).state + 5 → e.byte y = d.byte y) ∧
        (∀ b, b < 8 → ∀ q ∈ (e.burner b).toSend, q.kind ≠ 1) ∧ e.resil.hostOut = d.resil.hostOut)

/-- The buddy handshake (R404, R405): MIRROR_HELLO is answered with the first check that fails; an answer other than OK,
or none in its time, records 0x0732 and marks every part broken; OK ends the wait. VOTE_QUERY is answered from the
vote history (R419). -/
def Sys2Proof.Certificates.BuddyHandshake : Prop :=
  ∀ s : State,
    let d := s.dev
    (∀ sender zone stage leaf, Completes (.mirrorHello sender zone stage leaf) s fun d e =>
      Certificates.Sends d e FlitType.control 3 0 sender false
        (leBytes 1 0x31 ++ leBytes 1 (if zone = d.get Ent.powerZone then 1 else if d.pat.loaded = false then 4
            else if stage ≠ d.collHead.stage then 2 else if leaf = d.collHead.leaf then 3 else 0) ++
          leBytes 2 d.deviceId ++ List.replicate 236 0#8) ∧
      e.resil = d.resil ∧ e.mem = d.mem ∧ e.burn = d.burn) ∧
    (∀ src, Completes (.voteQuery src) s fun d e =>
      Certificates.Sends d e FlitType.control 3 0 src false
        (leBytes 1 0x33 ++ leBytes 3 0 ++ leBytes 13 (getBytes (d.get Ent.voteHistory) 0 13) ++ List.replicate 223 0#8) ∧
      e.resil = d.resil ∧ e.mem = d.mem ∧ e.coll = d.coll) ∧
    (∀ t, d.resil.helloAt = some t →
      (∀ status, status ≠ 0 → Completes (.helloAck status) s fun _ e =>
        e.resil.helloAt = none ∧ e.resil.helloOk = false ∧ Certificates.Recorded e 0x0732 Unit.device ∧
        ∀ b, b < 8 → e.hasPart b = true → e.mirrorBroken b = true) ∧
      ((∀ b, b < 8 → (d.burner b).remirroring = 0) → Completes (.helloAck 0) s fun d e =>
        e = { d with resil := { d.resil with helloAt := none, helloOk := true } }) ∧
      (t + d.get Ent.e2eTimeoutUs * clockUs ≤ d.time.clock → Completes .helloTimeout s fun _ e =>
        e.resil.helloAt = none ∧ e.resil.helloOk = false ∧ Certificates.Recorded e 0x0732 Unit.device ∧
        ∀ b, b < 8 → e.hasPart b = true → e.mirrorBroken b = true) ∧
      (d.time.clock < t + d.get Ent.e2eTimeoutUs * clockUs → Completes .helloTimeout s fun d e => e = d)) ∧
    (d.resil.helloAt = none → Completes .helloTimeout s fun d e => e = d)

/-! ### Adoption -/

/-- The phases of an adoption (R418–R422): once every required port is UP and matched the phase is RESTORE; the vote
reply is kept and the reads of the parts' mirror areas leave; when they have ended and some part's mirror cannot be
used, the phase is FAILED with 0x0735 and no part of the device runs. Outside ADOPTING nothing happens. -/
def Sys2Proof.Certificates.AdoptionPhases : Prop :=
  ∀ s : State,
    let d := s.dev
    (d.devState ≠ St.adopting → (∀ u uPrev v, Completes (.voteReply u uPrev v) s fun d e => e = d) ∧
      (Completes .adoptPortsReady s fun d e => e = d) ∧ (Completes .adoptVerify s fun d e => e = d)) ∧
    (d.devState = St.adopting → d.adoptPhase = 2 → d.portsReady = true → Completes .adoptPortsReady s fun d e =>
      e.adoptPhase = 3 ∧ e.mem = d.mem ∧ e.burn = d.burn ∧
      ∀ p, (if d.collHead.voteParent = 0xFFFF then d.collHead.voteChildren.head? else some d.collHead.voteParent) = some p →
        Certificates.Sends d e FlitType.control 3 0 p false (leBytes 1 0x32 ++ List.replicate 239 0#8)) ∧
    (d.devState = St.adopting → d.adoptPhase = 3 → d.resil.voted = none →
      (∀ u uPrev v, Completes (.voteReply u uPrev v) s fun d e =>
        e.resil.voted = some (u, uPrev, v) ∧ e.resil.reads = [] ∧ e.getB Ent.adoptStatus 4 4 = u % 2 ^ 32 ∧
        (d.parts = [] → e.resil.toRead = [] ∧ e.mem = d.mem ∧ e.weave = d.weave))) ∧
    (∀ b u uPrev v, d.devState = St.adopting → d.adoptPhase = 3 → d.resil.voted = some (u, uPrev, v) →
      d.resil.toRead = [] → d.weave.pends = [] → d.parts = [b] → d.mirrorRec b = none →
      Completes .adoptVerify s fun d e =>
        e.adoptPhase = 7 ∧ Certificates.Recorded e 0x0735 (Unit.billet b) ∧ e.getB Ent.adoptStatus 2 2 = 0x0735 ∧
        e.mem = d.mem ∧ e.burn = d.burn ∧ e.coll = d.coll) ∧
    (∀ u uPrev v, d.devState = St.adopting → d.adoptPhase = 3 → d.resil.voted = some (u, uPrev, v) →
      d.resil.toRead = [] → d.weave.pends = [] → d.parts = [] → d.hasColl = false → Completes .adoptVerify s fun d e =>
        e.adoptPhase = 5 ∧ e.get Ent.stepCounter = (if v = 0xFFFFFFFF then d.pat.firstStep else v + 1) % 2 ^ 32 ∧
        e.resil.helloAt = some d.time.clock ∧ e.resil.helloOk = false ∧ e.mem = d.mem)

/-! ### Writes of command entries -/

namespace Sys2Proof.Certificates
open Sys2Proof.Machine

/-- A write of a whole value to entry k, from a path that reaches the Tack, passes every check of its row (R517, R521,
R525, R529). -/
def Accepts (d : Dev) (p : TackPath) (k : Nat) (bs : List Byte) : Prop :=
  d.reaches p = true ∧ ∃ row, entRow k = some row ∧ d.writeStatus p row bs = Status.ok

/-- A write c of the bytes bs to entry k, where it passes every check of its row, completes with the status st, and
nothing stays staged on its path; P says how the device after it differs. -/
def Writes (c : Instr) (p : TackPath) (k : Nat) (bs : List Byte) (s : State) (st : Nat) (P : Dev → Dev → Prop) : Prop :=
  Accepts s.dev p k bs → Completes c s fun d e =>
    e.tack.lastResponse = response 2 st k 0 0 (entryTotal k) [] ∧ (e.path p).stage = none ∧ P d e

/-- The same for the number v. -/
def WritesNat (c : Instr) (p : TackPath) (k v : Nat) (s : State) (st : Nat) (P : Dev → Dev → Prop) : Prop :=
  Writes c p k (leBytes (entSize k) v) s st P

end Sys2Proof.Certificates

/-- OWNER (R528, R530): a value that differs takes its place, is counted and shown in OWNER_LOG with the time and the
path, and raises host event 3; a seizure by the Bridle records 0x0930 and discards what the host had staged. -/
def Sys2Proof.Certificates.OwnerChanges : Prop :=
  ∀ (p : TackPath) (v : Nat) (s : State), v < 256 →
    Certificates.WritesNat (.ownerWrite p v) p Ent.owner v s Status.ok fun d e =>
      OnlyTack [Ent.owner, Ent.ownerLog, Ent.faultClassCounts] d e ∧ e.get Ent.owner = v ∧
      (v = d.get Ent.owner → OnlyTack [] d e) ∧
      (v ≠ d.get Ent.owner →
        e.getB Ent.ownerLog 0 4 = satAdd (2 ^ 32 - 1) (d.getB Ent.ownerLog 0 4) 1 ∧
        e.getB Ent.ownerLog 8 12 = d.timeNow ∧
        e.getB Ent.ownerLog 20 1 = (match p with | .host => 1 | .bridle => 2) ∧ bitOf e.tack.eventCause 3 = true ∧
        (v = 2 → Certificates.Recorded e 0x0930 Unit.bridle ∧ ∀ x, d.tack.host.stage = some x →
          e.tack.host.stage = some { x with data := [], dropped := true }))

/-- Clears: STICKY_CLEAR zeroes every flag set and STICKY_LAST (R44); FAULT_LOG_CLEAR empties the log and keeps its
numbering (R547); FAULT_N_CLEAR releases the latch (R548); TALLY_CLEAR zeroes the named groups and no other (R601). -/
def Sys2Proof.Certificates.ClearsClear : Prop :=
  ∀ (p : TackPath) (s : State),
    (Certificates.WritesNat (.stickyClear p 1) p Ent.stickyClear 1 s Status.ok fun d e =>
      OnlyTack [Ent.stickyLast] { d with flags := { d.flags with sets := [] } } e ∧ e.get Ent.stickyLast = 0) ∧
    (Certificates.WritesNat (.stickyClear p 0) p Ent.stickyClear 0 s Status.ok fun d e => OnlyTack [] d e) ∧
    (Certificates.WritesNat (.faultLogClear p 1) p Ent.faultLogClear 1 s Status.ok fun d e =>
      OnlyTack [] d e ∧ e.tack.faults = [] ∧ e.tack.cleared = d.tack.newest ∧ e.tack.newest = d.tack.newest ∧
      e.tack.newestRec = d.tack.newestRec) ∧
    (Certificates.WritesNat (.faultNClear p 1) p Ent.faultNClear 1 s Status.ok fun d e =>
      OnlyTack [] d e ∧ e.tack.faultNLatched = false ∧ e.tack.faults = d.tack.faults) ∧
    (∀ v, v < 2 ^ 32 → Certificates.WritesNat (.tallyClear p v) p Ent.tallyClear v s Status.ok fun d e =>
      OnlyTack [] d e ∧
      (∀ n g, tallyGroup n = some g →
        sget 0 e.tally.counters n = if bitOf v g then 0 else sget 0 d.tally.counters n) ∧
      e.tally.dumpSeq = (if bitOf v 29 then 0 else d.tally.dumpSeq) ∧
      e.tally.sampleWrite = (if bitOf v 30 then 0 else d.tally.sampleWrite) ∧
      e.tally.sampleRead = (if bitOf v 30 then 0 else d.tally.sampleRead))

/-- Steps and time: STEP_REBASE takes its value off the step numbers and leaves every start beat (R211); RUN_START_STEP
is written, and where a loaded device's start beat for it is past, 0x0508 is recorded (R228); TIME_SET_S sets the
clock's seconds at once in free run and otherwise waits for the next edge (R507). -/
def Sys2Proof.Certificates.StepsAndSeconds : Prop :=
  ∀ (p : TackPath) (v : Nat) (s : State),
    (v < 2 ^ 32 → Certificates.WritesNat (.stepRebase p v) p Ent.stepRebase v s Status.ok fun d e =>
      OnlyTack [Ent.stepCounter] { d with pat := e.pat, contract := e.contract } e ∧
      e.get Ent.stepCounter = (d.get Ent.stepCounter - v) % 2 ^ 32 ∧ e.pat.firstStep = d.pat.firstStep - v ∧
      e.pat.lastStep = d.pat.lastStep - v ∧ (∀ k, v ≤ k → e.startBeatOf (k - v) = d.startBeatOf k)) ∧
    (v < 2 ^ 32 → Certificates.WritesNat (.runStartStep p v) p Ent.runStartStep v s Status.ok fun d e =>
      let start := if v = 0 then d.pat.firstStep else v
      let past := d.inState [St.loaded, St.adopting] = true ∧ d.pat.loaded = true ∧
        d.startBeat start ≤ ((d.get Ent.logicalBeat : Nat) : Int)
      e.get Ent.runStartStep = v ∧ (¬ past → OnlyTack [Ent.runStartStep] d e) ∧
      (past → Certificates.Recorded e 0x0508 Unit.device ∧
        OnlyTack [Ent.runStartStep, Ent.faultClassCounts, Ent.stepCounter, Ent.faultStep] { d with contract := e.contract } e)) ∧
    (v < 2 ^ 48 → Certificates.WritesNat (.timeSetS p v) p Ent.timeSetS v s Status.ok fun d e =>
      OnlyTack [] { d with time := e.time } e ∧
      (d.timeSource = 3 → e.time.clock = v * clockSecond + d.time.clock % clockSecond ∧ e.time.setPending = none) ∧
      (d.timeSource ≠ 3 → e.time = { d.time with setPending := some v }))

/-- PANEL_UNFENCE resets and tests a panel (R83, R86): one that passes is no longer fenced; one that fails is fenced. No
other panel changes. -/
def Sys2Proof.Certificates.PanelUnfenced : Prop :=
  ∀ (p : TackPath) (v : Nat) (env : TackEnv) (s : State), v < 128 →
    Certificates.WritesNat (.panelUnfence p v env) p Ent.panelUnfence v s Status.ok fun d e =>
      e.fenced v = !env.panelPasses ∧ (∀ q, q < 128 → q ≠ v → e.fenced q = d.fenced q) ∧
      (e.panel v).halted = false ∧ (e.panel v).frozen = false ∧ (e.panel v).held = none ∧
      (∀ q, q ≠ v → e.panel q = d.panel q) ∧ (∀ a, e.byte a = d.byte a) ∧ d.SameFar e ∧
      (env.panelPasses = false → d.fenced v = false →
        Certificates.Recorded e 0x0210 v ∧ bitOf (e.get Ent.panelMask) v = false)

/-! ### State commands -/

/-- STATE_COMMAND in the states that accept it, with no command pending (R413, R416, R417, R429, R463, R532, R533): each
code's transition, with STATE_CMD_STATUS complete or pending. -/
def Sys2Proof.Certificates.StateCommands : Prop :=
  ∀ (p : TackPath) (s : State),
    let d := s.dev
    let does (c : Instr) (code : Nat) (P : Dev → Dev → Prop) : Prop :=
      Certificates.WritesNat c p Ent.stateCommand code s Status.ok P
    fieldOf (d.get Ent.stateCmdStatus) 15 8 ≠ 1 →
    (d.inState [St.loaded, St.held, St.adopting] = true → does (.stateUnload p) 1 fun _ e =>
      e.devState = St.ready ∧ e.pat.loaded = false ∧ e.get Ent.patternDigest = 0 ∧ e.weave.loom = [] ∧
      e.get Ent.stateCmdStatus = 0x201) ∧
    (d.devState = St.ready → d.pat.loaded = false → d.get Ent.panelFenced = 0 → does (.stateSpare p) 2 fun d e =>
      e.devState = St.spare ∧ e.get Ent.stateCmdStatus = 0x202 ∧ e.mem = d.mem ∧ e.panels = d.panels) ∧
    (d.devState = St.spare → d.planOk = true → does (.stateAdopt p) 3 fun d e =>
      e.devState = St.ready ∧ e.get Ent.coordinate = d.getB Ent.adoptPlan 0 4 ∧
      e.get Ent.portMap = d.getB Ent.adoptPlan 4 4 ∧ e.resil.adoptPending = true ∧ e.adoptPhase = 1 ∧
      e.get Ent.stateCmdStatus = 0x203 ∧ e.mem = d.mem) ∧
    (d.inState [St.loaded, St.running, St.held, St.adopting, St.spare, St.stowed] = true →
      does (.stateRetire p) 4 fun _ e =>
        e.devState = St.retired ∧ Certificates.Recorded e 0x073B Unit.device ∧ e.get Ent.portEnable = 0 ∧
        e.get Ent.stateCmdStatus = 0x204) ∧
    (d.inState [St.retired, St.faulted] = true → does (.stateReinstate p) 5 fun d e =>
      e.devState = St.configured ∧ e.pat.loaded = false ∧ e.power.stackUp = false ∧ e.get Ent.resetCause = 4 ∧
      e.mem = [] ∧ e.weave.ports = d.weave.ports ∧ e.get Ent.stateCmdStatus = 0x105) ∧
    (d.devState = St.spare → does (.stateUnspare p) 6 fun d e =>
      e.devState = St.ready ∧ e.get Ent.stateCmdStatus = 0x206 ∧ e.mem = d.mem ∧ e.panels = d.panels) ∧
    (d.inState [St.loaded, St.running, St.held, St.adopting, St.braced] = true → does (.stateStow p) 7 fun d e =>
      e.devState = St.stowed ∧ e.power.stowing = true ∧ e.power.commanded = true ∧ 4 ∈ e.power.causes ∧
      e.ownHold.isSome = true ∧ Certificates.Recorded e 0x0102 Unit.device ∧ e.get Ent.stateCmdStatus = 0x107 ∧
      e.mem = d.mem) ∧
    (d.devState = St.stowed → does (.stateResume p) 8 fun d e =>
      OnlyTack [Ent.stateCmdStatus] { d with power := { d.power with resumeGiven := true } } e ∧
      e.get Ent.stateCmdStatus = 0x108)

/-- STATE_COMMAND where its code's states do not hold, or while another command is pending, completes with STATE and
changes nothing (R532, R533). -/
def Sys2Proof.Certificates.StateCommandsRefused : Prop :=
  ∀ (p : TackPath) (s : State),
    let d := s.dev
    let refused (c : Instr) (code : Nat) : Prop :=
      Certificates.WritesNat c p Ent.stateCommand code s Status.state fun d e => OnlyTack [] d e
    (d.devState = St.running → refused (.stateUnload p) 1 ∧ refused (.stateSpare p) 2 ∧ refused (.stateUnspare p) 6 ∧
      refused (.stateReinstate p) 5 ∧ refused (.stateResume p) 8) ∧
    (d.devState = St.ready → refused (.stateRetire p) 4 ∧ refused (.stateStow p) 7) ∧
    (fieldOf (d.get Ent.stateCmdStatus) 15 8 = 1 → refused (.stateUnload p) 1 ∧ refused (.stateStow p) 7)

/-! ### Resets and low-power states from the Tack -/

/-- RESET_COMMAND (R483–R485): a cold reset leaves memory zero, no Pattern and, with RESET_N held or no REFCLK, TRIMMED,
else CONFIGURED; a warm reset from READY, SPARE, RETIRED or FAULTED keeps the links and leaves CONFIGURED, and elsewhere
is refused with STATE; a stack reset takes the stack down and leaves memory. Each shows its cause. -/
def Sys2Proof.Certificates.TackResets : Prop :=
  ∀ (p : TackPath) (env : TackEnv) (s : State),
    let d := s.dev
    (d.boot.trimmed = true → Certificates.WritesNat (.resetCold p env) p Ent.resetCommand 1 s Status.ok fun d e =>
      e.devState = (if d.power.resetHeld || !d.boot.refclk then St.trimmed else St.configured) ∧ e.mem = [] ∧ e.panels = [] ∧
      e.pat.loaded = false ∧ e.power.stackUp = false ∧ e.get Ent.resetCause = 2 ∧
      e.boot.flash = d.boot.flash) ∧
    (d.inState [St.ready, St.spare, St.retired, St.faulted] = true →
      Certificates.WritesNat (.resetWarm p) p Ent.resetCommand 2 s Status.ok fun d e =>
        e.devState = St.configured ∧ e.mem = [] ∧ e.panels = [] ∧ e.pat.loaded = false ∧ e.power.stackUp = false ∧
        e.get Ent.resetCause = 3 ∧ e.weave.ports = d.weave.ports ∧ e.boot.flash = d.boot.flash) ∧
    (d.inState [St.ready, St.spare, St.retired, St.faulted] = false →
      Certificates.WritesNat (.resetWarm p) p Ent.resetCommand 2 s Status.state fun d e => OnlyTack [] d e) ∧
    (d.inState [St.braced, St.stowed, St.standby, St.faulted, St.sealed, St.trimmed] = false → d.get Ent.lpState ≠ 2 →
      Certificates.WritesNat (.resetStack p) p Ent.resetCommand 3 s Status.ok fun d e =>
        e.power.stackUp = false ∧ e.mem = d.mem ∧ e.devState = d.devState ∧
        (d.power.stackUp = true → e.get Ent.resetCause = 5 ∧ e.getB Ent.stackResetStatus 0 1 = 1 ∧
          Certificates.Recorded e 0x0109 Unit.device ∧
          (d.pat.loaded = true → d.inState [St.loaded, St.running, St.held, St.adopting] = true → e.reloadState = 1)))

/-- LP_COMMAND (R488): L1 stops the stack's clocks in READY, LOADED and SPARE; L2 and L3, from READY, take the stack down,
with its UP ports in LPI or with the periphery off in STANDBY; L0 undoes L1 and L2, and only the Bridle wakes L3. -/
def Sys2Proof.Certificates.LowPower : Prop :=
  ∀ (p : TackPath) (s : State),
    let d := s.dev
    (d.get Ent.lpState = 0 → d.inState [St.ready, St.loaded, St.spare] = true →
      Certificates.WritesNat (.lpL1 p) p Ent.lpCommand 1 s Status.ok fun d e =>
        OnlyTack [Ent.lpState] { d with power := { d.power with gatedAt := some d.time.clock } } e ∧ e.clocked = false) ∧
    (d.get Ent.lpState = 0 → d.devState = St.ready →
      (Certificates.WritesNat (.lpL2 p) p Ent.lpCommand 2 s Status.ok fun d e =>
        e.get Ent.lpState = 2 ∧ e.power.stackUp = false ∧ e.mem = d.mem ∧
        (∀ i, i < 8 → e.portState i = if d.portState i = PortSt.up then PortSt.lpi else d.portState i)) ∧
      (Certificates.WritesNat (.lpL3 p) p Ent.lpCommand 3 s Status.ok fun _ e =>
        e.get Ent.lpState = 3 ∧ e.devState = St.standby ∧ e.power.stackUp = false ∧ e.power.endpoint = false ∧ e.mem = [])) ∧
    (d.get Ent.lpState = 0 → Certificates.WritesNat (.lpL0 p) p Ent.lpCommand 0 s Status.ok fun d e => OnlyTack [] d e) ∧
    (d.get Ent.lpState = 1 → Certificates.WritesNat (.lpL0 p) p Ent.lpCommand 0 s Status.ok fun _ e =>
      d.weave.held = [] → e.get Ent.lpState = 0 ∧ e.power.gatedAt = none) ∧
    (d.get Ent.lpState = 2 → Certificates.WritesNat (.lpL0 p) p Ent.lpCommand 0 s Status.ok fun d e =>
      e.get Ent.lpState = 0 ∧ e.mem = d.mem ∧
      (∀ i, i < 8 → e.portState i = if d.portState i = PortSt.lpi then PortSt.up else d.portState i)) ∧
    (d.get Ent.lpState = 3 → p = .host → Certificates.WritesNat (.lpL0 p) p Ent.lpCommand 0 s Status.state fun d e =>
      OnlyTack [] d e)

/-! ### Holds and restores from the Tack -/

/-- HOLD_COMMAND and HOLD_RELEASE (R464, R468): the command's cause is in the device's causes and its own hold stands; the
end of the last cause releases the own hold at a raw boundary at least 40 µs ahead; HOLD_RELEASE releases the hold of the
device it names, or every hold. -/
def Sys2Proof.Certificates.HoldCommands : Prop :=
  ∀ (p : TackPath) (s : State),
    let d := s.dev
    (Certificates.WritesNat (.holdCommandAdd p) p Ent.holdCommand 1 s Status.ok fun d e =>
      4 ∈ e.power.causes ∧ e.ownHold.isSome = true ∧ e.mem = d.mem ∧
      (d.devState = St.running → d.ownHold = none → e.devState = St.held)) ∧
    (∀ h, d.power.causes = [4] → d.power.holds = [h] → h.origin = d.deviceId → h.resume = none →
      Certificates.WritesNat (.holdCommandEnd p) p Ent.holdCommand 2 s Status.ok fun d e =>
        e.power.causes = [] ∧ e.power.holds = [{ h with resume := some d.resumeAt }] ∧ e.mem = d.mem ∧
        (0 < d.beatUnits → d.time.clock + 40 * clockUs ≤ d.resumeAt * d.beatUnits)) ∧
    (∀ h v, v < 0xFFFF → d.power.holds = [h] → h.origin = v →
      Certificates.WritesNat (.holdRelease p v) p Ent.holdRelease v s Status.ok fun d e =>
        e.power.holds = [{ h with resume := some d.resumeAt }] ∧ e.mem = d.mem) ∧
    (d.power.holds ≠ [] → Certificates.WritesNat (.holdRelease p 0xFFFF) p Ent.holdRelease 0xFFFF s Status.ok fun d e =>
      e.power.holds = d.power.holds.map (fun h => { h with resume := some d.resumeAt }) ∧ e.power.causes = [] ∧ e.mem = d.mem)

/-- RESIL_COMMAND (R423–R426): a restore in LOADED takes the copy that is valid, and shows it, or shows that there is
none; WITNESS is armed after a restore; REMIRROR marks every part and asks the buddy. In other states each is refused
with STATE and 0x0733. -/
def Sys2Proof.Certificates.ResilienceCommands : Prop :=
  ∀ (p : TackPath) (env : TackEnv) (s : State),
    let d := s.dev
    let n := d.get Ent.restoreStep
    (d.devState = St.loaded →
      (env.image = none → Certificates.WritesNat (.restoreTarget p env) p Ent.resilCommand 1 s Status.ok fun d e =>
        e.getB Ent.snapStatus 18 1 = 2 ∧ e.mem = d.mem ∧ e.resil.restored = d.resil.restored) ∧
      (∀ img, env.image = some img → d.targetValid n img = true →
        Certificates.WritesNat (.restoreTarget p env) p Ent.resilCommand 1 s Status.ok fun _ e =>
          e.getB Ent.snapStatus 18 1 = 1 ∧ e.resil.restored = some n ∧ e.get Ent.lossScale = leAt img 16 4 ∧
          e.get Ent.lsCleanSteps = leAt img 20 4 ∧ e.resil.witnessRows = imageRows img) ∧
      (d.localExists n = true → d.localValid = true → env.image = none →
        Certificates.WritesNat (.restoreLocal p env) p Ent.resilCommand 2 s Status.ok fun d e =>
          e.getB Ent.snapStatus 18 1 = 1 ∧ e.resil.restored = some n ∧ e.get Ent.lossScale = d.get Ent.lossScale) ∧
      (d.localExists n = false → env.image = none →
        Certificates.WritesNat (.restoreLocal p env) p Ent.resilCommand 2 s Status.ok fun d e =>
          e.getB Ent.snapStatus 18 1 = 2 ∧ e.mem = d.mem) ∧
      (d.resil.restored.isSome = true → Certificates.WritesNat (.witness p) p Ent.resilCommand 3 s Status.ok fun d e =>
        OnlyTack [] { d with resil := { d.resil with armed := true } } e) ∧
      (d.resil.restored = none → Certificates.WritesNat (.witness p) p Ent.resilCommand 3 s Status.state fun d e =>
        OnlyTack [Ent.faultClassCounts] d e ∧ Certificates.Recorded e 0x0733 Unit.device)) ∧
    (d.inState [St.loaded, St.running] = true → Certificates.WritesNat (.remirror p) p Ent.resilCommand 4 s Status.ok fun d e =>
      e.resil.helloAt = some d.time.clock ∧ e.resil.helloOk = false ∧ e.mem = d.mem ∧
      ∀ b, b < 8 → d.hasPart b = true → (e.burner b).remirroring = 1) ∧
    (d.devState = St.ready →
      (Certificates.WritesNat (.remirror p) p Ent.resilCommand 4 s Status.state fun d e =>
        OnlyTack [Ent.faultClassCounts] d e ∧ Certificates.Recorded e 0x0733 Unit.device) ∧
      (Certificates.WritesNat (.restoreTarget p env) p Ent.resilCommand 1 s Status.state fun d e =>
        OnlyTack [Ent.faultClassCounts] d e ∧ Certificates.Recorded e 0x0733 Unit.device))

/-! ### Flash, keys and fuses -/

/-- FLASH_DATA programs its bytes at FLASH_OFFSET, which advances past them; FLASH_ERASE sets one 64 KiB sector to 0xFF.
Neither touches another byte; a range past the slots, or of the slot in use, is refused with VALUE_REFUSED and nothing
changes (R564). -/
def Sys2Proof.Certificates.FlashWrites : Prop :=
  ∀ (p : TackPath) (env : TackEnv) (s : State), env.flashFails = false →
    let d := s.dev
    let at_ (x : Dev) (k : Nat) : Byte := sget 0xFF#8 x.boot.flash k
    (∀ bs, let a := d.get Ent.flashOffset
      (d.flashRefused a bs.length = false → Certificates.Writes (.flashData p bs env) p Ent.flashData bs s Status.ok fun d e =>
        OnlyTack [Ent.flashOffset] { d with boot := e.boot } e ∧ e.get Ent.flashOffset = (a + bs.length) % 2 ^ 32 ∧
        (∀ k, k < bs.length → at_ e (a + k) = nth 0#8 bs k) ∧ (∀ k, k < a ∨ a + bs.length ≤ k → at_ e k = at_ d k)) ∧
      (d.flashRefused a bs.length = true →
        Certificates.Writes (.flashData p bs env) p Ent.flashData bs s Status.valueRefused fun d e => OnlyTack [] d e)) ∧
    (∀ v, v < 2 ^ 32 → let a := v / 65536 * 65536
      (d.flashRefused a 65536 = false →
        Certificates.WritesNat (.flashErase p v env) p Ent.flashErase v s Status.ok fun d e =>
          OnlyTack [] { d with boot := e.boot } e ∧
          ∀ k, at_ e k = if a ≤ k ∧ k < a + 65536 then 0xFF#8 else at_ d k) ∧
      (d.flashRefused a 65536 = true →
        Certificates.WritesNat (.flashErase p v env) p Ent.flashErase v s Status.valueRefused fun d e => OnlyTack [] d e))

/-- MGMT_KEY is in force from its write on, and of the flash only the key store's record changes (R566). -/
def Sys2Proof.Certificates.KeyStored : Prop :=
  ∀ (p : TackPath) (bs : List Byte) (env : TackEnv) (s : State), env.flashFails = false → bs.length = 32 →
    Certificates.Writes (.mgmtKey p bs env) p Ent.mgmtKey bs s Status.ok fun d e =>
      OnlyTack [Ent.mgmtKey] { d with boot := e.boot } e ∧ e.get Ent.mgmtKey = leNat bs ∧
      (∀ k, k < 0x3000000 ∨ 0x3002000 ≤ k → sget 0xFF#8 e.boot.flash k = sget 0xFF#8 d.boot.flash k)

/-- ROLLBACK_ADVANCE and KEY_REVOKE burn fuses and change nothing of the device (R567): the rollback count reaches that of
the image in use and never falls; the named slot's revoke bit is set, unless the slot signed the image in use or the
other slot is revoked. Outside READY both complete with STATE, and no command undoes what they burnt. -/
def Sys2Proof.Certificates.FusesBurn : Prop :=
  ∀ (p : TackPath) (s : State),
    let d := s.dev
    let burns (c : Instr) (k v st : Nat) (g : Fuses) : Prop :=
      d.boot.vstby = true → Certificates.Accepts d p k (leBytes 1 v) →
      ∃ e, exec c s = .next { s.after e with fuses := g } ∧ OnlyTack [] d e ∧
        e.tack.lastResponse = response 2 st k 0 0 (entryTotal k) []
    burns (.rollbackAdvance p 1) Ent.rollbackAdvance 1 Status.ok
      { s.fuses with rollback := max s.fuses.rollback d.boot.imageRollback } ∧
    burns (.rollbackAdvance p 0) Ent.rollbackAdvance 0 Status.ok s.fuses ∧
    (∀ slot, slot < 2 →
      (d.boot.keySlot ≠ slot → bitOf s.fuses.revoked (1 - slot) = false →
        burns (.keyRevoke p slot) Ent.keyRevoke slot Status.ok
          { s.fuses with revoked := s.fuses.revoked ||| 1 <<< slot }) ∧
      (d.boot.keySlot = slot ∨ bitOf s.fuses.revoked (1 - slot) = true →
        burns (.keyRevoke p slot) Ent.keyRevoke slot Status.valueRefused s.fuses)) ∧
    (d.boot.vstby = true → d.reaches p = true → d.devState ≠ St.ready → ∀ v, v < 256 → ∀ q ∈ [(Instr.rollbackAdvance p v, Ent.rollbackAdvance),
      (Instr.keyRevoke p v, Ent.keyRevoke)], ∃ e, exec q.1 s = .next (s.after e) ∧ OnlyTack [] d e ∧
        e.tack.lastResponse = response 2 Status.state q.2 0 0 (entryTotal q.2) []) ∧
    ∀ c t, exec c s = .next t → s.fuses.Kept t.fuses

/-! ### Loads -/

/-- LOAD_COMMAND in READY with an image in a near stack (R573–R575): an image that passes every check is the Pattern in
force and the device is LOADED; one that fails a check records its fault and changes neither the Pattern, the state nor
any byte. A reload after a stack reset keeps the Pattern. The checks are those of a device x that differs from d in the
Tack's own bookkeeping and the counters alone; what faults an image provably has is an opaque of Config (log 9). -/
def Sys2Proof.Certificates.TackLoads : Prop :=
  ∀ (p : TackPath) (env : TackEnv) (s : State),
    let d := s.dev
    let a := d.get Ent.loadAddress
    let n := d.get Ent.loadLength
    let m := Image.ofBytes (d.read a n)
    env.load = .done → a % 4096 = 0 → 256 ≤ n → d.imageInNear a n = true → d.lostIn a n = [] →
    (d.devState = St.ready → d.resil.adoptPending = false →
      Certificates.WritesNat (.loadCommandLoad p env) p Ent.loadCommand 1 s Status.ok fun d e =>
        ∃ x, OnlyTack [] d x ∧
          (x.imageRefused s.fuses m none = none → e.devState = St.loaded ∧ e.pat = m.pattern ∧ e.get Ent.loadStatus = 0 ∧
            e.get Ent.patternDigest = m.digest % 2 ^ 384 ∧ e.power.digest = m.digest ∧ e.coll.rounds = []) ∧
          (∀ v, x.imageRefused s.fuses m none = some v → Certificates.Recorded e v.1 Unit.loader ∧ e.devState = d.devState ∧
            e.pat = d.pat ∧ e.mem = d.mem ∧ e.getB Ent.loadStatus 0 2 = v.1 % 65536)) ∧
    (d.reloadState = 1 →
      Certificates.WritesNat (.loadCommandReload p env) p Ent.loadCommand 2 s Status.ok fun d e =>
        ∃ x, OnlyTack [] d x ∧
          (x.imageRefused s.fuses m (some d.power.digest) = none → e.pat = d.pat ∧ e.get Ent.loadStatus = 0 ∧
            (e.reloadState = 0 ∨ e.reloadState = 3) ∧
            (m.settings.getD [] = [] → e.devState = d.devState ∧
              (e.reloadState = 3 ↔ d.inState [St.running, St.held, St.braced] = true))) ∧
          (∀ v, x.imageRefused s.fuses m (some d.power.digest) = some v → Certificates.Recorded e v.1 Unit.loader ∧
            e.devState = d.devState ∧ e.pat = d.pat ∧ e.mem = d.mem ∧ e.reloadState = 1))

/-- The load ring (R571–R573): LQ_TAIL moves while no more entries wait than the ring holds; the ring is set up while it
is empty; an entry whose image is malformed in its own fields is taken with 0x090A, its STATUS goes to host memory and
the head moves on. -/
def Sys2Proof.Certificates.RingMoves : Prop :=
  ∀ s : State,
    let d := s.dev
    d.power.endpoint = true →
    (∀ v, v < 2 ^ 32 → (v + 2 ^ 32 - d.tack.lqHead) % 2 ^ 32 ≤ d.tack.lqEntries →
      Completes (.lqTailDoorbell v) s fun d e => OnlyTack [] d e ∧ e.tack.lqTail = v ∧ e.tack.lqHead = d.tack.lqHead) ∧
    (∀ v, v < 2 ^ 32 → d.tack.lqEntries < (v + 2 ^ 32 - d.tack.lqHead) % 2 ^ 32 →
      Completes (.lqTailDoorbell v) s fun d e => OnlyTack [] d e ∧ e.tack = d.tack) ∧
    (∀ v, d.tack.lqHead = d.tack.lqTail →
      (isPow2 v = true → v ≤ 256 → Completes (.lqRingConfigWrite 8 v) s fun d e =>
        OnlyTack [] d e ∧ e.tack.lqEntries = v ∧ e.tack.lqBase = d.tack.lqBase) ∧
      (v < 2 ^ 32 → Completes (.lqRingConfigWrite 0 v) s fun d e =>
        OnlyTack [] d e ∧ fieldOf e.tack.lqBase 31 0 = v / 4096 * 4096 ∧
        fieldOf e.tack.lqBase 63 32 = fieldOf d.tack.lqBase 63 32) ∧
      (v < 2 ^ 32 → Completes (.lqRingConfigWrite 4 v) s fun d e =>
        OnlyTack [] d e ∧ fieldOf e.tack.lqBase 63 32 = v ∧ fieldOf e.tack.lqBase 31 0 = fieldOf d.tack.lqBase 31 0)) ∧
    (∀ off v, d.tack.lqHead ≠ d.tack.lqTail → Completes (.lqRingConfigWrite off v) s fun d e =>
      OnlyTack [] d e ∧ e.tack = d.tack) ∧
    (∀ entry img, d.tack.lqHead ≠ d.tack.lqTail → d.tack.lqEntries ≠ 0 → d.power.firstReady = true → img.ends = .done →
      (leAt entry 0 8 % 4096 ≠ 0 → Completes (.loadEntry entry img) s fun d e =>
        e.tack.lqHead = (d.tack.lqHead + 1) % 2 ^ 32 ∧ Certificates.Recorded e 0x090A Unit.loader ∧
        e.resil.hostOut = d.resil.hostOut ++
          [(d.tack.lqBase + 32 * (d.tack.lqHead % d.tack.lqEntries) + 24, leBytes 4 0x090A)] ∧
        e.mem = d.mem ∧ e.pat = d.pat ∧ e.devState = d.devState) ∧
      (leAt entry 0 8 % 4096 = 0 → 256 ≤ leAt entry 8 8 → leAt entry 16 4 = 0 → leAt entry 28 4 = 0 →
        d.devState = St.ready → d.resil.adoptPending = false → Completes (.loadEntry entry img) s fun d e =>
        let m := Image.ofBytes (img.bytes.take (leAt entry 8 8))
        e.tack.lqHead = (d.tack.lqHead + 1) % 2 ^ 32 ∧
        ∃ x, OnlyTack [] d x ∧
          (x.imageRefused s.fuses m none = none →
            e.devState = St.loaded ∧ e.pat = m.pattern ∧ e.get Ent.loadStatus = 0) ∧
          (∀ v, x.imageRefused s.fuses m none = some v →
            Certificates.Recorded e v.1 Unit.loader ∧ e.devState = d.devState ∧ e.pat = d.pat ∧ e.mem = d.mem)))

/-! ### Dictionary messages and their paths -/

namespace Sys2Proof.Certificates
open Sys2Proof.Machine

/-- Entries whose write starts something of its own. -/
def actingEntries : List Nat :=
  [Ent.stateCommand, Ent.resetCommand, Ent.owner, Ent.lpCommand, Ent.holdCommand, Ent.holdRelease, Ent.loadCommand,
    Ent.flashData, Ent.flashErase, Ent.mgmtKey, Ent.timeSetS, Ent.panelUnfence, Ent.stickyClear, Ent.stepRebase,
    Ent.resilCommand, Ent.tallyClear, Ent.faultLogClear, Ent.faultNClear, Ent.loomEntry, Ent.rollbackAdvance, Ent.keyRevoke,
    Ent.portEnable, Ent.portMap, Ent.coordinate, Ent.domainShape, Ent.timeRootPriority, Ent.timeInput, Ent.dumpBase,
    Ent.sampleBase, Ent.runStartStep]

/-- Entries whose value a read computes from the fuses or from the device's units. -/
def computedEntries : List Nat :=
  [Ent.grade, Ent.dieStepping, Ent.serialNumber, Ent.eui64, Ent.bgClass, Ent.keyHash, Ent.secureState, Ent.mgmtKeyStatus,
    Ent.queueState, Ent.fpSets, Ent.loomValid, Ent.loomEntry, Ent.deviceId, Ent.stepFlagSummary, Ent.stickyFlags,
    Ent.holdStatus, Ent.holdTable, Ent.timeNow, Ent.timeStatus, Ent.panelPc, Ent.stashState, Ent.faultLog, Ent.faultNewest,
    Ent.domainSense]

/-- A command of the Tack completes, leaves the fuses, and shows the response r. -/
def Responds (c : Instr) (s : State) (r : List Byte) (P : Dev → Dev → Prop) : Prop :=
  Completes c s fun d e => e.tack.lastResponse = r ∧ P d e

end Sys2Proof.Certificates

/-- WRITE (R517, R519, R523, R525, R526): a whole value that passes its row's checks is the entry's value from then on,
and where the entry starts nothing of its own nothing else of the device changes; a value that a check refuses changes
nothing, and the response gives the check's status; a first segment that is not the last is staged. -/
def Sys2Proof.Certificates.EntriesAreWritten : Prop :=
  ∀ (p : TackPath) (k tag : Nat) (bs : List Byte) (env : TackEnv) (row : EntRow) (s : State),
    let d := s.dev
    d.reaches p = true → entRow k = some row → bs.length ≤ 1024 →
    (d.writeStatus p row bs = Status.ok → k ∉ Certificates.actingEntries →
      Certificates.Responds (.tackWrite p k true 0 bs tag env) s (response 2 Status.ok k 0 tag (entryTotal k) []) fun d e =>
        OnlyTack [k] d e ∧ e.get k = leNat bs % 2 ^ (8 * entSize k) ∧ (e.path p).stage = none) ∧
    (∀ st, d.writeStatus p row bs = st → st ≠ Status.ok →
      Certificates.Responds (.tackWrite p k true 0 bs tag env) s (response 2 st k 0 tag (entryTotal k) []) fun d e =>
        OnlyTack [] d e ∧ (e.path p).stage = none) ∧
    (d.accessStatus row = Status.ok → bs.length ≤ entSize k →
      Certificates.Responds (.tackWrite p k false 0 bs tag env) s (response 2 Status.ok k 0 tag (entryTotal k) []) fun d e =>
        OnlyTack [] d e ∧ (e.path p).stage = some ⟨k, bs, false⟩)

/-- READ of an entry that holds its value, from its start (R523, R524): the response carries as many of its bytes, least
significant first, as LENGTH asks for, and the path keeps the value read. NEXT gives the entry that follows in key order,
or NO_ENTRY after the last. Neither changes an entry. -/
def Sys2Proof.Certificates.EntriesAreRead : Prop :=
  ∀ (p : TackPath) (k tag : Nat) (s : State),
    let d := s.dev
    d.reaches p = true →
    (∀ row len, entRow k = some row → row.access ≠ 4 → stackHeld row = false ∨ d.power.stackUp = true → len ≤ 1024 →
      k ∉ Certificates.computedEntries →
      let value := leBytes (entSize k) (d.get k)
      Certificates.Responds (.dictRead p k len 0 tag) s
        (response 1 Status.ok k 0 tag value.length (value.take (min len value.length))) fun d e =>
        OnlyTack [] d e ∧ (e.path p).snaps = [⟨k, value⟩] ∧ (e.path p).stage = none) ∧
    (∀ row ∈ dictionary, k < row.key → (∀ q ∈ dictionary, k < q.key → row.key ≤ q.key) →
      (∀ q ∈ dictionary, q.key = row.key → q = row) →
      Certificates.Responds (.dictNext p k tag) s
        (response 3 Status.ok row.key 0 tag (entryTotal row.key)
          (leBytes 1 row.typ ++ leBytes 1 row.access ++ leBytes 1 row.retention ++ leBytes 1 (bitNat row.patternWritable) ++
            leBytes 4 row.size)) fun d e => OnlyTack [] d e) ∧
    ((∀ q ∈ dictionary, q.key ≤ k) →
      Certificates.Responds (.dictNext p k tag) s (response 3 Status.noEntry k 0 tag 0 []) fun d e => OnlyTack [] d e)

/-- Which reads are answered (R520): an entry of 0x6000–0x63FF of retention class S completes with NOT_READY while the
stack is down; every other entry that may be read is answered with its bytes, in every state in which VSTBY is good, and a
write-only entry with WRITE_ONLY. -/
def Sys2Proof.Certificates.EntriesAnswered : Prop :=
  ∀ (p : TackPath) (k len tag : Nat) (row : EntRow) (s : State),
    let d := s.dev
    let held : Prop := 0x6000 ≤ k / 256 ∧ k / 256 ≤ 0x63FF ∧ row.retention = 5
    d.reaches p = true → entRow k = some row → len ≤ 1024 →
    (row.access = 4 → Certificates.Responds (.dictRead p k len 0 tag) s
      (response 1 Status.writeOnly k 0 tag (entryTotal k) []) fun d e => OnlyTack [] d e) ∧
    (row.access ≠ 4 → held → d.power.stackUp = false → Certificates.Responds (.dictRead p k len 0 tag) s
      (response 1 Status.notReady k 0 tag (entryTotal k) []) fun d e => OnlyTack [] d e) ∧
    (row.access ≠ 4 → ¬ held ∨ d.power.stackUp = true → ∃ value : List Byte, value.length = entSize k ∧
      Certificates.Responds (.dictRead p k len 0 tag) s
        (response 1 Status.ok k 0 tag (entSize k) (value.take (min len (entSize k)))) fun d e =>
        e.mem = d.mem ∧ e.panels = d.panels ∧ e.devState = d.devState)

/-- OWNER names the path whose writes are accepted (R528, with the entries that R529 takes out): a write of another path
completes with BUSY and changes nothing; one of its own is not refused for OWNER. -/
def Sys2Proof.Certificates.OwnerGates : Prop :=
  ∀ (p : TackPath) (k tag : Nat) (bs : List Byte) (env : TackEnv) (row : EntRow) (s : State),
    let d := s.dev
    let names : Nat := match p with | .host => 1 | .bridle => 2
    d.reaches p = true → entRow k = some row → bs.length ≤ 1024 → d.accessStatus row = Status.ok →
    k ∉ [Ent.owner, Ent.stateCommand, Ent.resetCommand] →
    (d.get Ent.owner ≠ names → Certificates.Responds (.tackWrite p k true 0 bs tag env) s
      (response 2 Status.busy k 0 tag (entryTotal k) []) fun d e => OnlyTack [] d e ∧ (e.path p).stage = none) ∧
    (d.get Ent.owner = names → d.writeStatus p row bs =
      if lengthOk row bs.length = false then Status.size
      else if d.rowOk row (leNat bs) = false then Status.valueRefused else Status.ok)

/-- A doorbell (R536, R537): a submission that is not well formed is refused whole, with 0x0931; the messages of a
well-formed one are answered in order, and MB_STATUS says how many, with the doorbell's sequence. Either raises host
event 0. (The messages named here are those of NEXT; READ and WRITE are other statements'.) -/
def Sys2Proof.Certificates.MailboxAnswers : Prop :=
  ∀ (v : Nat) (envs : List TackEnv) (s : State),
    let d := s.dev
    let len := fieldOf v 12 0
    let seq := fieldOf v 31 16
    d.power.endpoint = true → bitOf d.tack.mbStatus 0 = false →
    (d.submission len = none → Completes (.mbDoorbell v envs) s fun d e =>
      OnlyTack [Ent.faultClassCounts] d e ∧ Certificates.Recorded e 0x0931 Unit.keeper ∧
      e.tack.mbStatus = 6 + seq <<< 16 ∧ e.tack.mbRespLen = 0 ∧ bitOf e.tack.eventCause 0 = true) ∧
    (∀ ms, d.submission len = some ms → (∀ m ∈ ms, m.op = 3 ∧ m.malformed = false) →
      Completes (.mbDoorbell v envs) s fun d e =>
        OnlyTack [] d e ∧ e.tack.mbResponse = (ms.map nextMsg).flatten ∧
        e.tack.mbRespLen = e.tack.mbResponse.length ∧ e.tack.mbStatus = 2 + ms.length <<< 8 + seq <<< 16 ∧
        bitOf e.tack.eventCause 0 = true)

/-- Host writes of BAR0 (R536, R538): EVENT_CAUSE bits written 1 are cleared; MB_REQUEST takes bytes while no submission
is being processed, and no byte outside the write changes; EVENT_ENABLE takes four bits. -/
def Sys2Proof.Certificates.BarZeroWrites : Prop :=
  ∀ s : State,
    let d := s.dev
    d.power.endpoint = true →
    (∀ v, v < 2 ^ 32 → Completes (.eventCauseClear v) s fun d e =>
      OnlyTack [] d e ∧ (∀ b, b < 4 → bitOf e.tack.eventCause b = (bitOf d.tack.eventCause b && !bitOf v b)) ∧
      e.tack.eventEnable = d.tack.eventEnable) ∧
    (∀ off bs, 0x1000 ≤ off → off + bs.length ≤ 0x2000 → off < 0x2000 →
      (bitOf d.tack.mbStatus 0 = false → Completes (.mbRequestWrite off bs) s fun d e =>
        OnlyTack [] d e ∧
        (∀ k, k < bs.length → sget 0#8 e.tack.mbRequest (off - 0x1000 + k) = nth 0#8 bs k) ∧
        (∀ k, k < off - 0x1000 ∨ off - 0x1000 + bs.length ≤ k →
          sget 0#8 e.tack.mbRequest k = sget 0#8 d.tack.mbRequest k)) ∧
      (bitOf d.tack.mbStatus 0 = true → Completes (.mbRequestWrite off bs) s fun d e =>
        OnlyTack [] d e ∧ e.tack = d.tack)) ∧
    (∀ v, v < 2 ^ 32 → Completes (.mbRequestWrite 0x14 (leBytes 4 v)) s fun d e =>
      OnlyTack [] d e ∧ e.tack.eventEnable = v % 16 ∧ e.tack.eventCause = d.tack.eventCause)

/-- Frames at the Bridle port (R539–R541): a frame whose header or messages are not sound, and a request that finds the
queue full, are counted and unanswered; a write in a frame without AUTH is answered AUTH and changes no entry but the
counters; the messages of a frame that is taken are answered in one frame. -/
def Sys2Proof.Certificates.BridleAnswers : Prop :=
  ∀ (bs : List Byte) (envs : List TackEnv) (s : State),
    let d := s.dev
    let counted (d e : Dev) (k : Nat) : Prop := e.getB Ent.bridleCounts (8 * k) 8 = satAdd (2 ^ 64 - 1) (d.getB Ent.bridleCounts (8 * k) 8) 1
    (∀ full, frameMessages bs = none → Completes (.bridleFrame bs full envs) s fun d e =>
      OnlyTack [Ent.bridleCounts] d e ∧ counted d e 0 ∧ counted d e 3 ∧ e.tack.bridleOut = d.tack.bridleOut) ∧
    (∀ ms, frameMessages bs = some ms → leAt bs 3 1 = 1 →
      (Completes (.bridleFrame bs true envs) s fun d e =>
        OnlyTack [Ent.bridleCounts] d e ∧ counted d e 0 ∧ counted d e 3 ∧ e.tack.bridleOut = d.tack.bridleOut) ∧
      (leAt bs 4 1 = 0 → (∃ m ∈ ms, m.op = 2) → bitOf (d.get Ent.bridleEventDest) 144 = false →
        Completes (.bridleFrame bs false envs) s fun d e =>
          OnlyTack [Ent.bridleCounts, Ent.faultClassCounts] d e ∧ counted d e 0 ∧ counted d e 1 ∧
          e.tack.bridleOut = d.tack.bridleOut ++
            [d.bridleFrame 2 ms.length (leAt bs 16 8) (leAt bs 8 8) false
              (ms.map fun m => m.answer Status.auth 0 []).flatten]) ∧
      (leAt bs 4 1 = 0 → (∀ m ∈ ms, m.op = 3 ∧ m.malformed = false) →
        Completes (.bridleFrame bs false envs) s fun d e =>
          OnlyTack [Ent.bridleCounts] d e ∧ counted d e 0 ∧
          e.tack.bridleOut = d.tack.bridleOut ++
            [d.bridleFrame 2 ms.length (leAt bs 16 8) (leAt bs 8 8) false (ms.map nextMsg).flatten]))

/-- The host's accesses through BAR2 (R569, R77, R277, R285): served once READY has been reached and the stack is up; a
read returns the bytes and changes none; a write stores its bytes and no other, where the region takes it; a hole is
answered Unsupported Request, and before READY every access Completer Abort. SAMPLE_READ moves within what the ring
holds (R591). -/
def Sys2Proof.Certificates.BarTwoAccesses : Prop :=
  ∀ s : State,
    let d := s.dev
    d.power.endpoint = true →
    (∀ a n, 0 < n → d.bar2Ready = true → d.region (a + n - 1) ≠ .hole →
      (∀ k, d.region a = .near k → d.guarded a n = false → d.lostIn a n = [] → Completes (.hostBar2Access ⟨.read a n, .none⟩) s fun d e =>
        OnlyTack [] d e ∧ e.tack.bar2Last = some (.data (d.read a n))) ∧
      (∀ i, d.region a = .side i → Completes (.hostBar2Access ⟨.read a n, .none⟩) s fun d e =>
        OnlyTack [] d e ∧ e.tack.bar2Last = some (.data (d.read a n))) ∧
      (∀ q, d.region a = .scratch q ∨ d.region a = .acc q ∨ d.region a = .bundle q →
        Completes (.hostBar2Access ⟨.read a n, .none⟩) s fun d e =>
          OnlyTack [] d e ∧ e.tack.bar2Last =
            some (if d.panelOpen q then .data (d.read a n) else .completerAbort))) ∧
    (∀ a bs, bs ≠ [] → d.bar2Ready = true → d.region (a + bs.length - 1) ≠ .hole →
      let stores (ok : Bool) : Prop := ∀ u, Completes (.hostBar2Access ⟨.write a bs, u⟩) s fun d e =>
        e.tack.bar2Last = some (if ok then .written else .completerAbort) ∧
        (∀ y, e.byte y = if ok then sget 0#8 (memWrite d.mem a bs) y else d.byte y) ∧
        (∀ k, e.get k = d.get k) ∧ (∀ p, e.panel p = d.panel p)
      (∀ k, d.region a = .near k → (d.guarded a bs.length = true → stores false) ∧
        (d.guarded a bs.length = false → d.partialLost a bs.length = false → stores true)) ∧
      (∀ m, d.region a = .deep m → d.partialLost a bs.length = false → stores true) ∧
      (∀ i, d.region a = .side i → stores true) ∧
      (∀ q, d.region a = .scratch q → stores (d.panelOpen q)) ∧
      (∀ q, d.region a = .acc q ∨ d.region a = .bundle q → stores (d.panelOpen q && ((d.panel q).halted || d.devState != St.running)))) ∧
    (∀ a n u, 0 < n → d.bar2Ready = true → d.region a = .hole → Completes (.hostBar2Access ⟨.read a n, u⟩) s fun d e =>
      OnlyTack [] d e ∧ e.tack.bar2Last = some .unsupported) ∧
    (∀ a n u, 0 < n → d.bar2Ready = false → Completes (.hostBar2Access ⟨.read a n, u⟩) s fun d e =>
      OnlyTack [] d e ∧ e.tack.bar2Last = some .completerAbort) ∧
    (∀ v, d.bar2Ready = true →
      (d.tally.sampleRead ≤ v → v ≤ d.tally.sampleWrite → Completes (.sampleReadWrite v) s fun d e =>
        e = { d with tally := { d.tally with sampleRead := v } }) ∧
      (v < d.tally.sampleRead ∨ d.tally.sampleWrite < v → Completes (.sampleReadWrite v) s fun d e => e = d))

/-! ### Holds -/

namespace Sys2Proof.Certificates
open Sys2Proof.Machine

/-- A flooded message leaves by every UP port that carries a direction, but for one (R467). -/
def FloodsHold (d e : Dev) (but : Option Nat) (origin : Nat) (body : List Byte) : Prop :=
  ∀ p, p < 8 → d.portUp p = true → (d.dirOf p).isSome = true → some p ≠ but →
    ∃ o ∈ (e.link p).out, o.cls = 3 ∧ o.vc = 0 ∧ o.closed = true ∧ o.pieces =
      cutFlits ⟨FlitType.control, 3, 0, origin, d.deviceId, 0, true, true, false, 0, 0⟩ body

/-- A command of the power path changes no byte, no panel and no Pattern. -/
def Still (d e : Dev) : Prop := e.mem = d.mem ∧ e.panels = d.panels ∧ e.pat = d.pat ∧ e.coll = d.coll ∧ e.burn = d.burn

end Sys2Proof.Certificates

/-- HOLD from another device (R463, R465, R467, R469): the first copy is in the table, goes on by the other ports, and
makes a RUNNING device HELD; one that comes after its FREEZE_BEAT records 0x0103 and the contribution is withheld; a
further copy changes nothing. -/
def Sys2Proof.Certificates.HoldArrives : Prop :=
  ∀ (port cause origin seq freeze : Nat) (s : State),
    let d := s.dev
    (d.firstSeen 1 origin seq = true → d.power.holds = [] →
      Completes (.hold port cause origin seq freeze) s fun d e =>
        e.power.holds = [⟨origin, seq, freeze, none⟩] ∧ e.firstSeen 1 origin seq = false ∧
        e.devState = (if d.devState = St.running then St.held else d.devState) ∧
        Certificates.FloodsHold d e (some port) origin (holdBytes 1 cause origin seq freeze 0) ∧ Certificates.Still d e ∧
        (d.get Ent.logicalBeat < freeze → e.get Ent.lateStatus = d.get Ent.lateStatus) ∧
        (freeze ≤ d.get Ent.logicalBeat → Certificates.Recorded e 0x0103 Unit.device ∧
          (d.pat.loaded = true → d.inState [St.running, St.held, St.braced, St.stowed, St.adopting] = true →
            e.withheld = true))) ∧
    (d.firstSeen 1 origin seq = false → Completes (.hold port cause origin seq freeze) s fun d e => e = d)

/-- RELEASE and STOW_NOTICE from another device (R468, R469, R473): the first copy goes on by the other ports; a RELEASE
gives its holds their resume boundary, with 0x0104 where that has passed; further copies change nothing. -/
def Sys2Proof.Certificates.ReleaseArrives : Prop :=
  ∀ (port origin seq resume releaser : Nat) (s : State),
    let d := s.dev
    (d.firstSeen 2 origin seq = true → ∀ h, d.power.holds = [h] → h.origin = origin → h.seq = seq →
      Completes (.release port origin seq resume releaser) s fun d e =>
        e.power.holds = [{ h with resume := some resume }] ∧ e.firstSeen 2 origin seq = false ∧
        Certificates.FloodsHold d e (some port) origin (holdBytes 2 0 origin seq resume releaser) ∧
        Certificates.Still d e ∧ e.devState = d.devState ∧
        (resume ≤ d.rawIndex → Certificates.Recorded e 0x0104 Unit.device)) ∧
    (d.firstSeen 2 origin seq = false → Completes (.release port origin seq resume releaser) s fun d e => e = d) ∧
    (d.firstSeen 3 origin seq = true → Completes (.stowNotice port origin seq) s fun d e =>
        e.firstSeen 3 origin seq = false ∧ Certificates.FloodsHold d e (some port) origin (holdBytes 3 0 origin seq 0 0) ∧
        e.power.holds = d.power.holds ∧ Certificates.Still d e ∧ e.devState = d.devState) ∧
    (d.firstSeen 3 origin seq = false → Completes (.stowNotice port origin seq) s fun d e => e = d)

/-- HOLD_QUERY is answered with whether the hold stands, whether counting is frozen, and the own beat; in step 5 of warm
resume the last reply that agrees lets the device go on, and one that does not, or none in time, stops it with 0x0108
(R477, R478). The hold limit is recorded once (R480). -/
def Sys2Proof.Certificates.HoldQueries : Prop :=
  ∀ s : State,
    let d := s.dev
    (∀ src seq, Completes (.holdQuery src seq) s fun d e =>
      Certificates.Sends d e FlitType.control 3 0 src false
        (leBytes 1 5 ++ leBytes 1 (bitNat (d.power.holds.any fun h => h.origin == src && h.seq == seq) + 2 * bitNat d.frozen) ++
          leBytes 6 0 ++ leBytes 8 (d.get Ent.logicalBeat) ++ List.replicate 224 0#8) ∧
      e.power = d.power ∧ Certificates.Still d e) ∧
    (∀ src, d.devState = St.stowed → d.power.awaiting = [src] → d.weave.held = [] → d.power.completions = [] →
      (Completes (.holdReply src true (d.get Ent.logicalBeat)) s fun d e =>
        e.power.awaiting = [] ∧ e.devState = d.power.before ∧ Certificates.Recorded e 0x010B Unit.device ∧
        e.pesBit 5 = false ∧ (∀ i, i < 16 → (e.island i).stretch = (d.island i).thermal) ∧ e.mem = d.mem) ∧
      (∀ active beat, active = false ∨ beat ≠ d.get Ent.logicalBeat → Completes (.holdReply src active beat) s fun d e =>
        e.power.awaiting = [] ∧ e.devState = St.faulted ∧ Certificates.Recorded e 0x0108 Unit.device ∧ e.mem = d.mem) ∧
      (Completes .holdQueryTimeout s fun d e =>
        e.power.awaiting = [] ∧ e.devState = St.faulted ∧ Certificates.Recorded e 0x0108 Unit.device ∧ e.mem = d.mem)) ∧
    (d.power.awaiting = [] → (Completes .holdQueryTimeout s fun d e => e = d) ∧
      (d.holdsMsgs = true ∨ d.weave.held = [] ∧ d.power.completions = [] →
        ∀ src active beat, Completes (.holdReply src active beat) s fun d e => e = d)) ∧
    (d.power.holds ≠ [] → d.power.limit = false → Completes .holdLimit s fun d e =>
      OnlyTack [Ent.faultClassCounts, Ent.powerEventCounts] { d with power := { d.power with limit := true } } e ∧
      Certificates.Recorded e 0x0106 Unit.device) ∧
    (d.power.holds = [] ∨ d.power.limit = true → Completes .holdLimit s fun d e => e = d)

/-! ### VBULK -/

/-- The warn condition (R461, R463, R471, R482): a device in a run braces, stretches every island to code 12 and holds the
domain, with 0x0101; outside a run it only stretches. The clear condition undoes each. -/
def Sys2Proof.Certificates.BraceAndClear : Prop :=
  ∀ s : State,
    let d := s.dev
    (∀ pin mv, mv < 65536 →
      (d.inState [St.loaded, St.running, St.held, St.adopting] = true → Completes (.warnCondition pin mv) s fun d e =>
        e.devState = St.braced ∧ e.power.before = (if d.devState = St.running then St.held else d.devState) ∧
        (∀ i, i < 16 → (e.island i).stretch = 12) ∧ (if pin then 2 else 1) ∈ e.power.causes ∧ e.ownHold.isSome = true ∧
        Certificates.Recorded e 0x0101 Unit.device ∧ e.pesBit 0 = true ∧ e.get Ent.vbulkNowMv = mv ∧ Certificates.Still d e) ∧
      (d.outsideRun = true → d.power.awaiting = [] → Completes (.warnCondition pin mv) s fun d e =>
        e.devState = d.devState ∧ (∀ i, i < 16 → (e.island i).stretch = 12) ∧ e.pesBit 0 = true ∧
        e.power.holds = d.power.holds ∧ Certificates.Still d e)) ∧
    (∀ mv, mv < 65536 →
      (d.devState = St.braced → Completes (.clearCondition mv) s fun d e =>
        e.devState = d.power.before ∧ (∀ i, i < 16 → (e.island i).stretch = (d.island i).thermal) ∧ e.pesBit 0 = false ∧
        1 ∉ e.power.causes ∧ 2 ∉ e.power.causes ∧ 5 ∉ e.power.causes ∧ Certificates.Still d e) ∧
      (d.outsideRun = true → Completes (.clearCondition mv) s fun d e =>
        e.devState = d.devState ∧ (∀ i, i < 16 → (e.island i).stretch = (d.island i).thermal) ∧ e.pesBit 0 = false ∧
        e.power.holds = d.power.holds ∧ Certificates.Still d e))

/-- VBULK falls on (R463, R473, R482, R485, R486, R491): the brace timer and the stow threshold stow a braced device; the
stow threshold stows a device in a run; outside a run they take the stack down with no image; below the reset threshold
the stack goes down at once, with 0x0107, its memory left as it is. -/
def Sys2Proof.Certificates.PowerFalls : Prop :=
  ∀ s : State,
    let d := s.dev
    (d.devState = St.braced → Completes .braceTimerExpiry s fun d e =>
      e.devState = St.stowed ∧ e.power.stowing = true ∧ 1 ∈ e.power.causes ∧ Certificates.Recorded e 0x0102 Unit.device ∧
      Certificates.Still d e) ∧
    (∀ mv, d.inState [St.loaded, St.running, St.held, St.adopting, St.braced] = true →
      Completes (.stowNowCrossing mv) s fun d e =>
        e.devState = St.stowed ∧ e.power.stowing = true ∧ 5 ∈ e.power.causes ∧ Certificates.Recorded e 0x0102 Unit.device ∧
        Certificates.Still d e) ∧
    (d.outsideRun = true → d.power.stackUp = true →
      (∀ mv, Completes (.stowNowCrossing mv) s fun d e =>
        e.power.stackUp = false ∧ Certificates.Recorded e 0x0109 Unit.device ∧ e.mem = d.mem ∧ e.devState = d.devState) ∧
      (d.pesBit 0 = true → Completes .braceTimerExpiry s fun d e =>
        e.power.stackUp = false ∧ Certificates.Recorded e 0x0109 Unit.device ∧ e.mem = d.mem ∧ e.devState = d.devState)) ∧
    (∀ mv, d.power.stackUp = true → d.power.stowing = false → Completes (.resetCrossing mv) s fun d e =>
      e.power.stackUp = false ∧ e.mem = d.mem ∧ e.get Ent.resetCause = 6 ∧ (∃ r ∈ e.tack.faults, r.code = 0x0107) ∧
      Certificates.Recorded e 0x010A Unit.device ∧ e.pesBit 5 = true ∧ e.devState = d.devState) ∧
    (∀ mv, d.power.stackUp = false → Completes (.resetCrossing mv) s fun d e => OnlyTack [Ent.vbulkNowMv] d e)

/-- What the stack's supplies and clocks lose (R450, R456, R614): an overvoltage, a lost stack domain and a coil that
loses lock force a stack reset with their faults; a lost domain of the periphery is FAULTED. Memory stays. -/
def Sys2Proof.Certificates.SuppliesLost : Prop :=
  ∀ s : State,
    let d := s.dev
    d.power.stackUp = true → d.power.stowing = false →
    (∀ mv, d.stack.lossSteps = [] → Completes (.vbulkOvervoltage mv) s fun d e =>
      e.power.stackUp = false ∧ (∃ r ∈ e.tack.faults, r.code = 0x0112) ∧ (∃ r ∈ e.tack.faults, r.code = 0x0230) ∧
      e.mem = d.mem ∧ e.devState = d.devState) ∧
    (∀ k, k < 56 → d.stack.lossSteps = [] → Completes (.domainLoss k) s fun d e =>
      e.power.stackUp = false ∧ e.getB Ent.domainStatus k 1 = 2 ∧ (∃ r ∈ e.tack.faults, r.code = 0x0230) ∧
      e.mem = d.mem ∧ e.devState = d.devState) ∧
    (∀ k, k < 56 → (∃ a b, d.stack.lossSteps = [a, b] ∧ d.faultStep ≤ a + 1000 ∧ d.faultStep ≤ b + 1000) →
      Completes (.domainLoss k) s fun d e =>
        e.power.stackUp = false ∧ e.devState = St.faulted ∧ Certificates.Recorded e 0x0231 Unit.girth ∧ e.mem = d.mem) ∧
    (∀ i, i < 17 → Completes (.coilLockLoss i) s fun d e =>
      e.power.stackUp = false ∧ (∃ r ∈ e.tack.faults, r.code = 0x0234) ∧ e.mem = d.mem ∧ e.devState = d.devState) ∧
    (∀ k, 56 ≤ k → k < 76 → Completes (.peripheryDomainLoss k) s fun d e =>
      e.getB Ent.domainStatus k 1 = 2 ∧ e.devState = St.faulted ∧ (∃ r ∈ e.tack.faults, r.code = 0x0233) ∧
      (∀ i, i < 24 → e.stackStatus i = if 68 ≤ k ∧ billetOf i = k - 68 then 0 else d.stackStatus i) ∧ e.mem = d.mem ∧
      e.power.stackUp = true)

/-- Heat (R628–R630): with every sensor below its limits an island's thermal code falls by one where it has stayed cool and
otherwise stays, and its stretch follows; a sensor at its trip limit is FAULTED with 0x0111 and the stack goes down. -/
def Sys2Proof.Certificates.HeatIsAnswered : Prop :=
  ∀ s : State,
    let d := s.dev
    (∀ cool, Completes (.thermalControl (List.replicate 41 0) cool) s fun d e =>
      (∀ i, i < 16 → e.island i = (let k := if i ∈ cool then (d.island i).thermal - 1 else (d.island i).thermal
        let x : Island := { d.island i with thermal := k }
        if x.stretch = 12 then x else { x with stretch := k, stretchMax := max x.stretchMax k })) ∧
      OnlyTack [Ent.stackTemps] { d with islands := e.islands } e) ∧
    (∀ temps cool i, i < 16 → temps.length = 41 → (∀ t ∈ temps, -32768 ≤ t ∧ t < 32768) → 95 * 16 ≤ nth 0 temps i →
      (d.island i).stretch ≠ 12 → Completes (.thermalControl temps cool) s fun d e =>
        (e.island i).thermal = min ((d.island i).thermal + 1) 8 ∧ (e.island i).stretch = (e.island i).thermal ∧
        e.mem = d.mem ∧ e.panels = d.panels) ∧
    (∀ sensor, Completes (.thermalTrip sensor) s fun d e =>
      e.devState = St.faulted ∧ Certificates.Recorded e 0x0111 Unit.device ∧ e.power.thermTrip = true ∧
      e.power.stackUp = false ∧ e.power.stowing = false ∧ e.get Ent.portEnable = (if d.devState = St.faulted then d.get Ent.portEnable else 0) ∧
      Certificates.Still d e)

/-- Warm resume (R288, R477–R479): with VBULK back and the stow complete, the stack comes up; a valid image is restored
whole and, where no neighbour is to be asked, the device is back in the state it had, with 0x010B; without one it is
FAULTED with 0x0340. While the warn condition holds, or outside STOWED, nothing happens. -/
def Sys2Proof.Certificates.WarmResumes : Prop :=
  ∀ (f : TuneF) (s : State),
    let d := s.dev
    (d.devState = St.stowed → d.power.stowing = false → d.power.stackUp = false → d.pesBit 0 = false → d.pesBit 1 = true →
      d.power.commanded = false → d.parts = [] → d.weave.held = [] → d.power.completions = [] →
      (∀ i, i < 8 → d.requiredPort i = false) →
      Completes (.warmResume f) s fun d e =>
        let up := (d.powerUp f).stacksRest false
        e.power.stackUp = true ∧
        (up.stowValid = false → e.devState = St.faulted ∧ Certificates.Recorded e 0x0340 Unit.device) ∧
        (∀ v, up.stowValid = true → d.power.saved = some v →
          e.devState = d.power.before ∧ Certificates.Recorded e 0x010B Unit.device ∧ e.panels = v.panels ∧
          e.flags = v.flags ∧ e.wide = v.wide ∧ e.power.saved = none ∧
          (∀ i, i < 16 → (e.island i).tokens = (sget Island.reset v.islands i).tokens))) ∧
    (d.pesBit 0 = true ∨ d.devState ≠ St.stowed → Completes (.warmResume f) s fun d e => e = d)

/-! ### Power-on, resets and pins -/

/-- POWER_ON_RESET, whatever came before (R552, R555, R556, R578, R613): VSTBY is good, memory is zero and there is no
Pattern; with the ROM or the fuses bad the device stays SEALED with 0x0901 or 0x0902 and FAULT_N asserted; else it is
TRIMMED while RESET_N is held or REFCLK is absent (R618), and CONFIGURED otherwise. The flash keeps its contents. -/
def Sys2Proof.Certificates.PowerOn : Prop :=
  ∀ (x : StartF) (s : State),
    ∃ e, exec (.powerOnReset x) s = .next (s.after e) ∧ e.boot.vstby = true ∧ e.mem = [] ∧ e.panels = [] ∧
      e.pat.loaded = false ∧ e.power.stackUp = false ∧ e.boot.strap = x.strap % 256 ∧ e.boot.flash = s.dev.boot.flash ∧
      e.resil.hostOut = s.dev.resil.hostOut ∧
      (x.romOk = false → e.devState = St.sealed ∧ Certificates.Recorded e 0x0901 Unit.keeper ∧ e.faultN = true) ∧
      (x.romOk = true → x.fusesOk = false →
        e.devState = St.sealed ∧ Certificates.Recorded e 0x0902 Unit.keeper ∧ e.faultN = true) ∧
      (x.romOk = true → x.fusesOk = true → e.boot.trimmed = true ∧
        e.devState = if s.dev.power.resetHeld || !x.refclk then St.trimmed else St.configured)

/-- RESET_N (R483, R568): asserted, it starts a cold reset that holds at TRIMMED; released, the device goes on to
CONFIGURED, where REFCLK is present. A device whose ROM or fuses were bad stays SEALED. -/
def Sys2Proof.Certificates.ResetPin : Prop :=
  ∀ s : State,
    let d := s.dev
    (∀ strap, Completes (.resetNAssert strap) s fun d e =>
      e.devState = (if d.boot.trimmed then St.trimmed else St.sealed) ∧ e.power.resetHeld = true ∧ e.mem = [] ∧
      e.panels = [] ∧ e.pat.loaded = false ∧ e.power.stackUp = false ∧ e.get Ent.resetCause = 1 ∧
      e.getB Ent.resetCount 0 4 = satAdd (2 ^ 32 - 1) (d.getB Ent.resetCount 0 4) 1 ∧ e.boot.flash = d.boot.flash) ∧
    (d.devState = St.trimmed → Completes .resetNRelease s fun d e =>
      e.devState = (if d.boot.refclk then St.configured else St.trimmed) ∧ e.power.resetHeld = false ∧ e.mem = d.mem ∧ e.boot.jtag ≠ .extest) ∧
    (d.devState ≠ St.trimmed → Completes .resetNRelease s fun d e =>
      e.power = { d.power with resetHeld := false } ∧ e.boot.jtag ≠ .extest ∧ e.tack = d.tack ∧ e.mem = d.mem)

/-- PERST and a PCIe hot reset (R483, R569, R571): the load ring is empty, every event is enabled and no vector is
pending; PERST takes the endpoint down, and its release brings it back once the endpoint's domain is on. -/
def Sys2Proof.Certificates.EndpointPins : Prop :=
  ∀ s : State,
    let fresh (e : Dev) : Prop := e.tack.lqBase = 0 ∧ e.tack.lqEntries = 0 ∧ e.tack.lqHead = 0 ∧ e.tack.lqTail = 0 ∧
      e.tack.eventEnable = 0xF ∧ e.tack.msixTable = [] ∧ e.tack.msixPba = 0
    (Completes .pciePerst s fun d e =>
      OnlyTack [] { d with power := { d.power with perst := true, endpoint := false } } e ∧ fresh e) ∧
    (Completes .pcieHotReset s fun d e => OnlyTack [] d e ∧ fresh e) ∧
    (Completes .pciePerstRelease s fun d e =>
      e = { d with power := { d.power with
        perst := false
        endpoint := d.power.endpoint || d.getB Ent.domainStatus 64 1 == 1 } })

/-- Rails (R552, R578): a rail that is good gates its domain on, once; the stacks of a Billet's rail group are zero, and
ready, or failed with 0x0320; a rail that is late is recorded once, with 0x0906. -/
def Sys2Proof.Certificates.RailsComeUp : Prop :=
  ∀ (k : Nat) (failed : List Nat) (s : State), 56 ≤ k → k < 76 →
    let d := s.dev
    d.started = true →
    (d.getB Ent.domainStatus k 1 = 1 → (Completes (.railGood k failed) s fun d e => e = d) ∧
      Completes (.railWaitTimeout k) s fun d e => e = d) ∧
    (d.getB Ent.domainStatus k 1 ≠ 1 →
      (k < 64 → Completes (.railGood k failed) s fun d e =>
        OnlyTack [Ent.domainStatus] { d with power := e.power } e ∧ e.getB Ent.domainStatus k 1 = 1) ∧
      (68 ≤ k → Completes (.railGood k failed) s fun d e =>
        e.getB Ent.domainStatus k 1 = 1 ∧
        (∀ i, i < 24 → e.stackStatus i =
          if billetOf i = k - 68 then (if i ∈ failed then 3 else 1) else d.stackStatus i) ∧
        (∀ a, inStack a = true → billetOf (stackIndex a) = k - 68 → e.byte a = 0#8) ∧
        (∀ a, inStack a = false → e.byte a = d.byte a)) ∧
      (64 ≤ k → k < 68 → Completes (.railGood k failed) s fun d e =>
        e.getB Ent.domainStatus k 1 = 1 ∧
        (∀ i, i < 8 → bitOf (d.get Ent.portEnable) i = true → d.portState i = PortSt.disabled →
          selvageOfPort i = (k - 64) / 2 →
          (∀ j, 64 ≤ j → j < 68 → (j - 64) / 2 = (k - 64) / 2 → j ≠ k → d.getB Ent.domainStatus j 1 = 1) →
          e.portState i = PortSt.training) ∧ e.mem = d.mem) ∧
      (bitOf d.boot.railLate (k - 56) = false → Completes (.railWaitTimeout k) s fun d e =>
        OnlyTack [Ent.faultClassCounts] { d with boot := { d.boot with railLate := setBit d.boot.railLate (k - 56) true } } e ∧
        Certificates.Recorded e 0x0906 Unit.keeper) ∧
      (bitOf d.boot.railLate (k - 56) = true → Completes (.railWaitTimeout k) s fun d e => e = d))

/-- READY (R553, R570, R578): entered from CONFIGURED once the stack is up, every memory stack is ready or failed, every
enabled port is UP or FAILED, and time is locked; ten seconds without it are recorded once, with 0x0907. -/
def Sys2Proof.Certificates.ReadyIsEntered : Prop :=
  ∀ s : State,
    let d := s.dev
    (d.devState = St.configured → d.power.stackUp = true → (∀ i, i < 24 → d.stackStatus i = 1 ∨ d.stackStatus i = 3) →
      (∀ i, i < 8 → bitOf (d.get Ent.portEnable) i = true → d.portState i = PortSt.up ∨ d.portState i = PortSt.failed) →
      d.timeLocked = true → Completes .readyEntry s fun d e =>
        e.devState = St.ready ∧ e.power.readyPin = true ∧ e.power.firstReady = true ∧ bitOf e.tack.eventCause 2 = true ∧
        e.mem = d.mem ∧ e.panels = d.panels) ∧
    (d.devState ≠ St.configured ∨ d.power.stackUp = false ∨ d.timeLocked = false → Completes .readyEntry s fun d e => e = d) ∧
    (d.devState = St.configured → d.power.late = false → Completes .readyTimeout s fun d e =>
      OnlyTack [Ent.faultClassCounts] { d with power := { d.power with late := true } } e ∧
      Certificates.Recorded e 0x0907 Unit.keeper) ∧
    (d.devState ≠ St.configured ∨ d.power.late = true → Completes .readyTimeout s fun d e => e = d)

/-- The stack powers up where nothing holds it down (R271, R445): its 56 domains are on, and the Felt and the Tree's
memories are zero, whatever rows of accumulators the self-test finds bad; where nothing fails the Pattern stays. -/
def Sys2Proof.Certificates.StackPowersUp : Prop :=
  ∀ (f : TuneF) (failing : List (Nat × Nat)) (s : State),
    (s.dev.stackMayStart = true → Completes (.stackPowerUp ⟨f, failing⟩) s fun d e =>
      e.power.stackUp = true ∧ (∀ k, k < 56 → e.getB Ent.domainStatus k 1 = 1) ∧
      (∀ a, a < feltSize ∨ inTree a = true → e.byte a = 0#8) ∧ (∀ a, inStack a = true → e.byte a = d.byte a) ∧
      e.wide = WideState.reset ∧ e.pesBit 5 = false ∧
      (f.noWindow = [] → f.tests = [] → failing = [] → e.pat = d.pat)) ∧
    (s.dev.stackMayStart = false → Completes (.stackPowerUp ⟨f, failing⟩) s fun d e => e = d)

/-- The JTAG port (R568): while VSTBY is good it takes BYPASS, IDCODE and SAMPLE/PRELOAD; EXTEST acts only while RESET_N is
asserted, and any instruction but these only with DEBUG_LOCK clear: otherwise they act as BYPASS. A shipped device has
DEBUG_LOCK set. -/
def Sys2Proof.Certificates.JtagPort : Prop :=
  State.reset.fuses.debugLock = true ∧ ∀ (i : JtagI) (s : State),
    Completes (.jtagInstruction i) s fun d e =>
      e = { d with boot := { d.boot with jtag :=
        if i = .extest ∧ d.power.resetHeld = false ∨ i = .other ∧ s.fuses.debugLock = true then .bypass else i } }

/-! ### Coupling frames and bank groups -/

/-- Frames of a coupling group (R437–R440): one whose check word fits is counted, and one that does not is counted, its
group is to be re-sent, and the next check word of the opposite direction asks for it; a NAK in the check word asks the
opposite direction; a re-send ends that, and one that differs stores what it carries, records 0x0201 and makes the
device withhold. A re-send of a group that has not failed changes nothing. -/
def Sys2Proof.Certificates.FramesChecked : Prop :=
  ∀ (g : Nat) (s : State), g < groupCount →
    let d := s.dev
    let k := 24 * (groupOwner g).island_
    let more (d e : Dev) (off len : Nat) : Prop :=
      e.getB Ent.couplingCounts (k + off) len = satAdd (2 ^ (8 * len) - 1) (d.getB Ent.couplingCounts (k + off) len) 1
    d.stack.heldCloses = [] → d.stack.feltHeld = [] →
    (∀ f c, c = .frameCheckPass ⟨g, f⟩ ∨ c = .frameCheckFail ⟨g, f⟩ → Completes c s fun d e =>
      OnlyTack [Ent.couplingCounts] { d with stack := e.stack } e ∧ more d e 0 8 ∧
      sget 0 e.stack.frames g = sget 0 d.stack.frames g + 1 ∧ sget 0 e.stack.nakSend g = 0 ∧
      (bitOf (d.gotCheck g f) 47 = true →
        sget 0 e.stack.nakGot (oppositeGroup g) = fieldOf (d.gotCheck g f) 46 40 + 1) ∧
      (d.frameMatches g f = true → e.stack.failing = d.stack.failing ∧ ∀ off, off = 8 ∨ off = 12 ∨ off = 16 ∨ off = 20 →
        e.getB Ent.couplingCounts (k + off) 4 = d.getB Ent.couplingCounts (k + off) 4) ∧
      (d.frameMatches g f = false → more d e 8 4 ∧ g ∈ e.stack.failing ∧ g ∈ e.stack.failedStep ∧
        sget 0 e.stack.nakSend (oppositeGroup g) = d.frameSeq g + 1 ∧
        sget 0 e.stack.failedSince g = sget 0 d.stack.failedSince g + 1)) ∧
    (∀ dest bs, d.stack.failing = [g] →
      (Completes (.frameResend g false dest bs) s fun d e =>
        OnlyTack [Ent.couplingCounts] { d with stack := { d.stack with failing := [], nakGot := sset 0 d.stack.nakGot g 0 } } e ∧
          more d e 12 4) ∧
      (∀ a, Completes (.frameResend g true (.memory a) bs) s fun d e =>
        e.stack.failing = [] ∧ (∀ y, e.byte y = sget 0#8 (memWrite d.mem a bs) y) ∧
        Certificates.Recorded e 0x0201 (groupOwner g).unit ∧ e.withheld = true ∧ e.lateMode = true ∧
        e.panels = d.panels ∧ e.weave = d.weave)) ∧
    (∀ differs dest bs, g ∉ d.stack.failing → Completes (.frameResend g differs dest bs) s fun d e => e = d)

/-- The check word that the sender makes for a frame fits it (R437): in the stream of the group's own spare, and, where that
spare is not FREE, in the backup slot of its partner's. -/
def Sys2Proof.Certificates.SentFramesFit : Prop :=
  ∀ (g : Nat) (own partner : List Byte) (d : Dev), g < groupCount →
    (d.spareFree g = true → let f : FrameF := ⟨own, d.spareStream g own partner⟩
      d.gotCheck g f = d.sentCheck g own ∧ d.frameMatches g f = true) ∧
    (d.spareFree g = false → let f : FrameF := ⟨own, d.spareStream (partnerGroup g) partner own⟩
      d.gotCheck g f = d.sentCheck g own ∧ d.frameMatches g f = true)

/-- SENTINEL_TRACK (R447): the drift is shown, and each delay code of the island moves one step toward it; a drift of a
quarter cycle or more asks for a re-tune, with 0x0205, and the device withholds. BANK_GROUP_COPY_DONE marks a retiring
group as copied and changes nothing else (R453). -/
def Sys2Proof.Certificates.SentinelsTrack : Prop :=
  ∀ s : State,
    let d := s.dev
    (∀ i drift, i < 17 → d.power.stackUp = true → -32768 ≤ drift → drift < 32768 → Completes (.sentinelTrack i drift) s fun d e =>
      signExt 16 (e.getB Ent.sentinelDrift (2 * i) 2) = drift ∧
      (sget 0 d.stack.applied i < drift.tdiv 4 → sget 0 e.stack.applied i = sget 0 d.stack.applied i + 1 ∧
        ∀ g, g < groupCount → e.getB Ent.delayCodes g 1 =
          if (groupOwner g).island_ = i then min 127 (d.getB Ent.delayCodes g 1 + 1) else d.getB Ent.delayCodes g 1) ∧
      (drift.tdiv 4 < sget 0 d.stack.applied i → sget 0 e.stack.applied i = sget 0 d.stack.applied i - 1 ∧
        ∀ g, g < groupCount → e.getB Ent.delayCodes g 1 =
          if (groupOwner g).island_ = i then d.getB Ent.delayCodes g 1 - 1 else d.getB Ent.delayCodes g 1) ∧
      (sget 0 d.stack.applied i = drift.tdiv 4 → e.get Ent.delayCodes = d.get Ent.delayCodes) ∧
      (drift ≤ -64 ∨ 64 ≤ drift → i ∈ e.stack.retune ∧
        (i ∉ d.stack.retune → Certificates.Recorded e 0x0205 (islandUnit i) ∧ e.withheld = true)) ∧
      (-64 < drift → drift < 64 → e.stack.retune = d.stack.retune) ∧ e.mem = d.mem ∧ e.panels = d.panels) ∧
    (∀ place, sget 0 d.stack.retiring place ≠ 0 → place ∉ d.stack.copied → Completes (.bankGroupCopyDone place) s fun d e =>
      e = { d with stack := { d.stack with copied := d.stack.copied ++ [place] } }) ∧
    (∀ place, sget 0 d.stack.retiring place = 0 → Completes (.bankGroupCopyDone place) s fun d e => e = d)

/-! ### Scrubbing and blocks -/

/-- FELT_SCRUB of a line (R272): single-bit errors are counted and change no byte; a word with an uncorrectable error
holds the bits it now has, is poisoned, enters POISON_LOG and is counted. No other byte changes. Errors in a spare group's
lines are counted and change nothing else (log 107: the model's choice). -/
def Sys2Proof.Certificates.FeltScrubs : Prop :=
  ∀ (line : Nat) (s : State), s.dev.power.stackUp = true →
    (∀ single bad, feltSize / 256 ≤ line → line < feltSize / 256 + 16 * 2 * 0x4000 → (∀ w ∈ single, w < 32) →
      (∀ w ∈ bad, w.1 < 32) → let r := (line - feltSize / 256) / 0x8000
      Completes (.feltScrub line single bad) s fun d e =>
        e.getB Ent.feltErrCount (8 * r) 4 = satAdd (2 ^ 32 - 1) (d.getB Ent.feltErrCount (8 * r) 4) single.length ∧
        e.getB Ent.feltErrCount (8 * r + 4) 4 = satAdd (2 ^ 32 - 1) (d.getB Ent.feltErrCount (8 * r + 4) 4) bad.length ∧
        OnlyTack [Ent.feltErrCount] { d with tier := { d.tier with
          feltScrubAt := (line + 1) % (feltSize / 256 + 16 * 2 * 0x4000) } } e) ∧
    let r := 256 * line / 0x8000000
    line < feltSize / 256 →
    (∀ single, (∀ w ∈ single, w < 32) → Completes (.feltScrub line single []) s fun d e =>
      e.tier.feltScrubAt = line + 1 ∧ e.mem = d.mem ∧ e.tier.poisonWords = d.tier.poisonWords ∧
      e.getB Ent.feltErrCount (8 * r) 4 = satAdd (2 ^ 32 - 1) (d.getB Ent.feltErrCount (8 * r) 4) single.length) ∧
    (∀ w v, w < 32 → sget false s.dev.tier.poisonWords (32 * line + w) = false → sget 0 s.dev.tier.groupError (line / 16384) = 0 →
      Completes (.feltScrub line [] [(w, v)]) s fun d e =>
        (∀ y, e.byte y = sget 0#8 (memWrite d.mem (256 * line + 8 * w) (leBytes 8 v)) y) ∧
        sget false e.tier.poisonWords (32 * line + w) = true ∧
        getBytes (e.get Ent.poisonLog) 8 8 = 256 * line + 8 * w ∧
        e.getB Ent.feltErrCount (8 * r + 4) 4 = satAdd (2 ^ 32 - 1) (d.getB Ent.feltErrCount (8 * r + 4) 4) 1 ∧
        e.panels = d.panels ∧ e.devState = d.devState)

/-- Blocks of a ready memory stack (R277–R279): a read that is clean changes only how far the patrol has come; a block
that a second read finds good is counted; one that stays bad is lost, with 0x0311, and found by the patrol, with
0x0313. -/
def Sys2Proof.Certificates.BlocksChecked : Prop :=
  ∀ (block : Nat) (s : State),
    let d := s.dev
    let k := stackIndex (256 * block)
    d.blockReady block = true → sget false d.tier.lostBlocks block = false →
    (Completes (.patrolScrub block .clean) s fun d e =>
      e = { d with tier := { d.tier with patrolAt := sset 0 d.tier.patrolAt k (block + 1) } }) ∧
    (Completes (.patrolScrub block .lost) s fun d e =>
      sget false e.tier.lostBlocks block = true ∧ Certificates.Recorded e 0x0313 (Unit.billet (billetOf k)) ∧
      (∃ r ∈ e.tack.faults, r.code = 0x0311) ∧ e.mem = d.mem ∧ e.panels = d.panels) ∧
    (Completes (.stackBlockReread block true) s fun d e =>
      OnlyTack [Ent.stackErrCount] d e ∧
      e.getB Ent.stackErrCount (16 * k + 4) 4 = satAdd (2 ^ 32 - 1) (d.getB Ent.stackErrCount (16 * k + 4) 4) 1) ∧
    (Completes (.stackBlockReread block false) s fun d e =>
      sget false e.tier.lostBlocks block = true ∧ (∀ b, b ≠ block → sget false e.tier.lostBlocks b = sget false d.tier.lostBlocks b) ∧
      Certificates.Recorded e 0x0311 (Unit.billet (billetOf k)) ∧ e.mem = d.mem ∧
      e.getB Ent.stackErrCount (16 * k + 8) 4 = satAdd (2 ^ 32 - 1) (d.getB Ent.stackErrCount (16 * k + 8) 4) 1)

/-- A ready memory stack that stops responding has failed (R281): in a run the device is FAULTED with 0x0321, otherwise
0x0320 is recorded; a stack that is not ready cannot. -/
def Sys2Proof.Certificates.StackStops : Prop :=
  ∀ (i : Nat) (s : State), i < 24 →
    let d := s.dev
    (d.stackStatus i = 1 → Completes (.stackNotResponding i) s fun d e =>
      e.stackStatus i = 3 ∧ (∀ j, j < 24 → j ≠ i → e.stackStatus j = d.stackStatus j) ∧ e.mem = d.mem ∧ e.panels = d.panels ∧
      (d.inState [St.running, St.held, St.braced, St.adopting] = true →
        e.devState = St.faulted ∧ Certificates.Recorded e 0x0321 (Unit.billet (billetOf i))) ∧
      (d.inState [St.running, St.held, St.braced, St.adopting] = false →
        e.devState = d.devState ∧ Certificates.Recorded e 0x0320 (Unit.billet (billetOf i)))) ∧
    (d.stackStatus i ≠ 1 → Completes (.stackNotResponding i) s fun d e => e = d)

/-! ### Weave time -/

namespace Sys2Proof.Certificates
open Sys2Proof.Machine

/-- A command of the time service changes the time service, the ports, and of the dictionary at most ks. -/
def OnlyTime (ks : List Nat) (d e : Dev) : Prop := OnlyTack ks { d with time := e.time, weave := e.weave } e

/-- Entries that count seconds as time passes (R637). -/
def secondEntries : List Nat := [Ent.powerOnS, Ent.faultStep]

/-- Every UP port but one holds, last in its output, a control message to dest with this payload (R330). -/
def OnEveryPort (d e : Dev) (but : Option Nat) (dest : Nat → Nat) (payload : List Byte) : Prop :=
  ∀ p, p < 8 → d.portUp p = true → some p ≠ but → (e.link p).out = (d.link p).out ++
    [⟨3, 0, none, cutFlits ⟨FlitType.control, 3, 0, dest p, d.deviceId, 0, true, true, false, 0, 0⟩ payload, true⟩]

end Sys2Proof.Certificates

/-- TIME_ANNOUNCE (R496–R498): of priority 0, or of the device itself, it changes nothing; one of a new round replaces what
is known of its root, and where that is the only candidate it is the root, reached by this port, and the message goes on
with one hop more; an older one changes no candidate. A root that is heard no more is no candidate (R497), and a device
that hears none records 0x0424 (R514). -/
def Sys2Proof.Certificates.RootIsChosen : Prop :=
  ∀ (port source root priority hops : Nat) (frozen : Bool) (seq beat raw : Nat) (s : State),
    let d := s.dev
    let c : Candidate := ⟨root, priority, source, hops, port, seq, true⟩
    let announce : Instr := .timeAnnounce port source root priority hops frozen seq beat raw
    (priority = 0 ∨ root = d.deviceId → Completes announce s fun d e => e = d) ∧
    (priority ≠ 0 → root ≠ d.deviceId →
      ((∀ q ∈ d.time.candidates, q.root = root → q.live = false ∨ q.annSeq < seq) → Completes announce s fun d e =>
        e.time.candidates = (d.time.candidates.filter fun q => q.root != root) ++ [c] ∧ e.mem = d.mem ∧ e.panels = d.panels ∧
        (d.rootPriority = 0 → (∀ q ∈ d.time.candidates, q.root = root) → d.time.acquired = false →
          e.time.root = some root ∧ e.time.parent = some port ∧
          (d.time.root = none ∨ d.time.root = some root →
            Certificates.OnEveryPort d e (some port) (fun _ => root)
              (announceBytes source root priority (hops + 1) frozen seq beat raw)))) ∧
      (∀ q, d.time.candidates = [q] → q.root = root → q.live = true → seq < q.annSeq → Completes announce s fun d e =>
        e.time.candidates = d.time.candidates ∧ e.mem = d.mem ∧ e.panels = d.panels)) ∧
    (∀ r, Completes (.candidateExpiry r) s fun d e =>
      e.time.candidates = d.time.candidates.map (fun q => if q.root == r then { q with live := false } else q) ∧
      e.mem = d.mem ∧ e.panels = d.panels ∧
      (d.rootPriority = 0 → (∀ q ∈ d.time.candidates, q.root = r ∨ q.live = false) → d.time.root = some r →
        e.time.root = none ∧ Certificates.Recorded e 0x0420 Unit.device)) ∧
    (d.rootPriority = 0 → (∀ q ∈ d.time.candidates, q.live = false) → Completes .noRootCandidate s fun d e =>
      OnlyTack [Ent.faultClassCounts] d e ∧ Certificates.Recorded e 0x0424 Unit.device) ∧
    (d.rootPriority ≠ 0 → Completes .noRootCandidate s fun d e => e = d)

/-- What the root sends (R497, R499): on its timers an ANNOUNCE with its own count, and a SYNC with its time, on every UP
port. A device that is not the root sends neither. -/
def Sys2Proof.Certificates.RootSends : Prop :=
  ∀ s : State,
    let d := s.dev
    d.bestRoot.map Prod.snd = d.time.root →
    (d.time.root = some d.deviceId → Completes .announceTimer s fun d e =>
      e.time.annSeq = d.time.annSeq + 1 ∧ Certificates.OnlyTime [] d e ∧
      Certificates.OnEveryPort d e none (fun _ => d.deviceId)
        (announceBytes d.timeSource d.deviceId d.rootPriority 0 d.frozen (d.time.annSeq + 1) (d.get Ent.logicalBeat) d.rawIndex)) ∧
    (d.time.root ≠ some d.deviceId → Completes .announceTimer s fun d e =>
      e.time.annSeq = d.time.annSeq ∧ e.weave = d.weave ∧ Certificates.OnlyTime [] d e) ∧
    (∀ now, d.time.root = some d.deviceId → Completes (.syncTimer now) s fun d e =>
      e.time.clock = max now d.time.clock ∧ e.time.syncSeq = d.time.syncSeq + 1 ∧
      Certificates.OnlyTime Certificates.secondEntries d e ∧
      Certificates.OnEveryPort d e none d.neighbourId
        (syncBytes d.deviceId (d.time.syncSeq + 1) (max now d.time.clock) 0)) ∧
    (∀ now, d.time.root ≠ some d.deviceId → Completes (.syncTimer now) s fun d e =>
      e.time.clock = max now d.time.clock ∧ e.time.syncSeq = d.time.syncSeq ∧ e.weave = d.weave ∧
      Certificates.OnlyTime Certificates.secondEntries d e)

/-- TIME_SYNC (R499, R501–R505): only the root's, on the parent port, is taken; it goes on with the link delay and the
residence added; one that was sent again changes nothing (log 113: the model's reading); a small offset is slewed away
and counts towards lock; the eighth in a row beyond 50 ns with a Pattern loaded is FAULTED with 0x0423. Without SYNC for
four intervals the device holds over, with 0x0422. -/
def Sys2Proof.Certificates.SyncDisciplines : Prop :=
  ∀ (port root seq origin : Nat) (corr : Int) (stamp egress : Nat) (resent : Bool) (s : State),
    let d := s.dev
    let o : Int := d.ingress port stamp - ((origin : Int) + corr + d.linkDelay port)
    let sync : Instr := .timeSync port root seq origin corr stamp egress resent
    (d.time.root ≠ some root ∨ root = d.deviceId ∨ d.time.parent ≠ some port → Completes sync s fun d e => e = d) ∧
    (d.time.root = some root → root ≠ d.deviceId → d.time.parent = some port →
      (resent = true → Completes sync s fun d e => e = d) ∧
      (resent = false → o.natAbs ≤ 50 * 65536 → Completes sync s fun d e =>
        e.time.clock = max stamp d.time.clock ∧ e.time.slew = -o ∧ e.time.holdover = false ∧ e.time.outOfRange = 0 ∧
        e.time.inLock = (if o.natAbs ≤ 2 * 65536 then min 8 (d.time.inLock + 1) else 0) ∧ e.time.acquired = true ∧
        e.devState = d.devState ∧ e.mem = d.mem ∧ e.panels = d.panels ∧
        Certificates.OnEveryPort d e (some port) d.neighbourId
          (syncBytes root seq origin (corr + d.linkDelay port + ((egress : Int) - d.ingress port stamp)))) ∧
      (resent = false → 50 * 65536 < o.natAbs → d.pat.loaded = true → d.time.everReady = true → d.frozen = false →
        d.time.acquired = true → d.time.outOfRange = 7 → Completes sync s fun d e =>
          e.time.slew = -o ∧ e.time.inLock = 0 ∧ e.devState = St.faulted ∧ (∃ r ∈ e.tack.faults, r.code = 0x0423) ∧
          e.mem = d.mem)) ∧
    (d.time.root ≠ some d.deviceId → d.time.parent.isSome = true → d.time.holdover = false → Completes .syncLoss s fun d e =>
      OnlyTack [Ent.faultClassCounts] { d with time := { d.time with holdover := true, inLock := 0 } } e ∧
      Certificates.Recorded e 0x0422 Unit.device) ∧
    (d.time.root = some d.deviceId ∨ d.time.parent = none ∨ d.time.holdover = true → Completes .syncLoss s fun d e => e = d)

/-- Link delay (R500): each UP port sends a DELAY_REQ whose time is kept; a DELAY_REQ is answered with its ingress and the
answer's egress; an answer to the open request is one of the last eight measurements, and another changes only the
time. -/
def Sys2Proof.Certificates.DelaysMeasured : Prop :=
  ∀ s : State,
    let d := s.dev
    (∀ now p, p < 8 → (∀ q, q < 8 → (d.portUp q = true ↔ q = p)) → Completes (.delayMeasureTimer now) s fun d e =>
      e.time.delaySeq = d.time.delaySeq + 1 ∧ sget none e.time.delayReqs p = some (d.time.delaySeq + 1, now) ∧
      Certificates.OnEveryPort d e none d.neighbourId
        (leBytes 1 0x12 ++ leBytes 3 0 ++ leBytes 4 (d.time.delaySeq + 1) ++ List.replicate 232 0#8) ∧
      Certificates.OnlyTime Certificates.secondEntries d e) ∧
    (∀ port seq t2 t3, port < 8 → d.portUp port = true → Completes (.delayReq port seq t2 t3) s fun d e =>
      (e.link port).out = (d.link port).out ++ [⟨3, 0, none,
        cutFlits ⟨FlitType.control, 3, 0, d.neighbourId port, d.deviceId, 0, true, true, false, 0, 0⟩
          (leBytes 1 0x13 ++ leBytes 3 0 ++ leBytes 4 seq ++ leBytes 12 (timeWord (d.ingress port t2).toNat) ++
            leBytes 12 (timeWord t3) ++ List.replicate 208 0#8), true⟩] ∧
      e.time.clock = max t3 (max t2 d.time.clock) ∧ Certificates.OnlyTime Certificates.secondEntries d e) ∧
    (∀ port seq t2 t3 t4 resent, sget none d.time.delayReqs port = none → Completes (.delayResp port seq t2 t3 t4 resent) s fun d e =>
      e.time = { d.time with clock := max t4 d.time.clock } ∧ e.weave = d.weave ∧
      Certificates.OnlyTime Certificates.secondEntries d e) ∧
    (∀ port seq t1 t2 t3 t4, sget none d.time.delayReqs port = some (seq, t1) →
      Completes (.delayResp port seq t2 t3 t4 false) s fun d e =>
        sget none e.time.delayReqs port = none ∧
        sget [] e.time.delays port =
          ((((d.ingress port t4 - (t1 : Int)) - ((t3 : Int) - (t2 : Int))) / 2) :: sget [] d.time.delays port).take 8 ∧
        e.weave = d.weave ∧ Certificates.OnlyTime Certificates.secondEntries d e)

/-- PPS (R506, R507, R511): at a root with PPS an edge within 1 µs of a second is slewed to and locks the root; one that is
not, after the first, records 0x0425; two seconds without one record 0x0421, or, when none came, lock the root in free
run. PPS_OUT rises at the next second where it is driven. -/
def Sys2Proof.Certificates.PulsesPerSecond : Prop :=
  ∀ s : State,
    let d := s.dev
    (d.time.root = some d.deviceId → d.ppsEn = true →
      (∀ stamp : Nat, let r := (nearestSeconds ((stamp : Int) - psUnits (signExt 32 (d.get Ent.ppsInDelayPs)))).2
        d.time.setPending = none →
        (r.natAbs ≤ 1000 * 65536 → Completes (.ppsEdge stamp) s fun d e =>
          e.time.slew = -r ∧ e.time.ppsSeen = true ∧ e.time.ppsLive = true ∧ e.time.rootLocked = true ∧
          e.time.acquired = true ∧ e.time.clock = max stamp d.time.clock ∧ e.mem = d.mem ∧ e.weave = d.weave) ∧
        (1000 * 65536 < r.natAbs → d.time.ppsSeen = true → Completes (.ppsEdge stamp) s fun d e =>
          e.time = { d.time with clock := max stamp d.time.clock } ∧ Certificates.Recorded e 0x0425 Unit.device ∧
          Certificates.OnlyTime (Ent.faultClassCounts :: Certificates.secondEntries) d e)) ∧
      (d.time.ppsLive = true → Completes .ppsLoss s fun d e =>
        OnlyTack [Ent.faultClassCounts] { d with time := { d.time with ppsLive := false } } e ∧
        Certificates.Recorded e 0x0421 Unit.device) ∧
      (d.time.ppsLive = false → d.time.ppsSeen = false → d.time.acquired = true → Completes .ppsLoss s fun d e =>
        e = { d with time := { d.time with rootLocked := true } })) ∧
    (d.time.root ≠ some d.deviceId ∨ d.ppsEn = false → Completes .ppsLoss s fun d e => e = d) ∧
    (Completes .ppsOutPulse s fun d e =>
      e.time = { d.time with
        clock := (d.time.clock / clockSecond + 1) * clockSecond
        ppsOut := d.time.ppsOut + if bitOf (d.get Ent.timeInput) 2 && (d.isRoot || d.timeLocked) then 1 else 0 } ∧
      Certificates.OnlyTime Certificates.secondEntries d e ∧ e.weave = d.weave)

/-- The IEEE 1588 service (R512; its message layouts are presumed, log 30): with the service off a message changes only
the time; a Delay_Req of the domain is answered, while the device is the grandmaster, with the time it came and its
sender's identity; an Announce of a better grandmaster makes the device passive. -/
def Sys2Proof.Certificates.PtpAnswers : Prop :=
  ∀ (msg : List Byte) (stamp : Nat) (s : State),
    let d := s.dev
    let at_ (k n : Nat) : Nat := beNat ((msg.drop k).take n)
    (d.getB Ent.ptpConfig 0 1 % 2 = 0 → Completes (.ptpFrame msg stamp) s fun d e =>
      e.time = { d.time with clock := max stamp d.time.clock } ∧ Certificates.OnlyTime Certificates.secondEntries d e ∧
      e.weave = d.weave) ∧
    (d.getB Ent.ptpConfig 0 1 % 2 = 1 → 34 ≤ msg.length → at_ 1 1 % 16 = 2 → at_ 4 1 = d.getB Ent.ptpConfig 1 1 →
      (at_ 0 1 % 16 = 1 → d.time.ptpPassive = false → Completes (.ptpFrame msg stamp) s fun d e =>
        ∃ r, e.time = { d.time with clock := max stamp d.time.clock, ptpOut := d.time.ptpOut ++ [r] } ∧
          (r.drop 34).take 10 = beBytes 6 (stamp / clockSecond % 2 ^ 48) ++ beBytes 4 (stamp % clockSecond / 65536) ∧
          r.drop 44 = (msg.drop 20).take 10 ∧ (r.drop 30).take 2 = (msg.drop 30).take 2 ∧
          Certificates.OnlyTime Certificates.secondEntries d e) ∧
      (at_ 0 1 % 16 = 11 → 64 ≤ msg.length → stamp ≤ d.time.clock →
        lexLess [at_ 47 1, at_ 48 1, at_ 49 1, at_ 50 2, at_ 52 1, at_ 53 8] d.ptpOwnSet = true →
        Completes (.ptpFrame msg stamp) s fun d e => e = { d with time := { d.time with ptpPassive := true } }))

/-! ### Tally -/

/-- A dump (R592–R594, R599): at a multiple of DUMP_BEATS every counter is latched, once, with the beat, the time and the
step, or, while the record before is being written, the latch is skipped and recorded; the write's completion puts the
record in its slot of the ring, and in a beat pause it waits. -/
def Sys2Proof.Certificates.DumpsAreTaken : Prop :=
  ∀ s : State,
    let d := s.dev
    let n := d.get Ent.dumpBeats
    let l := d.get Ent.logicalBeat
    (n ≠ 0 → d.get Ent.dumpBase ≠ 0 → l % n = 0 → d.tally.latchedAt ≠ l + 1 →
      (d.tally.dump = none → Completes .dumpLatch s fun d e =>
        e = { d with tally := { d.tally with
          dumpSeq := d.tally.dumpSeq + 1
          latchedAt := l + 1
          dump := some ⟨d.tally.dumpSeq + 1, l, d.timeNow, d.step, d.get Ent.patternDigest % 2 ^ 64, !d.power.stackUp,
            d.tally.counters⟩ } }) ∧
      (∀ r, d.tally.dump = some r → Completes .dumpLatch s fun d e =>
        OnlyTack [Ent.faultClassCounts] d e ∧ e.tally.dump = some r ∧ e.tally.dumpSeq = d.tally.dumpSeq + 1 ∧
        sget 0 e.tally.counters 0x406 = (sget 0 d.tally.counters 0x406 + 1) % 2 ^ 64)) ∧
    (n = 0 ∨ l % n ≠ 0 → Completes .dumpLatch s fun d e => e = d) ∧
    (∀ r, d.tally.dump = some r →
      (d.contract.inPause = false → d.partialLost (d.get Ent.dumpBase + 18432 * ((r.seq - 1) % d.get Ent.dumpRecords))
          (d.dumpBytes r).length = false → Completes .dumpWriteDone s fun d e =>
        e.tally.dump = none ∧ (∀ a, e.byte a = sget 0#8 (memWrite d.mem
          (d.get Ent.dumpBase + 18432 * ((r.seq - 1) % d.get Ent.dumpRecords)) (d.dumpBytes r)) a) ∧
        (∀ k, e.get k = d.get k) ∧ e.panels = d.panels ∧ e.islands = d.islands) ∧
      (d.contract.inPause = true → Completes .dumpWriteDone s fun d e => e = d)) ∧
    (d.tally.dump = none → Completes .dumpWriteDone s fun d e => e = d)

/-- A panel's sample is complete (R597, R598): once nothing its bundle issued is still to happen, its record, with the
latencies found, goes to the ring with its number, or, with the ring full, is lost
and counted; a lost block is not written in part, with 0x0312 (R277); a panel with no open sample has none. -/
def Sys2Proof.Certificates.SamplesAreStored : Prop :=
  ∀ (p : Nat) (s : State),
    let d := s.dev
    let n := d.get Ent.sampleRecords
    let w := d.tally.sampleWrite
    (∀ o, d.tally.opened.find? (fun o => o.panel == p) = some o → d.sampleKnown o = true → d.tally.buffered = [] → d.contract.inPause = false →
      (w - d.tally.sampleRead < n →
        let at_ := d.get Ent.sampleBase + 64 * (w % n)
        let record := o.record ++ leBytes 4 w ++ leBytes 12 0
        (d.partialLost at_ record.length = false → Completes (.sampleComplete p) s fun d e =>
          e.tally.opened = d.tally.opened.erase o ∧ e.tally.buffered = [] ∧ e.tally.sampleWrite = w + 1 ∧
          (∀ a, e.byte a = sget 0#8 (memWrite d.mem at_ record) a) ∧ (∀ k, e.get k = d.get k) ∧ e.panels = d.panels) ∧
        (d.lostIn at_ record.length = [at_ / 256] → at_ % 256 + record.length < 256 → Completes (.sampleComplete p) s fun d e =>
          e.tally.opened = d.tally.opened.erase o ∧ e.tally.buffered = [] ∧ e.tally.sampleWrite = w + 1 ∧
          (∀ a, e.byte a = d.byte a) ∧ (∃ r ∈ e.tack.faults, r.code = 0x0312) ∧ e.panels = d.panels)) ∧
      (n ≤ w - d.tally.sampleRead → Completes (.sampleComplete p) s fun d e =>
        OnlyTack [Ent.faultClassCounts] d e ∧ e.tally.opened = d.tally.opened.erase o ∧ e.tally.buffered = [] ∧
        e.tally.sampleWrite = w ∧
        sget 0 e.tally.counters (64 * islandOf p + 31) = (sget 0 d.tally.counters (64 * islandOf p + 31) + 1) % 2 ^ 64)) ∧
    (∀ o, d.tally.opened.find? (fun o => o.panel == p) = some o → d.sampleKnown o = false →
      Completes (.sampleComplete p) s fun d e => e = d) ∧
    ((∀ o ∈ d.tally.opened, o.panel ≠ p) → Completes (.sampleComplete p) s fun d e => e = d)

/-- COUNTER_SHADOW_REFRESH (R591): the islands' shadows of the group's counters are the counters; those of other groups,
and every counter, stay. -/
def Sys2Proof.Certificates.ShadowsRefresh : Prop :=
  ∀ (g : Nat) (s : State),
    Completes (.counterShadowRefresh g) s fun d e =>
      e = { d with tally := { d.tally with shadows := e.tally.shadows } } ∧
      (∀ i c, i < 16 → c < 4096 → tallyGroup c ≠ some g →
        (∀ x ∈ d.tally.counters, x.1 < 4096) →
        sget 0 e.tally.shadows (i * 4096 + c) = sget 0 d.tally.shadows (i * 4096 + c)) ∧
      (∀ i c, i < 16 → c < 4096 → tallyGroup c = some g → swf 0 d.tally.counters = true →
        (∀ x ∈ d.tally.counters, x.1 < 4096) →
        sget 0 e.tally.shadows (i * 4096 + c) = sget 0 d.tally.counters c)

/-! ### The statements that join several of one family -/

/-- A step runs the command at the front of the queue; with none waiting the block idles (log 1: the model's choice). -/
def Obligations.StepRunsFrontCommand : Prop :=
  Certificates.StepRunsFront ∧ Certificates.StepIdles

/-- What follows from a command by itself reaches the ports, three status entries and the time that beat counting stands, and nothing where the device is quiet. -/
def Obligations.WhatFollowsByItself : Prop :=
  Certificates.SettleFrame ∧ Certificates.QuietStays

/-- The state after reset: the values the spec gives, and a key slot left (fuse values are the model's, log 2). -/
def Obligations.ResetState : Prop :=
  Certificates.ResetValues ∧ Certificates.KeyLeftAtReset

/-- vu.drop, vu.eset and re.go. -/
def Obligations.VectorDropoutAndRequests : Prop :=
  Certificates.VectorDropout ∧ Certificates.VectorSlotSet ∧ Certificates.RowRequestSent

/-- mm.tile, mm.swap and the completion of a load. -/
def Obligations.TilesAndLoadSlot : Prop :=
  Certificates.TileWrites ∧ Certificates.SwapExchanges ∧ Certificates.LoadCompletes

/-- A row of a stream enters the array, and its update lands. -/
def Obligations.StreamRowApplies : Prop :=
  Certificates.StreamRowEnters ∧ Certificates.StreamRowLands

/-- mm.drain to its four destinations, and to the wide buffer. -/
def Obligations.DrainsStart : Prop :=
  Certificates.DrainStarts ∧ Certificates.DrainWideStarts

/-- Tokens leave by s.post and arrive in their counters. -/
def Obligations.TokensTravel : Prop :=
  Certificates.PostsLeave ∧ Certificates.TokensArrive

/-- s.wait takes or holds; a held wait ends once covered, and is marked when it passes its maximum. -/
def Obligations.WaitsHoldPanels : Prop :=
  Certificates.WaitTakesOrHolds ∧ Certificates.HeldWaitEnds ∧ Certificates.WaitTimesOut

/-- The sequencer's own operations. -/
def Obligations.SequencerOpsAndAlarms : Prop :=
  Certificates.SequencerOps ∧ Certificates.AlarmsArmAndFire

/-- A bundle issues from a panel that can issue, and nothing from one that cannot. -/
def Obligations.BundlesIssue : Prop :=
  Certificates.BundleIssues ∧ Certificates.BlockedPanelIssuesNothing

/-- Row-engine requests start and end; re.smax.fin finishes rows; a stash claim is granted. -/
def Obligations.RowEngineRequests : Prop :=
  Certificates.RowRequestStarts ∧ Certificates.RowEngineFinish ∧ Certificates.RowRequestEnds ∧
    Certificates.StashClaimGranted

/-- Contribution rows at the wide buffer: expected, early, foreign, applied, and the limit of a stall. -/
def Obligations.WideBufferRows : Prop :=
  Certificates.ContributionRows ∧ Certificates.AdderRowApplies ∧ Certificates.EarlyRowApplies ∧
    Certificates.StallLimitRecords

/-- A raw boundary is a beat unless a hold freezes counting. -/
def Obligations.BeatsAreCounted : Prop :=
  Certificates.BoundaryCountsABeat ∧ Certificates.HoldFreezesBeats

/-- The start of a step and of a run. -/
def Obligations.StepsAndRunsBegin : Prop :=
  Certificates.StepBegins ∧ Certificates.RunStarts

/-- The end of a run, its lateness limit, and the beat pause. -/
def Obligations.RunsEndAndPause : Prop :=
  Certificates.RunEnds ∧ Certificates.LateLimitFaults ∧ Certificates.PauseBegins

/-- The recovery beat and the witness run. -/
def Obligations.RecoveryAndWitness : Prop :=
  Certificates.RecoveryBeat ∧ Certificates.WitnessRun

/-- A Shuttle's bodies and descriptors start, take credits and complete. -/
def Obligations.DescriptorsRun : Prop :=
  Certificates.BodyStarts ∧ Certificates.DescriptorStarts ∧ Certificates.CreditsTaken ∧
    Certificates.DescriptorCompletes

/-- The states of a port, and the hold that the loss of a required one starts. -/
def Obligations.PortsChangeState : Prop :=
  Certificates.PortStates ∧ Certificates.RequiredLinkLossHolds

/-- Flits leave an UP port in order, and the oldest unacknowledged one again. -/
def Obligations.FlitsLeavePorts : Prop :=
  Certificates.OldestIsResent ∧ Certificates.FlitsLeave

/-- Flits arrive at an UP port. -/
def Obligations.FlitsAreReceived : Prop :=
  Certificates.LinkFlitTakesIdentity ∧ Certificates.FlitsArrive

/-- Requests of other devices are served or refused, and answered. -/
def Obligations.RequestsAreAnswered : Prop :=
  Certificates.RequestsServed ∧ Certificates.RequestsRefused

/-- Credits of streams, release words, and updates of the Loom map. -/
def Obligations.StreamsAndLoomMap : Prop :=
  Certificates.CreditsMove ∧ Certificates.ReleaseWordReturns ∧ Certificates.LoomUpdates

/-- The rounds of a reduction tree take their terms, refuse what does not fit, and close. -/
def Obligations.RoundsTakeTerms : Prop :=
  Certificates.ReduceArrives ∧ Certificates.ReduceRefused ∧ Certificates.DeadlineClosesRound ∧
    Certificates.LeafCloses

/-- Fingerprint sets, and the vote on its way up. -/
def Obligations.FingerprintsAndVotesUp : Prop :=
  Certificates.FingerprintSets ∧ Certificates.VoteGoesUp ∧ Certificates.VoteUpArrives

/-- The vote on its way down, and the messages of replicas. -/
def Obligations.VotesDownAndReplicas : Prop :=
  Certificates.VoteComesDown ∧ Certificates.ReplicaMessages

/-- A Burnisher's run starts, commits its chunks and completes. -/
def Obligations.BurnishersRun : Prop :=
  Certificates.RunOfPartStarts ∧ Certificates.ChunkCommits ∧ Certificates.RunOfPartCompletes

/-- Snapshot drains, the buddy handshake, and adoption. -/
def Obligations.ResilienceMessages : Prop :=
  Certificates.DrainEnds ∧ Certificates.BuddyHandshake ∧ Certificates.AdoptionPhases

/-- Writes of OWNER, the clears, the step and time entries, and PANEL_UNFENCE. -/
def Obligations.CommandEntriesAct : Prop :=
  Certificates.OwnerChanges ∧ Certificates.ClearsClear ∧ Certificates.StepsAndSeconds ∧ Certificates.PanelUnfenced

/-- STATE_COMMAND where its states hold, and where they do not. -/
def Obligations.StateCommandsAct : Prop :=
  Certificates.StateCommands ∧ Certificates.StateCommandsRefused

/-- RESET_COMMAND and LP_COMMAND. -/
def Obligations.ResetsAndLowPower : Prop :=
  Certificates.TackResets ∧ Certificates.LowPower

/-- HOLD_COMMAND, HOLD_RELEASE and RESIL_COMMAND. -/
def Obligations.HoldAndRestoreCommands : Prop :=
  Certificates.HoldCommands ∧ Certificates.ResilienceCommands

/-- The flash, the management key and the fuses. -/
def Obligations.FlashKeysAndFuses : Prop :=
  Certificates.FlashWrites ∧ Certificates.KeyStored ∧ Certificates.FusesBurn ∧ Certificates.FusesOnlyByWrites

/-- Loads by LOAD_COMMAND and by the load ring. -/
def Obligations.PatternsAreLoaded : Prop :=
  Certificates.TackLoads ∧ Certificates.RingMoves

/-- Dictionary entries are written and read, by the path that may. -/
def Obligations.EntriesHoldValues : Prop :=
  Certificates.EntriesAreWritten ∧ Certificates.EntriesAreRead ∧ Certificates.EntriesAnswered ∧
    Certificates.OwnerGates

/-- The mailbox, the BARs and the Bridle. -/
def Obligations.HostAndBridleAccess : Prop :=
  Certificates.MailboxAnswers ∧ Certificates.BarZeroWrites ∧ Certificates.BridleAnswers ∧
    Certificates.BarTwoAccesses

/-- Holds, releases and stow notices of other devices. -/
def Obligations.HoldsSpread : Prop :=
  Certificates.HoldArrives ∧ Certificates.ReleaseArrives ∧ Certificates.HoldQueries

/-- VBULK warns, clears and falls; supplies and clocks are lost. -/
def Obligations.SupplyFalls : Prop :=
  Certificates.BraceAndClear ∧ Certificates.PowerFalls ∧ Certificates.SuppliesLost

/-- Heat, and warm resume. -/
def Obligations.HeatAndWarmResume : Prop :=
  Certificates.HeatIsAnswered ∧ Certificates.WarmResumes

/-- Power-on, the pins, and the loss of VSTBY. -/
def Obligations.PowerOnAndPins : Prop :=
  Certificates.PowerOn ∧ Certificates.ResetPin ∧ Certificates.EndpointPins ∧ Certificates.JtagPort ∧
    Certificates.NothingWithoutVstby ∧ Certificates.VstbyLossStops

/-- Rails, the stack and READY. -/
def Obligations.DeviceComesUp : Prop :=
  Certificates.RailsComeUp ∧ Certificates.ReadyIsEntered ∧ Certificates.StackPowersUp

/-- The coupling's frames and delays, scrubbing, and memory stacks that fail. -/
def Obligations.MemoryAndCouplingChecked : Prop :=
  Certificates.FramesChecked ∧ Certificates.SentFramesFit ∧ Certificates.SentinelsTrack ∧ Certificates.FeltScrubs ∧
    Certificates.BlocksChecked ∧ Certificates.StackStops

/-- The root of Weave time is chosen, and sends. -/
def Obligations.TimeRootAnnounces : Prop :=
  Certificates.RootIsChosen ∧ Certificates.RootSends

/-- Weave time follows its root; link delays are measured. -/
def Obligations.TimeIsDisciplined : Prop :=
  Certificates.SyncDisciplines ∧ Certificates.DelaysMeasured

/-- The pulse per second, and the IEEE 1588 service. -/
def Obligations.PulsesAndPtp : Prop :=
  Certificates.PulsesPerSecond ∧ Certificates.PtpAnswers

/-- Dumps, samples and shadow counters of the Tally. -/
def Obligations.TallyRecords : Prop :=
  Certificates.DumpsAreTaken ∧ Certificates.SamplesAreStored ∧ Certificates.ShadowsRefresh
end

