-- ==== Sys2Proof/Laws/Sparse.lean ====
section
/-!
SUPPORT. Sparse tables: reading after writing, and the canonical form kept by every operation on a table.
-/
namespace Sys2Proof.Machine
open Sys2Proof

variable {α : Type}

@[simp] theorem sget_nil (d : α) (i : Nat) : sget d [] i = d := rfl

theorem sget_serase (d : α) (m : Sparse α) (i j : Nat) : sget d (serase m i) j = if j = i then d else sget d m j := by
  induction m with
  | nil => simp [serase]
  | cons p m ih =>
    obtain ⟨k, v⟩ := p
    unfold serase at ih ⊢
    by_cases hk : k = i
    · subst hk
      simp only [List.filter, bne_self_eq_false, ih, sget]
      by_cases hj : j = k <;> simp [hj]
    · have : (k != i) = true := by simp [hk]
      simp only [List.filter, this, sget, ih]
      by_cases hj : j = k
      · subst hj; simp [hk]
      · simp [hj]

theorem sget_sinsert (d : α) (m : Sparse α) (i : Nat) (x : α) (j : Nat) :
    sget d (sinsert m i x) j = if j = i then x else sget d m j := by
  induction m with
  | nil => simp [sinsert, sget]
  | cons p m ih =>
    obtain ⟨k, v⟩ := p
    unfold sinsert
    by_cases h1 : i < k
    · simp [h1, sget]
    · by_cases h2 : i = k
      · subst h2
        simp only [h1, if_false, if_true, sget]
        by_cases hj : j = i <;> simp [hj]
      · simp only [h1, h2, if_false, sget, ih]
        by_cases hj : j = k
        · subst hj; simp [Ne.symm h2]
        · simp [hj]

/-- Reading a table after a write: the value written at its key, the old value elsewhere. -/
theorem sget_sset [DecidableEq α] (d : α) (m : Sparse α) (i : Nat) (x : α) (j : Nat) :
    sget d (sset d m i x) j = if j = i then x else sget d m j := by
  unfold sset
  by_cases h : x = d
  · subst h; simp [sget_serase]
  · simp [h, sget_sinsert]

@[simp] theorem sget_sset_self [DecidableEq α] (d : α) (m : Sparse α) (i : Nat) (x : α) :
    sget d (sset d m i x) i = x := by simp [sget_sset]

/-- Other keys read as before, whatever default they are read with. -/
theorem sget_sset_ne [DecidableEq α] (e d : α) (m : Sparse α) {i j : Nat} (x : α) (h : j ≠ i) :
    sget e (sset d m i x) j = sget e m j := by
  unfold sset
  by_cases hx : x = d <;> simp [hx, sget_serase, sget_sinsert, h]

theorem sget_sclear (d : α) (m : Sparse α) (lo hi j : Nat) :
    sget d (sclear m lo hi) j = if lo ≤ j ∧ j < hi then d else sget d m j := by
  induction m with
  | nil => simp [sclear]
  | cons p m ih =>
    obtain ⟨k, v⟩ := p
    unfold sclear at ih ⊢
    by_cases hk : lo ≤ k ∧ k < hi
    · have h : (!(decide (lo ≤ k) && decide (k < hi))) = false := by simp [hk]
      simp only [List.filter, h, ih, sget]
      by_cases hj : j = k
      · subst hj; simp [hk]
      · simp [hj]
    · have h : (!(decide (lo ≤ k) && decide (k < hi))) = true := by
        rcases Nat.lt_or_ge k lo with h1 | h1
        · simp; omega
        · have : ¬ k < hi := fun h2 => hk ⟨h1, h2⟩
          simp; omega
      simp only [List.filter, h, ih, sget]
      by_cases hj : j = k
      · subst hj; simp [hk]
      · simp [hj]

/-! ### The canonical form -/

theorem srising_weaken {m : Sparse α} : ∀ {b c : Nat}, c ≤ b → srising (some b) m = true → srising (some c) m = true := by
  induction m with
  | nil => intros; rfl
  | cons p m _ =>
    intro b c hcb h
    simp only [srising, Bool.and_eq_true, decide_eq_true_eq] at h ⊢
    exact ⟨by omega, h.2⟩

theorem srising_none {m : Sparse α} {b : Nat} (h : srising (some b) m = true) : srising none m = true := by
  cases m with
  | nil => rfl
  | cons p m => simp only [srising, Bool.and_eq_true] at h ⊢; exact h.2

theorem srising_filter (q : Nat × α → Bool) : ∀ {m : Sparse α} {b : Option Nat},
    srising b m = true → srising b (m.filter q) = true := by
  intro m
  induction m with
  | nil => intros; simpa using ‹_›
  | cons p m ih =>
    intro b h
    have key : ∀ {c : Nat}, srising (some c) (p :: m) = true → srising (some c) ((p :: m).filter q) = true := by
      intro c hc
      simp only [srising, Bool.and_eq_true, decide_eq_true_eq] at hc
      by_cases hq : q p
      · simp only [List.filter, hq, srising, Bool.and_eq_true, decide_eq_true_eq]
        exact ⟨hc.1, ih hc.2⟩
      · simp only [List.filter, hq]
        exact ih (srising_weaken (Nat.le_of_lt hc.1) hc.2)
    cases b with
    | some c => exact key h
    | none =>
      simp only [srising] at h
      by_cases hq : q p
      · simp only [List.filter, hq, srising]; exact ih h
      · simp only [List.filter, hq]; exact srising_none (ih h)

theorem srising_sinsert : ∀ {m : Sparse α} {b : Option Nat} {i : Nat} {x : α},
    srising b m = true → (∀ c, b = some c → c < i) → srising b (sinsert m i x) = true := by
  intro m
  induction m with
  | nil =>
    intro b i x _ hb
    cases b with
    | none => rfl
    | some c => simp [sinsert, srising, hb c rfl]
  | cons p m ih =>
    obtain ⟨k, v⟩ := p
    intro b i x h hb
    have tail : srising (some k) m = true := by
      cases b <;> simp only [srising, Bool.and_eq_true] at h
      · exact h
      · exact h.2
    have front : ∀ {c : Nat}, b = some c → c < k := by
      intro c hc; subst hc; simp only [srising, Bool.and_eq_true, decide_eq_true_eq] at h; exact h.1
    unfold sinsert
    by_cases h1 : i < k
    · simp only [h1, if_true]
      cases b with
      | none => simp [srising, h1, tail]
      | some c => simp [srising, h1, tail, hb c rfl]
    · by_cases h2 : i = k
      · subst h2
        simp only [h1, if_false, if_true]
        cases b with
        | none => simpa [srising] using tail
        | some c => simp [srising, tail, hb c rfl]
      · have hki : k < i := by omega
        have := ih (i := i) (x := x) tail (by intro c hc; cases hc; exact hki)
        simp only [h1, h2, if_false]
        cases b with
        | none => simpa [srising] using this
        | some c => simp [srising, this, front rfl]

theorem mem_sinsert {m : Sparse α} {i : Nat} {x : α} {p : Nat × α} (h : p ∈ sinsert m i x) : p = (i, x) ∨ p ∈ m := by
  induction m with
  | nil => simpa [sinsert] using h
  | cons q m ih =>
    unfold sinsert at h
    by_cases h1 : i < q.1
    · simp only [h1, if_true, List.mem_cons] at h
      rcases h with h | h | h
      · exact .inl h
      · exact .inr (by simp [h])
      · exact .inr (by simp [h])
    · by_cases h2 : i = q.1
      · simp only [h2, Nat.lt_irrefl, if_false, if_true, List.mem_cons] at h
        rcases h with h | h
        · exact .inl (by rw [h, h2])
        · exact .inr (by simp [h])
      · simp only [h1, h2, if_false, List.mem_cons] at h
        rcases h with h | h
        · exact .inr (by simp [h])
        · rcases ih h with h | h
          · exact .inl h
          · exact .inr (by simp [h])

/-- The empty table is in canonical form. -/
@[simp] theorem swf_nil [DecidableEq α] (d : α) : swf d [] = true := rfl

theorem swf_filter [DecidableEq α] {d : α} {m : Sparse α} (q : Nat × α → Bool) (h : swf d m = true) :
    swf d (m.filter q) = true := by
  simp only [swf, Bool.and_eq_true, List.all_eq_true] at h ⊢
  exact ⟨srising_filter q h.1, fun p hp => h.2 p (List.mem_filter.1 hp).1⟩

/-- A write keeps the canonical form. -/
theorem swf_sset [DecidableEq α] {d : α} {m : Sparse α} (i : Nat) (x : α) (h : swf d m = true) :
    swf d (sset d m i x) = true := by
  unfold sset
  by_cases hx : x = d
  · simp only [hx, if_true]; exact swf_filter _ h
  · simp only [hx, if_false]
    simp only [swf, Bool.and_eq_true, List.all_eq_true] at h ⊢
    refine ⟨srising_sinsert h.1 (by simp), fun p hp => ?_⟩
    rcases mem_sinsert hp with h' | h'
    · simp [h', hx]
    · exact h.2 p h'

/-- Clearing a range keeps the canonical form. -/
theorem swf_sclear [DecidableEq α] {d : α} {m : Sparse α} (lo hi : Nat) (h : swf d m = true) :
    swf d (sclear m lo hi) = true := swf_filter _ h

end Sys2Proof.Machine
end

