-- ==== Sys2Proof/Laws/State.lean ====
section
/-!
SUPPORT. What each update of the state leaves alone: one lemma for each update and field, and what a changed
table reads as afterwards.
-/
namespace Sys2Proof.Machine
open Sys2Proof

/-! ### setPanel -/

@[simp] theorem Dev.setPanel_mem (d : Dev) (p : Nat) (x : Panel) :
    (d.setPanel p x).mem = d.mem := rfl
@[simp] theorem Dev.setPanel_tier (d : Dev) (p : Nat) (x : Panel) :
    (d.setPanel p x).tier = d.tier := rfl
@[simp] theorem Dev.setPanel_flags (d : Dev) (p : Nat) (x : Panel) :
    (d.setPanel p x).flags = d.flags := rfl
@[simp] theorem Dev.setPanel_islands (d : Dev) (p : Nat) (x : Panel) :
    (d.setPanel p x).islands = d.islands := rfl
@[simp] theorem Dev.setPanel_wide (d : Dev) (p : Nat) (x : Panel) :
    (d.setPanel p x).wide = d.wide := rfl
@[simp] theorem Dev.setPanel_pat (d : Dev) (p : Nat) (x : Panel) :
    (d.setPanel p x).pat = d.pat := rfl
@[simp] theorem Dev.setPanel_contract (d : Dev) (p : Nat) (x : Panel) :
    (d.setPanel p x).contract = d.contract := rfl
@[simp] theorem Dev.setPanel_tack (d : Dev) (p : Nat) (x : Panel) :
    (d.setPanel p x).tack = d.tack := rfl
@[simp] theorem Dev.setPanel_time (d : Dev) (p : Nat) (x : Panel) :
    (d.setPanel p x).time = d.time := rfl
@[simp] theorem Dev.setPanel_tally (d : Dev) (p : Nat) (x : Panel) :
    (d.setPanel p x).tally = d.tally := rfl
@[simp] theorem Dev.setPanel_weave (d : Dev) (p : Nat) (x : Panel) :
    (d.setPanel p x).weave = d.weave := rfl
@[simp] theorem Dev.setPanel_shuttles (d : Dev) (p : Nat) (x : Panel) :
    (d.setPanel p x).shuttles = d.shuttles := rfl
@[simp] theorem Dev.setPanel_descOrder (d : Dev) (p : Nat) (x : Panel) :
    (d.setPanel p x).descOrder = d.descOrder := rfl
@[simp] theorem Dev.setPanel_coll (d : Dev) (p : Nat) (x : Panel) :
    (d.setPanel p x).coll = d.coll := rfl
@[simp] theorem Dev.setPanel_power (d : Dev) (p : Nat) (x : Panel) :
    (d.setPanel p x).power = d.power := rfl
@[simp] theorem Dev.setPanel_burn (d : Dev) (p : Nat) (x : Panel) :
    (d.setPanel p x).burn = d.burn := rfl
@[simp] theorem Dev.setPanel_resil (d : Dev) (p : Nat) (x : Panel) :
    (d.setPanel p x).resil = d.resil := rfl
@[simp] theorem Dev.setPanel_stack (d : Dev) (p : Nat) (x : Panel) :
    (d.setPanel p x).stack = d.stack := rfl
@[simp] theorem Dev.setPanel_boot (d : Dev) (p : Nat) (x : Panel) :
    (d.setPanel p x).boot = d.boot := rfl

/-! ### modPanel -/

@[simp] theorem Dev.modPanel_mem (d : Dev) (p : Nat) (f : Panel → Panel) :
    (d.modPanel p f).mem = d.mem := rfl
@[simp] theorem Dev.modPanel_tier (d : Dev) (p : Nat) (f : Panel → Panel) :
    (d.modPanel p f).tier = d.tier := rfl
@[simp] theorem Dev.modPanel_flags (d : Dev) (p : Nat) (f : Panel → Panel) :
    (d.modPanel p f).flags = d.flags := rfl
@[simp] theorem Dev.modPanel_islands (d : Dev) (p : Nat) (f : Panel → Panel) :
    (d.modPanel p f).islands = d.islands := rfl
@[simp] theorem Dev.modPanel_wide (d : Dev) (p : Nat) (f : Panel → Panel) :
    (d.modPanel p f).wide = d.wide := rfl
@[simp] theorem Dev.modPanel_pat (d : Dev) (p : Nat) (f : Panel → Panel) :
    (d.modPanel p f).pat = d.pat := rfl
@[simp] theorem Dev.modPanel_contract (d : Dev) (p : Nat) (f : Panel → Panel) :
    (d.modPanel p f).contract = d.contract := rfl
@[simp] theorem Dev.modPanel_tack (d : Dev) (p : Nat) (f : Panel → Panel) :
    (d.modPanel p f).tack = d.tack := rfl
@[simp] theorem Dev.modPanel_time (d : Dev) (p : Nat) (f : Panel → Panel) :
    (d.modPanel p f).time = d.time := rfl
@[simp] theorem Dev.modPanel_tally (d : Dev) (p : Nat) (f : Panel → Panel) :
    (d.modPanel p f).tally = d.tally := rfl
@[simp] theorem Dev.modPanel_weave (d : Dev) (p : Nat) (f : Panel → Panel) :
    (d.modPanel p f).weave = d.weave := rfl
@[simp] theorem Dev.modPanel_shuttles (d : Dev) (p : Nat) (f : Panel → Panel) :
    (d.modPanel p f).shuttles = d.shuttles := rfl
@[simp] theorem Dev.modPanel_descOrder (d : Dev) (p : Nat) (f : Panel → Panel) :
    (d.modPanel p f).descOrder = d.descOrder := rfl
@[simp] theorem Dev.modPanel_coll (d : Dev) (p : Nat) (f : Panel → Panel) :
    (d.modPanel p f).coll = d.coll := rfl
@[simp] theorem Dev.modPanel_power (d : Dev) (p : Nat) (f : Panel → Panel) :
    (d.modPanel p f).power = d.power := rfl
@[simp] theorem Dev.modPanel_burn (d : Dev) (p : Nat) (f : Panel → Panel) :
    (d.modPanel p f).burn = d.burn := rfl
@[simp] theorem Dev.modPanel_resil (d : Dev) (p : Nat) (f : Panel → Panel) :
    (d.modPanel p f).resil = d.resil := rfl
@[simp] theorem Dev.modPanel_stack (d : Dev) (p : Nat) (f : Panel → Panel) :
    (d.modPanel p f).stack = d.stack := rfl
@[simp] theorem Dev.modPanel_boot (d : Dev) (p : Nat) (f : Panel → Panel) :
    (d.modPanel p f).boot = d.boot := rfl

/-! ### setIsland -/

@[simp] theorem Dev.setIsland_mem (d : Dev) (i : Nat) (x : Island) :
    (d.setIsland i x).mem = d.mem := rfl
@[simp] theorem Dev.setIsland_tier (d : Dev) (i : Nat) (x : Island) :
    (d.setIsland i x).tier = d.tier := rfl
@[simp] theorem Dev.setIsland_flags (d : Dev) (i : Nat) (x : Island) :
    (d.setIsland i x).flags = d.flags := rfl
@[simp] theorem Dev.setIsland_panels (d : Dev) (i : Nat) (x : Island) :
    (d.setIsland i x).panels = d.panels := rfl
@[simp] theorem Dev.setIsland_wide (d : Dev) (i : Nat) (x : Island) :
    (d.setIsland i x).wide = d.wide := rfl
@[simp] theorem Dev.setIsland_pat (d : Dev) (i : Nat) (x : Island) :
    (d.setIsland i x).pat = d.pat := rfl
@[simp] theorem Dev.setIsland_contract (d : Dev) (i : Nat) (x : Island) :
    (d.setIsland i x).contract = d.contract := rfl
@[simp] theorem Dev.setIsland_tack (d : Dev) (i : Nat) (x : Island) :
    (d.setIsland i x).tack = d.tack := rfl
@[simp] theorem Dev.setIsland_time (d : Dev) (i : Nat) (x : Island) :
    (d.setIsland i x).time = d.time := rfl
@[simp] theorem Dev.setIsland_tally (d : Dev) (i : Nat) (x : Island) :
    (d.setIsland i x).tally = d.tally := rfl
@[simp] theorem Dev.setIsland_weave (d : Dev) (i : Nat) (x : Island) :
    (d.setIsland i x).weave = d.weave := rfl
@[simp] theorem Dev.setIsland_shuttles (d : Dev) (i : Nat) (x : Island) :
    (d.setIsland i x).shuttles = d.shuttles := rfl
@[simp] theorem Dev.setIsland_descOrder (d : Dev) (i : Nat) (x : Island) :
    (d.setIsland i x).descOrder = d.descOrder := rfl
@[simp] theorem Dev.setIsland_coll (d : Dev) (i : Nat) (x : Island) :
    (d.setIsland i x).coll = d.coll := rfl
@[simp] theorem Dev.setIsland_power (d : Dev) (i : Nat) (x : Island) :
    (d.setIsland i x).power = d.power := rfl
@[simp] theorem Dev.setIsland_burn (d : Dev) (i : Nat) (x : Island) :
    (d.setIsland i x).burn = d.burn := rfl
@[simp] theorem Dev.setIsland_resil (d : Dev) (i : Nat) (x : Island) :
    (d.setIsland i x).resil = d.resil := rfl
@[simp] theorem Dev.setIsland_stack (d : Dev) (i : Nat) (x : Island) :
    (d.setIsland i x).stack = d.stack := rfl
@[simp] theorem Dev.setIsland_boot (d : Dev) (i : Nat) (x : Island) :
    (d.setIsland i x).boot = d.boot := rfl

/-! ### modIsland -/

@[simp] theorem Dev.modIsland_mem (d : Dev) (i : Nat) (f : Island → Island) :
    (d.modIsland i f).mem = d.mem := rfl
@[simp] theorem Dev.modIsland_tier (d : Dev) (i : Nat) (f : Island → Island) :
    (d.modIsland i f).tier = d.tier := rfl
@[simp] theorem Dev.modIsland_flags (d : Dev) (i : Nat) (f : Island → Island) :
    (d.modIsland i f).flags = d.flags := rfl
@[simp] theorem Dev.modIsland_panels (d : Dev) (i : Nat) (f : Island → Island) :
    (d.modIsland i f).panels = d.panels := rfl
@[simp] theorem Dev.modIsland_wide (d : Dev) (i : Nat) (f : Island → Island) :
    (d.modIsland i f).wide = d.wide := rfl
@[simp] theorem Dev.modIsland_pat (d : Dev) (i : Nat) (f : Island → Island) :
    (d.modIsland i f).pat = d.pat := rfl
@[simp] theorem Dev.modIsland_contract (d : Dev) (i : Nat) (f : Island → Island) :
    (d.modIsland i f).contract = d.contract := rfl
@[simp] theorem Dev.modIsland_tack (d : Dev) (i : Nat) (f : Island → Island) :
    (d.modIsland i f).tack = d.tack := rfl
@[simp] theorem Dev.modIsland_time (d : Dev) (i : Nat) (f : Island → Island) :
    (d.modIsland i f).time = d.time := rfl
@[simp] theorem Dev.modIsland_tally (d : Dev) (i : Nat) (f : Island → Island) :
    (d.modIsland i f).tally = d.tally := rfl
@[simp] theorem Dev.modIsland_weave (d : Dev) (i : Nat) (f : Island → Island) :
    (d.modIsland i f).weave = d.weave := rfl
@[simp] theorem Dev.modIsland_shuttles (d : Dev) (i : Nat) (f : Island → Island) :
    (d.modIsland i f).shuttles = d.shuttles := rfl
@[simp] theorem Dev.modIsland_descOrder (d : Dev) (i : Nat) (f : Island → Island) :
    (d.modIsland i f).descOrder = d.descOrder := rfl
@[simp] theorem Dev.modIsland_coll (d : Dev) (i : Nat) (f : Island → Island) :
    (d.modIsland i f).coll = d.coll := rfl
@[simp] theorem Dev.modIsland_power (d : Dev) (i : Nat) (f : Island → Island) :
    (d.modIsland i f).power = d.power := rfl
@[simp] theorem Dev.modIsland_burn (d : Dev) (i : Nat) (f : Island → Island) :
    (d.modIsland i f).burn = d.burn := rfl
@[simp] theorem Dev.modIsland_resil (d : Dev) (i : Nat) (f : Island → Island) :
    (d.modIsland i f).resil = d.resil := rfl
@[simp] theorem Dev.modIsland_stack (d : Dev) (i : Nat) (f : Island → Island) :
    (d.modIsland i f).stack = d.stack := rfl
@[simp] theorem Dev.modIsland_boot (d : Dev) (i : Nat) (f : Island → Island) :
    (d.modIsland i f).boot = d.boot := rfl

/-! ### put -/

@[simp] theorem Dev.put_mem (d : Dev) (k v : Nat) :
    (d.put k v).mem = d.mem := rfl
@[simp] theorem Dev.put_tier (d : Dev) (k v : Nat) :
    (d.put k v).tier = d.tier := rfl
@[simp] theorem Dev.put_flags (d : Dev) (k v : Nat) :
    (d.put k v).flags = d.flags := rfl
@[simp] theorem Dev.put_panels (d : Dev) (k v : Nat) :
    (d.put k v).panels = d.panels := rfl
@[simp] theorem Dev.put_islands (d : Dev) (k v : Nat) :
    (d.put k v).islands = d.islands := rfl
@[simp] theorem Dev.put_wide (d : Dev) (k v : Nat) :
    (d.put k v).wide = d.wide := rfl
@[simp] theorem Dev.put_pat (d : Dev) (k v : Nat) :
    (d.put k v).pat = d.pat := rfl
@[simp] theorem Dev.put_contract (d : Dev) (k v : Nat) :
    (d.put k v).contract = d.contract := rfl
@[simp] theorem Dev.put_time (d : Dev) (k v : Nat) :
    (d.put k v).time = d.time := rfl
@[simp] theorem Dev.put_tally (d : Dev) (k v : Nat) :
    (d.put k v).tally = d.tally := rfl
@[simp] theorem Dev.put_weave (d : Dev) (k v : Nat) :
    (d.put k v).weave = d.weave := rfl
@[simp] theorem Dev.put_shuttles (d : Dev) (k v : Nat) :
    (d.put k v).shuttles = d.shuttles := rfl
@[simp] theorem Dev.put_descOrder (d : Dev) (k v : Nat) :
    (d.put k v).descOrder = d.descOrder := rfl
@[simp] theorem Dev.put_coll (d : Dev) (k v : Nat) :
    (d.put k v).coll = d.coll := rfl
@[simp] theorem Dev.put_power (d : Dev) (k v : Nat) :
    (d.put k v).power = d.power := rfl
@[simp] theorem Dev.put_burn (d : Dev) (k v : Nat) :
    (d.put k v).burn = d.burn := rfl
@[simp] theorem Dev.put_resil (d : Dev) (k v : Nat) :
    (d.put k v).resil = d.resil := rfl
@[simp] theorem Dev.put_stack (d : Dev) (k v : Nat) :
    (d.put k v).stack = d.stack := rfl
@[simp] theorem Dev.put_boot (d : Dev) (k v : Nat) :
    (d.put k v).boot = d.boot := rfl

/-! ### putB -/

@[simp] theorem Dev.putB_mem (d : Dev) (k off len v : Nat) :
    (d.putB k off len v).mem = d.mem := rfl
@[simp] theorem Dev.putB_tier (d : Dev) (k off len v : Nat) :
    (d.putB k off len v).tier = d.tier := rfl
@[simp] theorem Dev.putB_flags (d : Dev) (k off len v : Nat) :
    (d.putB k off len v).flags = d.flags := rfl
@[simp] theorem Dev.putB_panels (d : Dev) (k off len v : Nat) :
    (d.putB k off len v).panels = d.panels := rfl
@[simp] theorem Dev.putB_islands (d : Dev) (k off len v : Nat) :
    (d.putB k off len v).islands = d.islands := rfl
@[simp] theorem Dev.putB_wide (d : Dev) (k off len v : Nat) :
    (d.putB k off len v).wide = d.wide := rfl
@[simp] theorem Dev.putB_pat (d : Dev) (k off len v : Nat) :
    (d.putB k off len v).pat = d.pat := rfl
@[simp] theorem Dev.putB_contract (d : Dev) (k off len v : Nat) :
    (d.putB k off len v).contract = d.contract := rfl
@[simp] theorem Dev.putB_time (d : Dev) (k off len v : Nat) :
    (d.putB k off len v).time = d.time := rfl
@[simp] theorem Dev.putB_tally (d : Dev) (k off len v : Nat) :
    (d.putB k off len v).tally = d.tally := rfl
@[simp] theorem Dev.putB_weave (d : Dev) (k off len v : Nat) :
    (d.putB k off len v).weave = d.weave := rfl
@[simp] theorem Dev.putB_shuttles (d : Dev) (k off len v : Nat) :
    (d.putB k off len v).shuttles = d.shuttles := rfl
@[simp] theorem Dev.putB_descOrder (d : Dev) (k off len v : Nat) :
    (d.putB k off len v).descOrder = d.descOrder := rfl
@[simp] theorem Dev.putB_coll (d : Dev) (k off len v : Nat) :
    (d.putB k off len v).coll = d.coll := rfl
@[simp] theorem Dev.putB_power (d : Dev) (k off len v : Nat) :
    (d.putB k off len v).power = d.power := rfl
@[simp] theorem Dev.putB_burn (d : Dev) (k off len v : Nat) :
    (d.putB k off len v).burn = d.burn := rfl
@[simp] theorem Dev.putB_resil (d : Dev) (k off len v : Nat) :
    (d.putB k off len v).resil = d.resil := rfl
@[simp] theorem Dev.putB_stack (d : Dev) (k off len v : Nat) :
    (d.putB k off len v).stack = d.stack := rfl
@[simp] theorem Dev.putB_boot (d : Dev) (k off len v : Nat) :
    (d.putB k off len v).boot = d.boot := rfl

/-! ### bump -/

@[simp] theorem Dev.bump_mem (d : Dev) (k off len n : Nat) :
    (d.bump k off len n).mem = d.mem := rfl
@[simp] theorem Dev.bump_tier (d : Dev) (k off len n : Nat) :
    (d.bump k off len n).tier = d.tier := rfl
@[simp] theorem Dev.bump_flags (d : Dev) (k off len n : Nat) :
    (d.bump k off len n).flags = d.flags := rfl
@[simp] theorem Dev.bump_panels (d : Dev) (k off len n : Nat) :
    (d.bump k off len n).panels = d.panels := rfl
@[simp] theorem Dev.bump_islands (d : Dev) (k off len n : Nat) :
    (d.bump k off len n).islands = d.islands := rfl
@[simp] theorem Dev.bump_wide (d : Dev) (k off len n : Nat) :
    (d.bump k off len n).wide = d.wide := rfl
@[simp] theorem Dev.bump_pat (d : Dev) (k off len n : Nat) :
    (d.bump k off len n).pat = d.pat := rfl
@[simp] theorem Dev.bump_contract (d : Dev) (k off len n : Nat) :
    (d.bump k off len n).contract = d.contract := rfl
@[simp] theorem Dev.bump_time (d : Dev) (k off len n : Nat) :
    (d.bump k off len n).time = d.time := rfl
@[simp] theorem Dev.bump_tally (d : Dev) (k off len n : Nat) :
    (d.bump k off len n).tally = d.tally := rfl
@[simp] theorem Dev.bump_weave (d : Dev) (k off len n : Nat) :
    (d.bump k off len n).weave = d.weave := rfl
@[simp] theorem Dev.bump_shuttles (d : Dev) (k off len n : Nat) :
    (d.bump k off len n).shuttles = d.shuttles := rfl
@[simp] theorem Dev.bump_descOrder (d : Dev) (k off len n : Nat) :
    (d.bump k off len n).descOrder = d.descOrder := rfl
@[simp] theorem Dev.bump_coll (d : Dev) (k off len n : Nat) :
    (d.bump k off len n).coll = d.coll := rfl
@[simp] theorem Dev.bump_power (d : Dev) (k off len n : Nat) :
    (d.bump k off len n).power = d.power := rfl
@[simp] theorem Dev.bump_burn (d : Dev) (k off len n : Nat) :
    (d.bump k off len n).burn = d.burn := rfl
@[simp] theorem Dev.bump_resil (d : Dev) (k off len n : Nat) :
    (d.bump k off len n).resil = d.resil := rfl
@[simp] theorem Dev.bump_stack (d : Dev) (k off len n : Nat) :
    (d.bump k off len n).stack = d.stack := rfl
@[simp] theorem Dev.bump_boot (d : Dev) (k off len n : Nat) :
    (d.bump k off len n).boot = d.boot := rfl

/-! ### count -/

@[simp] theorem Dev.count_mem (d : Dev) (num n : Nat) :
    (d.count num n).mem = d.mem := rfl
@[simp] theorem Dev.count_tier (d : Dev) (num n : Nat) :
    (d.count num n).tier = d.tier := rfl
@[simp] theorem Dev.count_flags (d : Dev) (num n : Nat) :
    (d.count num n).flags = d.flags := rfl
@[simp] theorem Dev.count_panels (d : Dev) (num n : Nat) :
    (d.count num n).panels = d.panels := rfl
@[simp] theorem Dev.count_islands (d : Dev) (num n : Nat) :
    (d.count num n).islands = d.islands := rfl
@[simp] theorem Dev.count_wide (d : Dev) (num n : Nat) :
    (d.count num n).wide = d.wide := rfl
@[simp] theorem Dev.count_pat (d : Dev) (num n : Nat) :
    (d.count num n).pat = d.pat := rfl
@[simp] theorem Dev.count_contract (d : Dev) (num n : Nat) :
    (d.count num n).contract = d.contract := rfl
@[simp] theorem Dev.count_tack (d : Dev) (num n : Nat) :
    (d.count num n).tack = d.tack := rfl
@[simp] theorem Dev.count_time (d : Dev) (num n : Nat) :
    (d.count num n).time = d.time := rfl
@[simp] theorem Dev.count_weave (d : Dev) (num n : Nat) :
    (d.count num n).weave = d.weave := rfl
@[simp] theorem Dev.count_shuttles (d : Dev) (num n : Nat) :
    (d.count num n).shuttles = d.shuttles := rfl
@[simp] theorem Dev.count_descOrder (d : Dev) (num n : Nat) :
    (d.count num n).descOrder = d.descOrder := rfl
@[simp] theorem Dev.count_coll (d : Dev) (num n : Nat) :
    (d.count num n).coll = d.coll := rfl
@[simp] theorem Dev.count_power (d : Dev) (num n : Nat) :
    (d.count num n).power = d.power := rfl
@[simp] theorem Dev.count_burn (d : Dev) (num n : Nat) :
    (d.count num n).burn = d.burn := rfl
@[simp] theorem Dev.count_resil (d : Dev) (num n : Nat) :
    (d.count num n).resil = d.resil := rfl
@[simp] theorem Dev.count_stack (d : Dev) (num n : Nat) :
    (d.count num n).stack = d.stack := rfl
@[simp] theorem Dev.count_boot (d : Dev) (num n : Nat) :
    (d.count num n).boot = d.boot := rfl

/-! ### write -/

@[simp] theorem Dev.write_flags (d : Dev) (a : Nat) (bs : List Byte) :
    (d.write a bs).flags = d.flags := rfl
@[simp] theorem Dev.write_panels (d : Dev) (a : Nat) (bs : List Byte) :
    (d.write a bs).panels = d.panels := rfl
@[simp] theorem Dev.write_islands (d : Dev) (a : Nat) (bs : List Byte) :
    (d.write a bs).islands = d.islands := rfl
@[simp] theorem Dev.write_wide (d : Dev) (a : Nat) (bs : List Byte) :
    (d.write a bs).wide = d.wide := rfl
@[simp] theorem Dev.write_pat (d : Dev) (a : Nat) (bs : List Byte) :
    (d.write a bs).pat = d.pat := rfl
@[simp] theorem Dev.write_contract (d : Dev) (a : Nat) (bs : List Byte) :
    (d.write a bs).contract = d.contract := rfl
@[simp] theorem Dev.write_tack (d : Dev) (a : Nat) (bs : List Byte) :
    (d.write a bs).tack = d.tack := rfl
@[simp] theorem Dev.write_time (d : Dev) (a : Nat) (bs : List Byte) :
    (d.write a bs).time = d.time := rfl
@[simp] theorem Dev.write_tally (d : Dev) (a : Nat) (bs : List Byte) :
    (d.write a bs).tally = d.tally := rfl
@[simp] theorem Dev.write_weave (d : Dev) (a : Nat) (bs : List Byte) :
    (d.write a bs).weave = d.weave := rfl
@[simp] theorem Dev.write_shuttles (d : Dev) (a : Nat) (bs : List Byte) :
    (d.write a bs).shuttles = d.shuttles := rfl
@[simp] theorem Dev.write_descOrder (d : Dev) (a : Nat) (bs : List Byte) :
    (d.write a bs).descOrder = d.descOrder := rfl
@[simp] theorem Dev.write_coll (d : Dev) (a : Nat) (bs : List Byte) :
    (d.write a bs).coll = d.coll := rfl
@[simp] theorem Dev.write_power (d : Dev) (a : Nat) (bs : List Byte) :
    (d.write a bs).power = d.power := rfl
@[simp] theorem Dev.write_burn (d : Dev) (a : Nat) (bs : List Byte) :
    (d.write a bs).burn = d.burn := rfl
@[simp] theorem Dev.write_resil (d : Dev) (a : Nat) (bs : List Byte) :
    (d.write a bs).resil = d.resil := rfl
@[simp] theorem Dev.write_stack (d : Dev) (a : Nat) (bs : List Byte) :
    (d.write a bs).stack = d.stack := rfl
@[simp] theorem Dev.write_boot (d : Dev) (a : Nat) (bs : List Byte) :
    (d.write a bs).boot = d.boot := rfl

/-! ### zeroRange -/

@[simp] theorem Dev.zeroRange_flags (d : Dev) (a n : Nat) :
    (d.zeroRange a n).flags = d.flags := rfl
@[simp] theorem Dev.zeroRange_panels (d : Dev) (a n : Nat) :
    (d.zeroRange a n).panels = d.panels := rfl
@[simp] theorem Dev.zeroRange_islands (d : Dev) (a n : Nat) :
    (d.zeroRange a n).islands = d.islands := rfl
@[simp] theorem Dev.zeroRange_wide (d : Dev) (a n : Nat) :
    (d.zeroRange a n).wide = d.wide := rfl
@[simp] theorem Dev.zeroRange_pat (d : Dev) (a n : Nat) :
    (d.zeroRange a n).pat = d.pat := rfl
@[simp] theorem Dev.zeroRange_contract (d : Dev) (a n : Nat) :
    (d.zeroRange a n).contract = d.contract := rfl
@[simp] theorem Dev.zeroRange_tack (d : Dev) (a n : Nat) :
    (d.zeroRange a n).tack = d.tack := rfl
@[simp] theorem Dev.zeroRange_time (d : Dev) (a n : Nat) :
    (d.zeroRange a n).time = d.time := rfl
@[simp] theorem Dev.zeroRange_tally (d : Dev) (a n : Nat) :
    (d.zeroRange a n).tally = d.tally := rfl
@[simp] theorem Dev.zeroRange_weave (d : Dev) (a n : Nat) :
    (d.zeroRange a n).weave = d.weave := rfl
@[simp] theorem Dev.zeroRange_shuttles (d : Dev) (a n : Nat) :
    (d.zeroRange a n).shuttles = d.shuttles := rfl
@[simp] theorem Dev.zeroRange_descOrder (d : Dev) (a n : Nat) :
    (d.zeroRange a n).descOrder = d.descOrder := rfl
@[simp] theorem Dev.zeroRange_coll (d : Dev) (a n : Nat) :
    (d.zeroRange a n).coll = d.coll := rfl
@[simp] theorem Dev.zeroRange_power (d : Dev) (a n : Nat) :
    (d.zeroRange a n).power = d.power := rfl
@[simp] theorem Dev.zeroRange_burn (d : Dev) (a n : Nat) :
    (d.zeroRange a n).burn = d.burn := rfl
@[simp] theorem Dev.zeroRange_resil (d : Dev) (a n : Nat) :
    (d.zeroRange a n).resil = d.resil := rfl
@[simp] theorem Dev.zeroRange_stack (d : Dev) (a n : Nat) :
    (d.zeroRange a n).stack = d.stack := rfl
@[simp] theorem Dev.zeroRange_boot (d : Dev) (a n : Nat) :
    (d.zeroRange a n).boot = d.boot := rfl

/-! ### schedule -/

@[simp] theorem Dev.schedule_mem (d : Dev) (x : Item) (i : Nat) :
    (d.schedule x i).mem = d.mem := rfl
@[simp] theorem Dev.schedule_tier (d : Dev) (x : Item) (i : Nat) :
    (d.schedule x i).tier = d.tier := rfl
@[simp] theorem Dev.schedule_flags (d : Dev) (x : Item) (i : Nat) :
    (d.schedule x i).flags = d.flags := rfl
@[simp] theorem Dev.schedule_panels (d : Dev) (x : Item) (i : Nat) :
    (d.schedule x i).panels = d.panels := rfl
@[simp] theorem Dev.schedule_wide (d : Dev) (x : Item) (i : Nat) :
    (d.schedule x i).wide = d.wide := rfl
@[simp] theorem Dev.schedule_pat (d : Dev) (x : Item) (i : Nat) :
    (d.schedule x i).pat = d.pat := rfl
@[simp] theorem Dev.schedule_contract (d : Dev) (x : Item) (i : Nat) :
    (d.schedule x i).contract = d.contract := rfl
@[simp] theorem Dev.schedule_tack (d : Dev) (x : Item) (i : Nat) :
    (d.schedule x i).tack = d.tack := rfl
@[simp] theorem Dev.schedule_time (d : Dev) (x : Item) (i : Nat) :
    (d.schedule x i).time = d.time := rfl
@[simp] theorem Dev.schedule_tally (d : Dev) (x : Item) (i : Nat) :
    (d.schedule x i).tally = d.tally := rfl
@[simp] theorem Dev.schedule_weave (d : Dev) (x : Item) (i : Nat) :
    (d.schedule x i).weave = d.weave := rfl
@[simp] theorem Dev.schedule_shuttles (d : Dev) (x : Item) (i : Nat) :
    (d.schedule x i).shuttles = d.shuttles := rfl
@[simp] theorem Dev.schedule_descOrder (d : Dev) (x : Item) (i : Nat) :
    (d.schedule x i).descOrder = d.descOrder := rfl
@[simp] theorem Dev.schedule_coll (d : Dev) (x : Item) (i : Nat) :
    (d.schedule x i).coll = d.coll := rfl
@[simp] theorem Dev.schedule_power (d : Dev) (x : Item) (i : Nat) :
    (d.schedule x i).power = d.power := rfl
@[simp] theorem Dev.schedule_burn (d : Dev) (x : Item) (i : Nat) :
    (d.schedule x i).burn = d.burn := rfl
@[simp] theorem Dev.schedule_resil (d : Dev) (x : Item) (i : Nat) :
    (d.schedule x i).resil = d.resil := rfl
@[simp] theorem Dev.schedule_stack (d : Dev) (x : Item) (i : Nat) :
    (d.schedule x i).stack = d.stack := rfl
@[simp] theorem Dev.schedule_boot (d : Dev) (x : Item) (i : Nat) :
    (d.schedule x i).boot = d.boot := rfl

/-! ### later -/

@[simp] theorem Dev.later_mem (d : Dev) (p issue slot cycle rank : Nat) (w : Deferred) :
    (d.later p issue slot cycle rank w).mem = d.mem := rfl
@[simp] theorem Dev.later_tier (d : Dev) (p issue slot cycle rank : Nat) (w : Deferred) :
    (d.later p issue slot cycle rank w).tier = d.tier := rfl
@[simp] theorem Dev.later_flags (d : Dev) (p issue slot cycle rank : Nat) (w : Deferred) :
    (d.later p issue slot cycle rank w).flags = d.flags := rfl
@[simp] theorem Dev.later_panels (d : Dev) (p issue slot cycle rank : Nat) (w : Deferred) :
    (d.later p issue slot cycle rank w).panels = d.panels := rfl
@[simp] theorem Dev.later_wide (d : Dev) (p issue slot cycle rank : Nat) (w : Deferred) :
    (d.later p issue slot cycle rank w).wide = d.wide := rfl
@[simp] theorem Dev.later_pat (d : Dev) (p issue slot cycle rank : Nat) (w : Deferred) :
    (d.later p issue slot cycle rank w).pat = d.pat := rfl
@[simp] theorem Dev.later_contract (d : Dev) (p issue slot cycle rank : Nat) (w : Deferred) :
    (d.later p issue slot cycle rank w).contract = d.contract := rfl
@[simp] theorem Dev.later_tack (d : Dev) (p issue slot cycle rank : Nat) (w : Deferred) :
    (d.later p issue slot cycle rank w).tack = d.tack := rfl
@[simp] theorem Dev.later_time (d : Dev) (p issue slot cycle rank : Nat) (w : Deferred) :
    (d.later p issue slot cycle rank w).time = d.time := rfl
@[simp] theorem Dev.later_tally (d : Dev) (p issue slot cycle rank : Nat) (w : Deferred) :
    (d.later p issue slot cycle rank w).tally = d.tally := rfl
@[simp] theorem Dev.later_weave (d : Dev) (p issue slot cycle rank : Nat) (w : Deferred) :
    (d.later p issue slot cycle rank w).weave = d.weave := rfl
@[simp] theorem Dev.later_shuttles (d : Dev) (p issue slot cycle rank : Nat) (w : Deferred) :
    (d.later p issue slot cycle rank w).shuttles = d.shuttles := rfl
@[simp] theorem Dev.later_descOrder (d : Dev) (p issue slot cycle rank : Nat) (w : Deferred) :
    (d.later p issue slot cycle rank w).descOrder = d.descOrder := rfl
@[simp] theorem Dev.later_coll (d : Dev) (p issue slot cycle rank : Nat) (w : Deferred) :
    (d.later p issue slot cycle rank w).coll = d.coll := rfl
@[simp] theorem Dev.later_power (d : Dev) (p issue slot cycle rank : Nat) (w : Deferred) :
    (d.later p issue slot cycle rank w).power = d.power := rfl
@[simp] theorem Dev.later_burn (d : Dev) (p issue slot cycle rank : Nat) (w : Deferred) :
    (d.later p issue slot cycle rank w).burn = d.burn := rfl
@[simp] theorem Dev.later_resil (d : Dev) (p issue slot cycle rank : Nat) (w : Deferred) :
    (d.later p issue slot cycle rank w).resil = d.resil := rfl
@[simp] theorem Dev.later_stack (d : Dev) (p issue slot cycle rank : Nat) (w : Deferred) :
    (d.later p issue slot cycle rank w).stack = d.stack := rfl
@[simp] theorem Dev.later_boot (d : Dev) (p issue slot cycle rank : Nat) (w : Deferred) :
    (d.later p issue slot cycle rank w).boot = d.boot := rfl

/-! ### modContract -/

@[simp] theorem Dev.modContract_mem (d : Dev) (f : ContractState → ContractState) :
    (d.modContract f).mem = d.mem := rfl
@[simp] theorem Dev.modContract_tier (d : Dev) (f : ContractState → ContractState) :
    (d.modContract f).tier = d.tier := rfl
@[simp] theorem Dev.modContract_flags (d : Dev) (f : ContractState → ContractState) :
    (d.modContract f).flags = d.flags := rfl
@[simp] theorem Dev.modContract_panels (d : Dev) (f : ContractState → ContractState) :
    (d.modContract f).panels = d.panels := rfl
@[simp] theorem Dev.modContract_islands (d : Dev) (f : ContractState → ContractState) :
    (d.modContract f).islands = d.islands := rfl
@[simp] theorem Dev.modContract_wide (d : Dev) (f : ContractState → ContractState) :
    (d.modContract f).wide = d.wide := rfl
@[simp] theorem Dev.modContract_pat (d : Dev) (f : ContractState → ContractState) :
    (d.modContract f).pat = d.pat := rfl
@[simp] theorem Dev.modContract_tack (d : Dev) (f : ContractState → ContractState) :
    (d.modContract f).tack = d.tack := rfl
@[simp] theorem Dev.modContract_time (d : Dev) (f : ContractState → ContractState) :
    (d.modContract f).time = d.time := rfl
@[simp] theorem Dev.modContract_tally (d : Dev) (f : ContractState → ContractState) :
    (d.modContract f).tally = d.tally := rfl
@[simp] theorem Dev.modContract_weave (d : Dev) (f : ContractState → ContractState) :
    (d.modContract f).weave = d.weave := rfl
@[simp] theorem Dev.modContract_shuttles (d : Dev) (f : ContractState → ContractState) :
    (d.modContract f).shuttles = d.shuttles := rfl
@[simp] theorem Dev.modContract_descOrder (d : Dev) (f : ContractState → ContractState) :
    (d.modContract f).descOrder = d.descOrder := rfl
@[simp] theorem Dev.modContract_coll (d : Dev) (f : ContractState → ContractState) :
    (d.modContract f).coll = d.coll := rfl
@[simp] theorem Dev.modContract_power (d : Dev) (f : ContractState → ContractState) :
    (d.modContract f).power = d.power := rfl
@[simp] theorem Dev.modContract_burn (d : Dev) (f : ContractState → ContractState) :
    (d.modContract f).burn = d.burn := rfl
@[simp] theorem Dev.modContract_resil (d : Dev) (f : ContractState → ContractState) :
    (d.modContract f).resil = d.resil := rfl
@[simp] theorem Dev.modContract_stack (d : Dev) (f : ContractState → ContractState) :
    (d.modContract f).stack = d.stack := rfl
@[simp] theorem Dev.modContract_boot (d : Dev) (f : ContractState → ContractState) :
    (d.modContract f).boot = d.boot := rfl

/-! ### modPower -/

@[simp] theorem Dev.modPower_mem (d : Dev) (f : PowerState → PowerState) :
    (d.modPower f).mem = d.mem := rfl
@[simp] theorem Dev.modPower_tier (d : Dev) (f : PowerState → PowerState) :
    (d.modPower f).tier = d.tier := rfl
@[simp] theorem Dev.modPower_flags (d : Dev) (f : PowerState → PowerState) :
    (d.modPower f).flags = d.flags := rfl
@[simp] theorem Dev.modPower_panels (d : Dev) (f : PowerState → PowerState) :
    (d.modPower f).panels = d.panels := rfl
@[simp] theorem Dev.modPower_islands (d : Dev) (f : PowerState → PowerState) :
    (d.modPower f).islands = d.islands := rfl
@[simp] theorem Dev.modPower_wide (d : Dev) (f : PowerState → PowerState) :
    (d.modPower f).wide = d.wide := rfl
@[simp] theorem Dev.modPower_pat (d : Dev) (f : PowerState → PowerState) :
    (d.modPower f).pat = d.pat := rfl
@[simp] theorem Dev.modPower_contract (d : Dev) (f : PowerState → PowerState) :
    (d.modPower f).contract = d.contract := rfl
@[simp] theorem Dev.modPower_tack (d : Dev) (f : PowerState → PowerState) :
    (d.modPower f).tack = d.tack := rfl
@[simp] theorem Dev.modPower_time (d : Dev) (f : PowerState → PowerState) :
    (d.modPower f).time = d.time := rfl
@[simp] theorem Dev.modPower_tally (d : Dev) (f : PowerState → PowerState) :
    (d.modPower f).tally = d.tally := rfl
@[simp] theorem Dev.modPower_weave (d : Dev) (f : PowerState → PowerState) :
    (d.modPower f).weave = d.weave := rfl
@[simp] theorem Dev.modPower_shuttles (d : Dev) (f : PowerState → PowerState) :
    (d.modPower f).shuttles = d.shuttles := rfl
@[simp] theorem Dev.modPower_descOrder (d : Dev) (f : PowerState → PowerState) :
    (d.modPower f).descOrder = d.descOrder := rfl
@[simp] theorem Dev.modPower_coll (d : Dev) (f : PowerState → PowerState) :
    (d.modPower f).coll = d.coll := rfl
@[simp] theorem Dev.modPower_burn (d : Dev) (f : PowerState → PowerState) :
    (d.modPower f).burn = d.burn := rfl
@[simp] theorem Dev.modPower_resil (d : Dev) (f : PowerState → PowerState) :
    (d.modPower f).resil = d.resil := rfl
@[simp] theorem Dev.modPower_stack (d : Dev) (f : PowerState → PowerState) :
    (d.modPower f).stack = d.stack := rfl
@[simp] theorem Dev.modPower_boot (d : Dev) (f : PowerState → PowerState) :
    (d.modPower f).boot = d.boot := rfl

/-! ### modTime -/

@[simp] theorem Dev.modTime_mem (d : Dev) (f : TimeState → TimeState) :
    (d.modTime f).mem = d.mem := rfl
@[simp] theorem Dev.modTime_tier (d : Dev) (f : TimeState → TimeState) :
    (d.modTime f).tier = d.tier := rfl
@[simp] theorem Dev.modTime_flags (d : Dev) (f : TimeState → TimeState) :
    (d.modTime f).flags = d.flags := rfl
@[simp] theorem Dev.modTime_panels (d : Dev) (f : TimeState → TimeState) :
    (d.modTime f).panels = d.panels := rfl
@[simp] theorem Dev.modTime_islands (d : Dev) (f : TimeState → TimeState) :
    (d.modTime f).islands = d.islands := rfl
@[simp] theorem Dev.modTime_wide (d : Dev) (f : TimeState → TimeState) :
    (d.modTime f).wide = d.wide := rfl
@[simp] theorem Dev.modTime_pat (d : Dev) (f : TimeState → TimeState) :
    (d.modTime f).pat = d.pat := rfl
@[simp] theorem Dev.modTime_contract (d : Dev) (f : TimeState → TimeState) :
    (d.modTime f).contract = d.contract := rfl
@[simp] theorem Dev.modTime_tack (d : Dev) (f : TimeState → TimeState) :
    (d.modTime f).tack = d.tack := rfl
@[simp] theorem Dev.modTime_tally (d : Dev) (f : TimeState → TimeState) :
    (d.modTime f).tally = d.tally := rfl
@[simp] theorem Dev.modTime_weave (d : Dev) (f : TimeState → TimeState) :
    (d.modTime f).weave = d.weave := rfl
@[simp] theorem Dev.modTime_shuttles (d : Dev) (f : TimeState → TimeState) :
    (d.modTime f).shuttles = d.shuttles := rfl
@[simp] theorem Dev.modTime_descOrder (d : Dev) (f : TimeState → TimeState) :
    (d.modTime f).descOrder = d.descOrder := rfl
@[simp] theorem Dev.modTime_coll (d : Dev) (f : TimeState → TimeState) :
    (d.modTime f).coll = d.coll := rfl
@[simp] theorem Dev.modTime_power (d : Dev) (f : TimeState → TimeState) :
    (d.modTime f).power = d.power := rfl
@[simp] theorem Dev.modTime_burn (d : Dev) (f : TimeState → TimeState) :
    (d.modTime f).burn = d.burn := rfl
@[simp] theorem Dev.modTime_resil (d : Dev) (f : TimeState → TimeState) :
    (d.modTime f).resil = d.resil := rfl
@[simp] theorem Dev.modTime_stack (d : Dev) (f : TimeState → TimeState) :
    (d.modTime f).stack = d.stack := rfl
@[simp] theorem Dev.modTime_boot (d : Dev) (f : TimeState → TimeState) :
    (d.modTime f).boot = d.boot := rfl

/-! ### modTally -/

@[simp] theorem Dev.modTally_mem (d : Dev) (f : TallyState → TallyState) :
    (d.modTally f).mem = d.mem := rfl
@[simp] theorem Dev.modTally_tier (d : Dev) (f : TallyState → TallyState) :
    (d.modTally f).tier = d.tier := rfl
@[simp] theorem Dev.modTally_flags (d : Dev) (f : TallyState → TallyState) :
    (d.modTally f).flags = d.flags := rfl
@[simp] theorem Dev.modTally_panels (d : Dev) (f : TallyState → TallyState) :
    (d.modTally f).panels = d.panels := rfl
@[simp] theorem Dev.modTally_islands (d : Dev) (f : TallyState → TallyState) :
    (d.modTally f).islands = d.islands := rfl
@[simp] theorem Dev.modTally_wide (d : Dev) (f : TallyState → TallyState) :
    (d.modTally f).wide = d.wide := rfl
@[simp] theorem Dev.modTally_pat (d : Dev) (f : TallyState → TallyState) :
    (d.modTally f).pat = d.pat := rfl
@[simp] theorem Dev.modTally_contract (d : Dev) (f : TallyState → TallyState) :
    (d.modTally f).contract = d.contract := rfl
@[simp] theorem Dev.modTally_tack (d : Dev) (f : TallyState → TallyState) :
    (d.modTally f).tack = d.tack := rfl
@[simp] theorem Dev.modTally_time (d : Dev) (f : TallyState → TallyState) :
    (d.modTally f).time = d.time := rfl
@[simp] theorem Dev.modTally_weave (d : Dev) (f : TallyState → TallyState) :
    (d.modTally f).weave = d.weave := rfl
@[simp] theorem Dev.modTally_shuttles (d : Dev) (f : TallyState → TallyState) :
    (d.modTally f).shuttles = d.shuttles := rfl
@[simp] theorem Dev.modTally_descOrder (d : Dev) (f : TallyState → TallyState) :
    (d.modTally f).descOrder = d.descOrder := rfl
@[simp] theorem Dev.modTally_coll (d : Dev) (f : TallyState → TallyState) :
    (d.modTally f).coll = d.coll := rfl
@[simp] theorem Dev.modTally_power (d : Dev) (f : TallyState → TallyState) :
    (d.modTally f).power = d.power := rfl
@[simp] theorem Dev.modTally_burn (d : Dev) (f : TallyState → TallyState) :
    (d.modTally f).burn = d.burn := rfl
@[simp] theorem Dev.modTally_resil (d : Dev) (f : TallyState → TallyState) :
    (d.modTally f).resil = d.resil := rfl
@[simp] theorem Dev.modTally_stack (d : Dev) (f : TallyState → TallyState) :
    (d.modTally f).stack = d.stack := rfl
@[simp] theorem Dev.modTally_boot (d : Dev) (f : TallyState → TallyState) :
    (d.modTally f).boot = d.boot := rfl

/-! ### modBoot -/

@[simp] theorem Dev.modBoot_mem (d : Dev) (f : BootState → BootState) :
    (d.modBoot f).mem = d.mem := rfl
@[simp] theorem Dev.modBoot_tier (d : Dev) (f : BootState → BootState) :
    (d.modBoot f).tier = d.tier := rfl
@[simp] theorem Dev.modBoot_flags (d : Dev) (f : BootState → BootState) :
    (d.modBoot f).flags = d.flags := rfl
@[simp] theorem Dev.modBoot_panels (d : Dev) (f : BootState → BootState) :
    (d.modBoot f).panels = d.panels := rfl
@[simp] theorem Dev.modBoot_islands (d : Dev) (f : BootState → BootState) :
    (d.modBoot f).islands = d.islands := rfl
@[simp] theorem Dev.modBoot_wide (d : Dev) (f : BootState → BootState) :
    (d.modBoot f).wide = d.wide := rfl
@[simp] theorem Dev.modBoot_pat (d : Dev) (f : BootState → BootState) :
    (d.modBoot f).pat = d.pat := rfl
@[simp] theorem Dev.modBoot_contract (d : Dev) (f : BootState → BootState) :
    (d.modBoot f).contract = d.contract := rfl
@[simp] theorem Dev.modBoot_tack (d : Dev) (f : BootState → BootState) :
    (d.modBoot f).tack = d.tack := rfl
@[simp] theorem Dev.modBoot_time (d : Dev) (f : BootState → BootState) :
    (d.modBoot f).time = d.time := rfl
@[simp] theorem Dev.modBoot_tally (d : Dev) (f : BootState → BootState) :
    (d.modBoot f).tally = d.tally := rfl
@[simp] theorem Dev.modBoot_weave (d : Dev) (f : BootState → BootState) :
    (d.modBoot f).weave = d.weave := rfl
@[simp] theorem Dev.modBoot_shuttles (d : Dev) (f : BootState → BootState) :
    (d.modBoot f).shuttles = d.shuttles := rfl
@[simp] theorem Dev.modBoot_descOrder (d : Dev) (f : BootState → BootState) :
    (d.modBoot f).descOrder = d.descOrder := rfl
@[simp] theorem Dev.modBoot_coll (d : Dev) (f : BootState → BootState) :
    (d.modBoot f).coll = d.coll := rfl
@[simp] theorem Dev.modBoot_power (d : Dev) (f : BootState → BootState) :
    (d.modBoot f).power = d.power := rfl
@[simp] theorem Dev.modBoot_burn (d : Dev) (f : BootState → BootState) :
    (d.modBoot f).burn = d.burn := rfl
@[simp] theorem Dev.modBoot_resil (d : Dev) (f : BootState → BootState) :
    (d.modBoot f).resil = d.resil := rfl
@[simp] theorem Dev.modBoot_stack (d : Dev) (f : BootState → BootState) :
    (d.modBoot f).stack = d.stack := rfl

/-! ### modTack -/

@[simp] theorem Dev.modTack_mem (d : Dev) (f : TackState → TackState) :
    (d.modTack f).mem = d.mem := rfl
@[simp] theorem Dev.modTack_tier (d : Dev) (f : TackState → TackState) :
    (d.modTack f).tier = d.tier := rfl
@[simp] theorem Dev.modTack_flags (d : Dev) (f : TackState → TackState) :
    (d.modTack f).flags = d.flags := rfl
@[simp] theorem Dev.modTack_panels (d : Dev) (f : TackState → TackState) :
    (d.modTack f).panels = d.panels := rfl
@[simp] theorem Dev.modTack_islands (d : Dev) (f : TackState → TackState) :
    (d.modTack f).islands = d.islands := rfl
@[simp] theorem Dev.modTack_wide (d : Dev) (f : TackState → TackState) :
    (d.modTack f).wide = d.wide := rfl
@[simp] theorem Dev.modTack_pat (d : Dev) (f : TackState → TackState) :
    (d.modTack f).pat = d.pat := rfl
@[simp] theorem Dev.modTack_contract (d : Dev) (f : TackState → TackState) :
    (d.modTack f).contract = d.contract := rfl
@[simp] theorem Dev.modTack_time (d : Dev) (f : TackState → TackState) :
    (d.modTack f).time = d.time := rfl
@[simp] theorem Dev.modTack_tally (d : Dev) (f : TackState → TackState) :
    (d.modTack f).tally = d.tally := rfl
@[simp] theorem Dev.modTack_weave (d : Dev) (f : TackState → TackState) :
    (d.modTack f).weave = d.weave := rfl
@[simp] theorem Dev.modTack_shuttles (d : Dev) (f : TackState → TackState) :
    (d.modTack f).shuttles = d.shuttles := rfl
@[simp] theorem Dev.modTack_descOrder (d : Dev) (f : TackState → TackState) :
    (d.modTack f).descOrder = d.descOrder := rfl
@[simp] theorem Dev.modTack_coll (d : Dev) (f : TackState → TackState) :
    (d.modTack f).coll = d.coll := rfl
@[simp] theorem Dev.modTack_power (d : Dev) (f : TackState → TackState) :
    (d.modTack f).power = d.power := rfl
@[simp] theorem Dev.modTack_burn (d : Dev) (f : TackState → TackState) :
    (d.modTack f).burn = d.burn := rfl
@[simp] theorem Dev.modTack_resil (d : Dev) (f : TackState → TackState) :
    (d.modTack f).resil = d.resil := rfl
@[simp] theorem Dev.modTack_stack (d : Dev) (f : TackState → TackState) :
    (d.modTack f).stack = d.stack := rfl
@[simp] theorem Dev.modTack_boot (d : Dev) (f : TackState → TackState) :
    (d.modTack f).boot = d.boot := rfl

/-! ### modLink -/

@[simp] theorem Dev.modLink_mem (d : Dev) (i : Nat) (f : Link → Link) :
    (d.modLink i f).mem = d.mem := rfl
@[simp] theorem Dev.modLink_tier (d : Dev) (i : Nat) (f : Link → Link) :
    (d.modLink i f).tier = d.tier := rfl
@[simp] theorem Dev.modLink_flags (d : Dev) (i : Nat) (f : Link → Link) :
    (d.modLink i f).flags = d.flags := rfl
@[simp] theorem Dev.modLink_panels (d : Dev) (i : Nat) (f : Link → Link) :
    (d.modLink i f).panels = d.panels := rfl
@[simp] theorem Dev.modLink_islands (d : Dev) (i : Nat) (f : Link → Link) :
    (d.modLink i f).islands = d.islands := rfl
@[simp] theorem Dev.modLink_wide (d : Dev) (i : Nat) (f : Link → Link) :
    (d.modLink i f).wide = d.wide := rfl
@[simp] theorem Dev.modLink_pat (d : Dev) (i : Nat) (f : Link → Link) :
    (d.modLink i f).pat = d.pat := rfl
@[simp] theorem Dev.modLink_contract (d : Dev) (i : Nat) (f : Link → Link) :
    (d.modLink i f).contract = d.contract := rfl
@[simp] theorem Dev.modLink_tack (d : Dev) (i : Nat) (f : Link → Link) :
    (d.modLink i f).tack = d.tack := rfl
@[simp] theorem Dev.modLink_time (d : Dev) (i : Nat) (f : Link → Link) :
    (d.modLink i f).time = d.time := rfl
@[simp] theorem Dev.modLink_tally (d : Dev) (i : Nat) (f : Link → Link) :
    (d.modLink i f).tally = d.tally := rfl
@[simp] theorem Dev.modLink_shuttles (d : Dev) (i : Nat) (f : Link → Link) :
    (d.modLink i f).shuttles = d.shuttles := rfl
@[simp] theorem Dev.modLink_descOrder (d : Dev) (i : Nat) (f : Link → Link) :
    (d.modLink i f).descOrder = d.descOrder := rfl
@[simp] theorem Dev.modLink_coll (d : Dev) (i : Nat) (f : Link → Link) :
    (d.modLink i f).coll = d.coll := rfl
@[simp] theorem Dev.modLink_power (d : Dev) (i : Nat) (f : Link → Link) :
    (d.modLink i f).power = d.power := rfl
@[simp] theorem Dev.modLink_burn (d : Dev) (i : Nat) (f : Link → Link) :
    (d.modLink i f).burn = d.burn := rfl
@[simp] theorem Dev.modLink_resil (d : Dev) (i : Nat) (f : Link → Link) :
    (d.modLink i f).resil = d.resil := rfl
@[simp] theorem Dev.modLink_stack (d : Dev) (i : Nat) (f : Link → Link) :
    (d.modLink i f).stack = d.stack := rfl
@[simp] theorem Dev.modLink_boot (d : Dev) (i : Nat) (f : Link → Link) :
    (d.modLink i f).boot = d.boot := rfl

/-! ### modShuttle -/

@[simp] theorem Dev.modShuttle_mem (d : Dev) (n : Nat) (f : Shuttle → Shuttle) :
    (d.modShuttle n f).mem = d.mem := rfl
@[simp] theorem Dev.modShuttle_tier (d : Dev) (n : Nat) (f : Shuttle → Shuttle) :
    (d.modShuttle n f).tier = d.tier := rfl
@[simp] theorem Dev.modShuttle_flags (d : Dev) (n : Nat) (f : Shuttle → Shuttle) :
    (d.modShuttle n f).flags = d.flags := rfl
@[simp] theorem Dev.modShuttle_panels (d : Dev) (n : Nat) (f : Shuttle → Shuttle) :
    (d.modShuttle n f).panels = d.panels := rfl
@[simp] theorem Dev.modShuttle_islands (d : Dev) (n : Nat) (f : Shuttle → Shuttle) :
    (d.modShuttle n f).islands = d.islands := rfl
@[simp] theorem Dev.modShuttle_wide (d : Dev) (n : Nat) (f : Shuttle → Shuttle) :
    (d.modShuttle n f).wide = d.wide := rfl
@[simp] theorem Dev.modShuttle_pat (d : Dev) (n : Nat) (f : Shuttle → Shuttle) :
    (d.modShuttle n f).pat = d.pat := rfl
@[simp] theorem Dev.modShuttle_contract (d : Dev) (n : Nat) (f : Shuttle → Shuttle) :
    (d.modShuttle n f).contract = d.contract := rfl
@[simp] theorem Dev.modShuttle_tack (d : Dev) (n : Nat) (f : Shuttle → Shuttle) :
    (d.modShuttle n f).tack = d.tack := rfl
@[simp] theorem Dev.modShuttle_time (d : Dev) (n : Nat) (f : Shuttle → Shuttle) :
    (d.modShuttle n f).time = d.time := rfl
@[simp] theorem Dev.modShuttle_tally (d : Dev) (n : Nat) (f : Shuttle → Shuttle) :
    (d.modShuttle n f).tally = d.tally := rfl
@[simp] theorem Dev.modShuttle_weave (d : Dev) (n : Nat) (f : Shuttle → Shuttle) :
    (d.modShuttle n f).weave = d.weave := rfl
@[simp] theorem Dev.modShuttle_descOrder (d : Dev) (n : Nat) (f : Shuttle → Shuttle) :
    (d.modShuttle n f).descOrder = d.descOrder := rfl
@[simp] theorem Dev.modShuttle_coll (d : Dev) (n : Nat) (f : Shuttle → Shuttle) :
    (d.modShuttle n f).coll = d.coll := rfl
@[simp] theorem Dev.modShuttle_power (d : Dev) (n : Nat) (f : Shuttle → Shuttle) :
    (d.modShuttle n f).power = d.power := rfl
@[simp] theorem Dev.modShuttle_burn (d : Dev) (n : Nat) (f : Shuttle → Shuttle) :
    (d.modShuttle n f).burn = d.burn := rfl
@[simp] theorem Dev.modShuttle_resil (d : Dev) (n : Nat) (f : Shuttle → Shuttle) :
    (d.modShuttle n f).resil = d.resil := rfl
@[simp] theorem Dev.modShuttle_stack (d : Dev) (n : Nat) (f : Shuttle → Shuttle) :
    (d.modShuttle n f).stack = d.stack := rfl
@[simp] theorem Dev.modShuttle_boot (d : Dev) (n : Nat) (f : Shuttle → Shuttle) :
    (d.modShuttle n f).boot = d.boot := rfl

/-! ### setPortState -/

@[simp] theorem Dev.setPortState_mem (d : Dev) (i s : Nat) :
    (d.setPortState i s).mem = d.mem := rfl
@[simp] theorem Dev.setPortState_tier (d : Dev) (i s : Nat) :
    (d.setPortState i s).tier = d.tier := rfl
@[simp] theorem Dev.setPortState_flags (d : Dev) (i s : Nat) :
    (d.setPortState i s).flags = d.flags := rfl
@[simp] theorem Dev.setPortState_panels (d : Dev) (i s : Nat) :
    (d.setPortState i s).panels = d.panels := rfl
@[simp] theorem Dev.setPortState_islands (d : Dev) (i s : Nat) :
    (d.setPortState i s).islands = d.islands := rfl
@[simp] theorem Dev.setPortState_wide (d : Dev) (i s : Nat) :
    (d.setPortState i s).wide = d.wide := rfl
@[simp] theorem Dev.setPortState_pat (d : Dev) (i s : Nat) :
    (d.setPortState i s).pat = d.pat := rfl
@[simp] theorem Dev.setPortState_contract (d : Dev) (i s : Nat) :
    (d.setPortState i s).contract = d.contract := rfl
@[simp] theorem Dev.setPortState_time (d : Dev) (i s : Nat) :
    (d.setPortState i s).time = d.time := rfl
@[simp] theorem Dev.setPortState_tally (d : Dev) (i s : Nat) :
    (d.setPortState i s).tally = d.tally := rfl
@[simp] theorem Dev.setPortState_weave (d : Dev) (i s : Nat) :
    (d.setPortState i s).weave = d.weave := rfl
@[simp] theorem Dev.setPortState_shuttles (d : Dev) (i s : Nat) :
    (d.setPortState i s).shuttles = d.shuttles := rfl
@[simp] theorem Dev.setPortState_descOrder (d : Dev) (i s : Nat) :
    (d.setPortState i s).descOrder = d.descOrder := rfl
@[simp] theorem Dev.setPortState_coll (d : Dev) (i s : Nat) :
    (d.setPortState i s).coll = d.coll := rfl
@[simp] theorem Dev.setPortState_power (d : Dev) (i s : Nat) :
    (d.setPortState i s).power = d.power := rfl
@[simp] theorem Dev.setPortState_burn (d : Dev) (i s : Nat) :
    (d.setPortState i s).burn = d.burn := rfl
@[simp] theorem Dev.setPortState_resil (d : Dev) (i s : Nat) :
    (d.setPortState i s).resil = d.resil := rfl
@[simp] theorem Dev.setPortState_stack (d : Dev) (i s : Nat) :
    (d.setPortState i s).stack = d.stack := rfl
@[simp] theorem Dev.setPortState_boot (d : Dev) (i s : Nat) :
    (d.setPortState i s).boot = d.boot := rfl

/-! ### Reading a changed table -/

theorem Dev.panel_setPanel (d : Dev) (p : Nat) (x : Panel) (q : Nat) :
    (d.setPanel p x).panel q = if q = p then x else d.panel q := sget_sset _ _ _ _ _
@[simp] theorem Dev.panel_setPanel_self (d : Dev) (p : Nat) (x : Panel) : (d.setPanel p x).panel p = x := by
  simp [Dev.panel_setPanel]
theorem Dev.panel_modPanel (d : Dev) (p : Nat) (f : Panel → Panel) (q : Nat) :
    (d.modPanel p f).panel q = if q = p then f (d.panel p) else d.panel q := sget_sset _ _ _ _ _
@[simp] theorem Dev.panel_modPanel_self (d : Dev) (p : Nat) (f : Panel → Panel) :
    (d.modPanel p f).panel p = f (d.panel p) := by simp [Dev.panel_modPanel]
theorem Dev.island_setIsland (d : Dev) (i : Nat) (x : Island) (j : Nat) :
    (d.setIsland i x).island j = if j = i then x else d.island j := sget_sset _ _ _ _ _
@[simp] theorem Dev.island_setIsland_self (d : Dev) (i : Nat) (x : Island) : (d.setIsland i x).island i = x := by
  simp [Dev.island_setIsland]
theorem Dev.island_modIsland (d : Dev) (i : Nat) (f : Island → Island) (j : Nat) :
    (d.modIsland i f).island j = if j = i then f (d.island i) else d.island j := sget_sset _ _ _ _ _
@[simp] theorem Dev.island_modIsland_self (d : Dev) (i : Nat) (f : Island → Island) :
    (d.modIsland i f).island i = f (d.island i) := by simp [Dev.island_modIsland]
@[simp] theorem Dev.panel_modIsland (d : Dev) (i : Nat) (f : Island → Island) (q : Nat) :
    (d.modIsland i f).panel q = d.panel q := rfl
@[simp] theorem Dev.island_modPanel (d : Dev) (p : Nat) (f : Panel → Panel) (j : Nat) :
    (d.modPanel p f).island j = d.island j := rfl

/-- An entry after a write of one: the value cut to the entry's size there, every other entry as before (R519). -/
theorem Dev.get_put (d : Dev) (k v j : Nat) :
    (d.put k v).get j = if j = k then v % 2 ^ (8 * entSize k) else d.get j := by
  unfold Dev.get Dev.put
  by_cases h : j = k
  · subst h; simp
  · simpa [h] using sget_sset_ne _ _ _ _ h
@[simp] theorem Dev.get_put_self (d : Dev) (k v : Nat) : (d.put k v).get k = v % 2 ^ (8 * entSize k) := by
  simp [Dev.get_put]
theorem Dev.get_put_ne (d : Dev) (k v : Nat) {j : Nat} (h : j ≠ k) : (d.put k v).get j = d.get j := by
  simp [Dev.get_put, h]
theorem Dev.get_putB_ne (d : Dev) (k off len v : Nat) {j : Nat} (h : j ≠ k) : (d.putB k off len v).get j = d.get j :=
  Dev.get_put_ne d k _ h
theorem Dev.get_bump_ne (d : Dev) (k off len n : Nat) {j : Nat} (h : j ≠ k) : (d.bump k off len n).get j = d.get j :=
  Dev.get_put_ne d k _ h
@[simp] theorem Dev.get_modPanel (d : Dev) (p : Nat) (f : Panel → Panel) (k : Nat) : (d.modPanel p f).get k = d.get k := rfl
@[simp] theorem Dev.get_setPanel (d : Dev) (p : Nat) (x : Panel) (k : Nat) : (d.setPanel p x).get k = d.get k := rfl
@[simp] theorem Dev.get_modIsland (d : Dev) (i : Nat) (f : Island → Island) (k : Nat) : (d.modIsland i f).get k = d.get k := rfl
@[simp] theorem Dev.get_count (d : Dev) (num n k : Nat) : (d.count num n).get k = d.get k := rfl
@[simp] theorem Dev.panel_put (d : Dev) (k v q : Nat) : (d.put k v).panel q = d.panel q := rfl
@[simp] theorem Dev.island_put (d : Dev) (k v j : Nat) : (d.put k v).island j = d.island j := rfl
@[simp] theorem Dev.panel_count (d : Dev) (num n q : Nat) : (d.count num n).panel q = d.panel q := rfl
@[simp] theorem Dev.island_count (d : Dev) (num n j : Nat) : (d.count num n).island j = d.island j := rfl

/-! ### The whole state -/

@[simp] theorem State.upd_fuses (s : State) (f : Dev → Dev) : (s.upd f).fuses = s.fuses := rfl
@[simp] theorem State.upd_pending (s : State) (f : Dev → Dev) : (s.upd f).pending = s.pending := rfl
@[simp] theorem State.upd_dev (s : State) (f : Dev → Dev) : (s.upd f).dev = f s.dev := rfl

end Sys2Proof.Machine
end

