-- ==== Sys2Proof/Laws/Tally.lean ====
section
/-!
SUPPORT. Counting changes the counters and nothing else, so every count can be dropped when another part is read.
-/
namespace Sys2Proof.Machine
open Sys2Proof

/-- e differs from d in the Tally at most. -/
def OnlyTally (d e : Dev) : Prop := ∃ t, e = { d with tally := t }

theorem OnlyTally.refl (d : Dev) : OnlyTally d d := ⟨d.tally, rfl⟩
theorem OnlyTally.trans {a b c : Dev} (h : OnlyTally a b) (k : OnlyTally b c) : OnlyTally a c := by
  obtain ⟨t, rfl⟩ := h; obtain ⟨u, rfl⟩ := k; exact ⟨u, rfl⟩

theorem OnlyTally.foldl {β : Type} (f : Dev → β → Dev) (h : ∀ d b, OnlyTally d (f d b)) :
    ∀ (l : List β) (d : Dev), OnlyTally d (l.foldl f d)
  | [], d => .refl d
  | b :: l, d => (h d b).trans (OnlyTally.foldl f h l (f d b))

theorem count_onlyTally (d : Dev) (num n : Nat) : OnlyTally d (d.count num n) := ⟨_, rfl⟩
theorem hist_onlyTally (d : Dev) (h t : Nat) : OnlyTally d (d.hist h t) := count_onlyTally d _ 1
theorem feltLines_onlyTally (d : Dev) (i a n : Nat) : OnlyTally d (d.feltLines i a n) := by
  unfold Dev.feltLines; split
  · exact count_onlyTally d _ _
  · exact .refl d

theorem countSel_onlyTally (d : Dev) (i c mode n from_ len : Nat) : OnlyTally d (d.countSel i c mode n from_ len) := by
  unfold Dev.countSel
  exact OnlyTally.trans ⟨_, rfl⟩ (count_onlyTally _ _ _)

theorem eventSpan_onlyTally (d : Dev) (i : Nat) (panel : Option Nat) (code n from_ len : Nat) :
    OnlyTally d (d.eventSpan i panel code n from_ len) := by
  unfold Dev.eventSpan; split
  · exact .refl d
  · refine OnlyTally.foldl _ (fun e c => ?_) _ d
    dsimp only
    repeat' split
    all_goals first | exact countSel_onlyTally e _ _ _ _ _ _ | exact .refl e

theorem ev_onlyTally (d : Dev) (p code n : Nat) : OnlyTally d (d.ev p code n) := eventSpan_onlyTally d _ _ _ _ _ _
theorem evI_onlyTally (d : Dev) (i code n : Nat) : OnlyTally d (d.evI i code n) := eventSpan_onlyTally d _ _ _ _ _ _

/-! ### Reading past a count -/

theorem OnlyTally.panel {d e : Dev} (h : OnlyTally d e) (p : Nat) : e.panel p = d.panel p := by
  obtain ⟨t, rfl⟩ := h; rfl
theorem OnlyTally.island {d e : Dev} (h : OnlyTally d e) (i : Nat) : e.island i = d.island i := by
  obtain ⟨t, rfl⟩ := h; rfl
theorem OnlyTally.get {d e : Dev} (h : OnlyTally d e) (k : Nat) : e.get k = d.get k := by
  obtain ⟨t, rfl⟩ := h; rfl
theorem OnlyTally.byte {d e : Dev} (h : OnlyTally d e) (a : Nat) : e.byte a = d.byte a := by
  obtain ⟨t, rfl⟩ := h; rfl

end Sys2Proof.Machine
end

