-- ==== Sys2Proof/Laws/Clock.lean ====
section
/-!
SUPPORT. An island's time: what passes when nothing is due, and what one due item does.
-/
namespace Sys2Proof.Machine
open Sys2Proof

theorem passCycles_onlyTally (d : Dev) (i from_ len : Nat) : OnlyTally d (d.passCycles i from_ len) := by
  unfold Dev.passCycles; split
  · exact .refl d
  · dsimp only
    refine .trans ?_ (eventSpan_onlyTally _ _ _ _ _ _ _)
    refine .trans ?_ (count_onlyTally _ _ _)
    refine .trans ?_ (eventSpan_onlyTally _ _ _ _ _ _ _)
    refine .trans ?_ (eventSpan_onlyTally _ _ _ _ _ _ _)
    refine .trans ?_ (OnlyTally.foldl _ (fun e b => eventSpan_onlyTally e _ _ _ _ _ _) _ _)
    refine .trans ?_ (OnlyTally.foldl _ (fun e b => eventSpan_onlyTally e _ _ _ _ _ _) _ _)
    refine .trans ?_ (count_onlyTally _ _ _)
    split
    · exact .trans (count_onlyTally d (64 * i + 16) len) (eventSpan_onlyTally _ _ _ _ _ _ _)
    · refine .trans ?_ (eventSpan_onlyTally _ _ _ _ _ _ _)
      refine .trans ?_ (count_onlyTally _ _ _)
      exact .trans (count_onlyTally d (64 * i + 16) len) (eventSpan_onlyTally _ _ _ _ _ _ _)

@[simp] theorem passCycles_zero (d : Dev) (i from_ : Nat) : d.passCycles i from_ 0 = d := by simp [Dev.passCycles]

/-- With nothing due, no item is performed. -/
theorem advanceGo_noneDue (i c k : Nat) (d : Dev) (h : d.NoneDue i c) : Dev.advanceGo i c k d = d := by
  cases k with
  | zero => rfl
  | succ k =>
    unfold Dev.advanceGo
    cases ha : (d.island i).agenda with
    | nil => rfl
    | cons t rest =>
      have : c < t.cycle := h t (by simp [ha])
      simp [this]

/-- With nothing due, an island's time moves on and only counters change. -/
theorem advance_noneDue (d : Dev) (i c : Nat) (h : d.NoneDue i c) :
    OnlyTally (d.modIsland i fun s => { s with cycle := max c s.cycle }) (d.advance i c) := by
  unfold Dev.advance
  rw [advanceGo_noneDue i c _ d h]
  exact passCycles_onlyTally _ _ _ _

/-- With nothing due and the time already at c, an advance to c leaves every part as it reads. -/
theorem advance_here (d : Dev) (i c : Nat) (h : d.NoneDue i c) (hc : (d.island i).cycle = c) :
    d.advance i c = d.modIsland i fun s => { s with cycle := c } := by
  unfold Dev.advance
  rw [advanceGo_noneDue i c _ d h, hc]
  simp [Dev.modIsland, hc]

theorem island_advance_noneDue (d : Dev) (i c j : Nat) (h : d.NoneDue i c) :
    (d.advance i c).island j = if j = i then { d.island i with cycle := max c (d.island i).cycle } else d.island j := by
  rw [(advance_noneDue d i c h).island, Dev.island_modIsland]

theorem panel_advance_noneDue (d : Dev) (i c p : Nat) (h : d.NoneDue i c) : (d.advance i c).panel p = d.panel p := by
  rw [(advance_noneDue d i c h).panel, Dev.panel_modIsland]

theorem get_advance_noneDue (d : Dev) (i c k : Nat) (h : d.NoneDue i c) : (d.advance i c).get k = d.get k := by
  rw [(advance_noneDue d i c h).get, Dev.get_modIsland]

/-- An island is the same after a change that leaves its record alone. -/
theorem modIsland_same_island (d : Dev) (i j : Nat) (x : Island) (h : x = d.island i) :
    (d.modIsland i fun _ => x).island j = d.island j := by
  rw [Dev.island_modIsland]; split
  · simp [*]
  · rfl

/-- A panel that takes an operation performs it in its cycle. -/
theorem onPanel_ready (d : Dev) (a : At) (f : Nat → Dev → Dev) (h : d.Ready a) :
    d.onPanel a f = (f (d.issueCycle a) (d.atIssue a)).advance (islandOf a.panel) (d.issueCycle a) := by
  obtain ⟨_, h1, h2, h3⟩ := h
  simp [Dev.onPanel, h1, h2, h3, Dev.atIssue, Dev.issueCycle]

/-- A panel that takes no operation leaves the device as it is. -/
theorem onPanel_idle (d : Dev) (a : At) (f : Nat → Dev → Dev)
    (h : d.canIssue a.panel = false ∨ d.stalled a.panel = true ∨ (d.panel a.panel).held.isSome = true) :
    d.onPanel a f = d := by
  unfold Dev.onPanel
  rcases h with h | h | h
  · simp [h]
  · simp [h]
  · have : (d.panel a.panel).held.isNone = false := by cases hh : (d.panel a.panel).held <;> simp [hh] at h ⊢
    simp [this]

theorem onIsland_event (d : Dev) (i cycle : Nat) (f : Nat → Dev → Dev) (hi : i < 16) (hc : d.clocked = true) :
    d.onIsland i cycle f = (f (d.eventCycle i cycle) (d.atEvent i cycle)).advance i (d.eventCycle i cycle) := by
  simp [Dev.onIsland, hi, hc, Dev.atEvent, Dev.eventCycle]

/-- A command of the form act, with VSTBY good. -/
theorem act_on (f : Dev → Dev) (s : State) (h : s.dev.boot.vstby = true) : act f s = .next (s.after (f s.dev)) := by
  simp [act, lift, State.upd, State.after, Dev.powered, h]

/-- With VSTBY down it does nothing. -/
theorem act_off (f : Dev → Dev) (s : State) (h : s.dev.boot.vstby = false) : act f s = .next s := by
  simp [act, lift, State.upd, Dev.powered, h]

/-- The items of an agenda after an insertion. -/
theorem mem_insertItem (l : List Item) (x t : Item) : t ∈ insertItem l x ↔ t = x ∨ t ∈ l := by
  induction l with
  | nil => simp [insertItem]
  | cons y ys ih =>
    unfold insertItem; split
    · simp
    · simp only [List.mem_cons, ih]; exact or_left_comm

end Sys2Proof.Machine
end

