-- ==== Sys2Proof/Laws/Memory.lean ====
section
/-!
SUPPORT. Memory: every operation on it keeps its canonical form, and reading after writing.
-/
namespace Sys2Proof.Machine
open Sys2Proof

theorem memWrite_wf : ∀ (bs : List Byte) {m : Sparse Byte} (a : Nat), Memory.wf m = true → Memory.wf (memWrite m a bs) = true
  | [], _, _, h => h
  | b :: bs, _, a, h => memWrite_wf bs (a + 1) (swf_sset a b h)

theorem write_wf (d : Dev) (a : Nat) (bs : List Byte) (h : Memory.wf d.mem = true) :
    Memory.wf (d.write a bs).mem = true := memWrite_wf bs a h

theorem writeNat_wf (d : Dev) (a n v : Nat) (h : Memory.wf d.mem = true) :
    Memory.wf (d.writeNat a n v).mem = true := write_wf d a _ h

theorem zeroRange_wf (d : Dev) (a n : Nat) (h : Memory.wf d.mem = true) :
    Memory.wf (d.zeroRange a n).mem = true := swf_sclear a (a + n) h

theorem foldl_write_wf : ∀ (rs : List (Nat × List Byte)) (d : Dev), Memory.wf d.mem = true →
    Memory.wf (rs.foldl (fun d r => d.write r.1 r.2) d).mem = true
  | [], _, h => h
  | r :: rs, d, h => foldl_write_wf rs (d.write r.1 r.2) (write_wf d r.1 r.2 h)

theorem writeBits_wf (d : Dev) (a len value mask : Nat) (h : Memory.wf d.mem = true) :
    Memory.wf (d.writeBits a len value mask).mem = true := foldl_write_wf _ d h

theorem foldl_sset_wf (f : Nat → Nat) : ∀ (bs : Sparse Byte) (m : Sparse Byte), Memory.wf m = true →
    Memory.wf (bs.foldl (fun m b => sset 0#8 m (f b.1) b.2) m) = true
  | [], _, h => h
  | b :: bs, _, h => foldl_sset_wf f bs _ (swf_sset (f b.1) b.2 h)

theorem copyRange_wf (d : Dev) (src len dst : Nat) (h : Memory.wf d.mem = true) :
    Memory.wf (d.copyRange src len dst).mem = true :=
  foldl_sset_wf (fun k => k - src + dst) _ _ (swf_sclear dst (dst + len) h)

/-- The memory of the state after reset is in canonical form. -/
theorem reset_mem_wf : Memory.wf State.reset.dev.mem = true := rfl

/-- A byte after a write: the byte written inside the range, the old one outside. -/
theorem sget_memWrite : ∀ (bs : List Byte) (m : Sparse Byte) (a x : Nat),
    sget 0#8 (memWrite m a bs) x = if a ≤ x ∧ x < a + bs.length then bs.getD (x - a) 0#8 else sget 0#8 m x
  | [], m, a, x => by
    have h : ¬ (a ≤ x ∧ x < a + ([] : List Byte).length) := by
      intro ⟨h1, h2⟩
      exact absurd h2 (Nat.not_lt.mpr h1)
    rw [if_neg h]
    rfl
  | b :: bs, m, a, x => by
    rw [memWrite, sget_memWrite bs, sget_sset]
    by_cases h : x = a
    · subst h
      have h2 : ¬ (x + 1 ≤ x ∧ x < x + 1 + bs.length) := by omega
      have h3 : x ≤ x ∧ x < x + (b :: bs).length := by simp
      rw [if_neg h2, if_pos h3]; simp
    · by_cases h2 : a + 1 ≤ x ∧ x < a + 1 + bs.length
      · have h3 : a ≤ x ∧ x < a + (b :: bs).length := by simp; omega
        obtain ⟨n, hn⟩ : ∃ n, x - a = n + 1 := ⟨x - a - 1, by omega⟩
        have hn' : x - (a + 1) = n := by omega
        rw [if_pos h2, if_pos h3, hn, hn']; simp
      · have h3 : ¬ (a ≤ x ∧ x < a + (b :: bs).length) := by simp; omega
        rw [if_neg h2, if_neg h3, if_neg h]

theorem byte_write (d : Dev) (a : Nat) (bs : List Byte) (x : Nat) :
    (d.write a bs).byte x = if a ≤ x ∧ x < a + bs.length then bs.getD (x - a) 0#8 else d.byte x :=
  sget_memWrite bs d.mem a x

/-- A read gives the bytes that stand there. -/
theorem read_eq_of_bytes (d : Dev) : ∀ (bs : List Byte) (a : Nat),
    (∀ k, k < bs.length → d.byte (a + k) = bs.getD k 0#8) → d.read a bs.length = bs
  | [], _, _ => rfl
  | b :: bs, a, h => by
    have h0 : d.byte a = b := h 0 (Nat.succ_pos _)
    have ht : d.read (a + 1) bs.length = bs := read_eq_of_bytes d bs (a + 1) fun k hk => by
      have := h (k + 1) (Nat.succ_lt_succ hk)
      rw [← Nat.add_assoc, Nat.add_right_comm] at this
      exact this
    show d.byte a :: d.read (a + 1) bs.length = b :: bs
    rw [h0, ht]

/-- Every byte outside the range written reads as before. -/
theorem byte_write_outside (d : Dev) (a : Nat) (bs : List Byte) {x : Nat} (h : x < a ∨ a + bs.length ≤ x) :
    (d.write a bs).byte x = d.byte x := by
  rw [byte_write]
  have : ¬ (a ≤ x ∧ x < a + bs.length) := by omega
  simp [this]

theorem byte_zeroRange (d : Dev) (a n x : Nat) :
    (d.zeroRange a n).byte x = if a ≤ x ∧ x < a + n then 0#8 else d.byte x := sget_sclear _ _ _ _ _

theorem read_length (d : Dev) : ∀ (n a : Nat), (d.read a n).length = n
  | 0, _ => rfl
  | n + 1, a => by simp [Dev.read, read_length d n]

end Sys2Proof.Machine
end

