-- ==== Sys2Proof/Laws/Tack.lean ====
section
/-!
SUPPORT. Dictionary writes, the fault log, events and device states: what each changes of the Tack, and that it
changes nothing beside the Tack and the counters.
-/
namespace Sys2Proof.Machine
open Sys2Proof

namespace OnlyTack
variable {ks ls : List Nat} {a b c d e : Dev}

theorem refl (d : Dev) : OnlyTack [] d d := ⟨rfl, fun _ _ => rfl⟩

theorem trans (h : OnlyTack ks a b) (k : OnlyTack ls b c) : OnlyTack (ks ++ ls) a c := by
  refine ⟨?_, fun j hj => ?_⟩
  · rw [k.same, h.same]
  · simp only [List.mem_append, not_or] at hj
    rw [k.entries j hj.2, h.entries j hj.1]

theorem mono (h : OnlyTack ks a b) (hs : ∀ k, k ∈ ks → k ∈ ls) : OnlyTack ls a b :=
  ⟨h.same, fun k hk => h.entries k fun h' => hk (hs k h')⟩

theorem panel (h : OnlyTack ks d e) (p : Nat) : e.panel p = d.panel p := by rw [h.same]; rfl
theorem island (h : OnlyTack ks d e) (i : Nat) : e.island i = d.island i := by rw [h.same]; rfl
theorem byte (h : OnlyTack ks d e) (a : Nat) : e.byte a = d.byte a := by rw [h.same]; rfl

/-- The frame of what only writes the Tack. -/
theorem frame (h : OnlyTack ks d e) : d.Frame e [] [] ks := by
  refine ⟨h.byte, ?_, fun q _ => h.panel q, fun j _ => h.island j, h.entries, ?_⟩
  · rw [h.same]
  · constructor <;> rw [h.same]

end OnlyTack

theorem OnlyTally.tack {d e : Dev} (h : OnlyTally d e) : OnlyTack [] d e := by
  obtain ⟨t, rfl⟩ := h; exact ⟨rfl, fun _ _ => rfl⟩

/-- A change of the Tack that leaves the dictionary as it is. -/
theorem tack_onlyTack (d : Dev) (t : TackState) (h : t.store = d.tack.store) : OnlyTack [] d { d with tack := t } :=
  ⟨rfl, fun k _ => by simp only [Dev.get, h]⟩

theorem put_onlyTack (d : Dev) (k v : Nat) : OnlyTack [k] d (d.put k v) :=
  ⟨rfl, fun j hj => Dev.get_put_ne d k v (by simpa using hj)⟩
theorem putB_onlyTack (d : Dev) (k off len v : Nat) : OnlyTack [k] d (d.putB k off len v) := put_onlyTack d k _
theorem bump_onlyTack (d : Dev) (k off len n : Nat) : OnlyTack [k] d (d.bump k off len n) := put_onlyTack d k _
theorem msix_onlyTack (d : Dev) (v : Nat) : OnlyTack [] d (d.msix v) := by
  unfold Dev.msix; split <;> exact ⟨rfl, fun _ _ => rfl⟩
theorem hostEvent_onlyTack (d : Dev) (b : Nat) : OnlyTack [] d (d.hostEvent b) := by
  unfold Dev.hostEvent; dsimp only; split
  · exact (tack_onlyTack d { d.tack with eventCause := setBit d.tack.eventCause b true } rfl).trans (msix_onlyTack _ b)
  · exact tack_onlyTack d _ rfl
theorem bridleEvent_onlyTack (d : Dev) (k c q : Nat) : OnlyTack [] d (d.bridleEvent k c q) := by
  unfold Dev.bridleEvent; dsimp only
  repeat' split
  all_goals exact ⟨rfl, fun _ _ => rfl⟩

/-- A fault record changes the log, the class counters and what reports it (R546). -/
theorem fault_onlyTack (d : Dev) (code unit detail : Nat) :
    OnlyTack [Ent.faultClassCounts] d (d.fault code unit detail) := by
  unfold Dev.fault; dsimp only
  generalize hd1 : d.bump Ent.faultClassCounts (4 * (code / 256 - 1)) 4 1 = d1
  have h1 : OnlyTack [Ent.faultClassCounts] d d1 := hd1 ▸ bump_onlyTack d _ _ _ _
  generalize hd2 : (if bitOf (d1.get Ent.faultNMask) (code / 256) = true then
    { d1 with tack := { d1.tack with faultNLatched := true } } else d1) = d2
  have h2 : OnlyTack [] d1 d2 := by subst hd2; split <;> exact ⟨rfl, fun _ _ => rfl⟩
  have h12 := h1.trans h2
  have enter : ∀ x : Dev, OnlyTack [] d2 x → OnlyTack [Ent.faultClassCounts] d
      (((x.hostEvent 1).bridleEvent 1 code (d2.tack.newest + 1)).count 0x409 1) := fun x hx =>
    (h12.trans (((hx.trans (hostEvent_onlyTack _ _)).trans (bridleEvent_onlyTack _ _ _ _)).trans
      (count_onlyTally _ _ _).tack)).mono (by simp)
  split
  · split
    · have h3 : ∀ t : TackState, t.store = d2.tack.store → OnlyTack [Ent.faultClassCounts] d { d2 with tack := t } :=
        fun t ht => (h12.trans (tack_onlyTack d2 t ht)).mono (by simp)
      exact h3 _ rfl
    · exact enter _ (tack_onlyTack d2 _ rfl)
  · exact enter _ (tack_onlyTack d2 _ rfl)

theorem faultOnce_onlyTack (d : Dev) (code unit detail : Nat) :
    OnlyTack [Ent.faultClassCounts] d (d.faultOnce code unit detail) := by
  unfold Dev.faultOnce; dsimp only; split
  · exact (OnlyTack.refl d).mono (by simp)
  · have h : ∀ t : TackState, t.store = d.tack.store → OnlyTack [Ent.faultClassCounts] d
        (({ d with tack := t } : Dev).fault code unit detail) :=
      fun t ht => ((tack_onlyTack d t ht).trans (fault_onlyTack _ code unit detail)).mono (by simp)
    exact h _ rfl

/-- A transition of the device state (R531). -/
theorem enterState_onlyTack (d : Dev) (to_ code : Nat) :
    OnlyTack [Ent.stateHistory, Ent.deviceState, Ent.portEnable] d (d.enterState to_ code) := by
  unfold Dev.enterState; dsimp only; split
  · exact (OnlyTack.refl d).mono (by simp)
  · have base := (put_onlyTack d Ent.stateHistory
        (d.timeNow + d.devState <<< 96 + to_ <<< 104 + code <<< 112 + d.get Ent.stateHistory <<< 128)).trans
        (put_onlyTack _ Ent.deviceState to_)
    split
    · exact (((base.trans (put_onlyTack _ Ent.portEnable 0)).trans (hostEvent_onlyTack _ _)).trans
        (bridleEvent_onlyTack _ _ _ _)).mono (by simp)
    · exact ((base.trans (hostEvent_onlyTack _ _)).trans (bridleEvent_onlyTack _ _ _ _)).mono (by simp)

theorem faultEnter_onlyTack (d : Dev) (code unit detail : Nat) :
    OnlyTack [Ent.faultClassCounts, Ent.stateHistory, Ent.deviceState, Ent.portEnable] d (d.faultEnter code unit detail) :=
  ((fault_onlyTack d code unit detail).trans (enterState_onlyTack _ _ _)).mono (by simp)

/-- Late mode keeps its step, which is no part of a frame. -/
theorem markLate_frame (d : Dev) : d.Frame d.markLate [] [] [] := by
  have h (c : ContractState) : d.Frame { d with contract := c } [] [] [] :=
    ⟨fun _ => rfl, rfl, fun _ _ => rfl, fun _ _ => rfl, fun _ _ => rfl, by constructor <;> rfl⟩
  unfold Dev.markLate; split
  · exact h d.contract
  · exact h _
theorem enterLate_onlyTack (d : Dev) : OnlyTack [Ent.lateStatus] d.markLate d.enterLate := put_onlyTack _ _ _
theorem withhold_onlyTack (d : Dev) : OnlyTack [Ent.lateStatus] d.markLate d.withhold := put_onlyTack _ _ _

/-- The device state after a transition to a state code below 256. -/
theorem devState_enterState (d : Dev) (to_ code : Nat) (h : to_ < 256) : (d.enterState to_ code).devState = to_ := by
  unfold Dev.enterState; dsimp only; split
  · assumption
  · have hs : entSize Ent.deviceState = 1 := by decide
    have key : ∀ x : Dev, x.get Ent.deviceState = to_ → ((x.hostEvent 2).bridleEvent 2 0 0).devState = to_ := by
      intro x hx
      rw [Dev.devState, (bridleEvent_onlyTack _ _ _ _).entries _ (by simp), (hostEvent_onlyTack _ _).entries _ (by simp), hx]
    split
    · apply key
      rw [Dev.get_put_ne _ _ _ (by decide), Dev.get_put_self, hs]; exact Nat.mod_eq_of_lt h
    · apply key
      rw [Dev.get_put_self, hs]; exact Nat.mod_eq_of_lt h

/-! ### Flags -/

/-- Events of a unit: the flag sets change, or, after the vote has captured the set, STICKY_LAST and the log (R42). -/
theorem raise_shape (d : Dev) (unit tag : Nat) (f : Flags) :
    ∃ e, OnlyTack [Ent.stickyLast, Ent.faultClassCounts] d e ∧
      d.raise unit tag f = { e with flags := (d.raise unit tag f).flags } := by
  unfold Dev.raise; dsimp only; split
  · exact ⟨d, (OnlyTack.refl d).mono (by simp), rfl⟩
  · split
    · refine ⟨_, ((putB_onlyTack d Ent.stickyLast unit 1 (d.getB Ent.stickyLast unit 1 ||| f.toByte)).trans
        (fault_onlyTack _ 0x0544 Unit.device unit)).mono (by simp), ?_⟩
      rfl
    · exact ⟨d, (OnlyTack.refl d).mono (by simp), rfl⟩

end Sys2Proof.Machine
end

