-- ==== Sys2Proof/Laws/Panel.lean ====
section
/-!
SUPPORT. What every panel operation and island event shares: frames compose, and the last advance of an operation
with nothing due changes counters and the island's time only.
-/
namespace Sys2Proof.Machine
open Sys2Proof

/-! ### Frames -/

theorem Dev.SameFar.refl (d : Dev) : d.SameFar d := by constructor <;> rfl

theorem Dev.SameFar.trans {d e f : Dev} (h : d.SameFar e) (k : e.SameFar f) : d.SameFar f := by
  obtain ⟨a1, a2, a3, a4, a5, a6, a7, a8, a9, a10, a11⟩ := h
  obtain ⟨b1, b2, b3, b4, b5, b6, b7, b8, b9, b10, b11⟩ := k
  constructor <;> simp_all

theorem Dev.Frame.refl (d : Dev) : d.Frame d [] [] [] :=
  ⟨fun _ => rfl, rfl, fun _ _ => rfl, fun _ _ => rfl, fun _ _ => rfl, .refl d⟩

theorem Dev.Frame.trans {d e f : Dev} {ps is ks ps' is' ks' : List Nat} (h : d.Frame e ps is ks)
    (k : e.Frame f ps' is' ks') : d.Frame f (ps ++ ps') (is ++ is') (ks ++ ks') := by
  refine ⟨fun a => by rw [k.bytes, h.bytes], by rw [k.tier, h.tier], ?_, ?_, ?_, h.far.trans k.far⟩
  · intro q hq; simp at hq; rw [k.panels q hq.2, h.panels q hq.1]
  · intro q hq; simp at hq; rw [k.islands q hq.2, h.islands q hq.1]
  · intro q hq; simp at hq; rw [k.entries q hq.2, h.entries q hq.1]

theorem Dev.Frame.mono {d e : Dev} {ps is ks ps' is' ks' : List Nat} (h : d.Frame e ps is ks) (hp : ∀ x ∈ ps, x ∈ ps')
    (hi : ∀ x ∈ is, x ∈ is') (hk : ∀ x ∈ ks, x ∈ ks') : d.Frame e ps' is' ks' :=
  ⟨h.bytes, h.tier, fun q hq => h.panels q fun h' => hq (hp q h'), fun q hq => h.islands q fun h' => hq (hi q h'),
    fun q hq => h.entries q fun h' => hq (hk q h'), h.far⟩

theorem Dev.Frame.around {d e : Dev} {ps is ks : List Nat} (h : d.Frame e ps is ks) : d.Around e ps is ks :=
  ⟨h.panels, h.islands, h.entries, h.far⟩

theorem OnlyTally.frame {d e : Dev} (h : OnlyTally d e) : d.Frame e [] [] [] := h.tack.frame

/-- An advance with nothing due is a frame of the island alone. -/
theorem advance_frame (d : Dev) (i c : Nat) (h : d.NoneDue i c) : d.Frame (d.advance i c) [] [i] [] := by
  obtain ⟨t, ht⟩ := advance_noneDue d i c h
  refine ⟨fun a => by rw [ht]; rfl, by rw [ht]; rfl, fun q _ => by rw [ht]; rfl, fun j hj => ?_, fun k _ => by rw [ht]; rfl, ?_⟩
  · rw [island_advance_noneDue _ _ _ _ h, if_neg (by simpa using hj)]
  · constructor <;> rw [ht] <;> rfl

/-- An advance with nothing due leaves everything but the counters and the islands. -/
theorem advance_same (d : Dev) (i c : Nat) (h : d.NoneDue i c) :
    (d.advance i c).flags = d.flags ∧ (d.advance i c).wide = d.wide ∧ (d.advance i c).contract = d.contract ∧
      (d.advance i c).tack = d.tack ∧ (d.advance i c).mem = d.mem := by
  obtain ⟨t, ht⟩ := advance_noneDue d i c h
  rw [ht]; exact ⟨rfl, rfl, rfl, rfl, rfl⟩

/-! ### Agendas -/

theorem noneDue_of_adds {d e : Dev} {i k : Nat} {t : Item} (h : d.NoneDue i k)
    (ha : (e.island i).agenda = insertItem (d.island i).agenda t) (ht : k < t.cycle) : e.NoneDue i k := by
  intro u hu; rw [ha, mem_insertItem] at hu
  rcases hu with rfl | hu
  · exact ht
  · exact h u hu

theorem noneDue_of_same {d e : Dev} {i k : Nat} (h : d.NoneDue i k) (ha : (e.island i).agenda = (d.island i).agenda) :
    e.NoneDue i k := by
  intro u hu; rw [ha] at hu; exact h u hu

/-! ### Operations and events -/

/-- A command of the form act (onPanel a f), sent to a panel that takes it. -/
theorem issues_of (c : Instr) (a : At) (s : State) (f : Nat → Dev → Dev) (P : Dev → Dev → Prop)
    (hc : exec c s = act (fun d => d.onPanel a f) s)
    (h : (s.dev.atIssue a).NoneDue (islandOf a.panel) (s.dev.issueCycle a) →
      P (s.dev.atIssue a) ((f (s.dev.issueCycle a) (s.dev.atIssue a)).advance (islandOf a.panel) (s.dev.issueCycle a))) :
    Issues c a s P := by
  intro hr hn
  refine ⟨_, ?_, h hn⟩
  rw [hc, act_on _ _ hr.vstby, onPanel_ready _ _ _ hr]

/-- A command of the form act (onIsland i cycle f), met by an island. -/
theorem occurs_of (c : Instr) (i cycle : Nat) (s : State) (f : Nat → Dev → Dev) (P : Dev → Dev → Prop)
    (hc : exec c s = act (fun d => d.onIsland i cycle f) s)
    (h : (s.dev.atEvent i cycle).NoneDue i (s.dev.eventCycle i cycle) →
      P (s.dev.atEvent i cycle) ((f (s.dev.eventCycle i cycle) (s.dev.atEvent i cycle)).advance i (s.dev.eventCycle i cycle))) :
    Occurs c i cycle s P := by
  intro hv hi hk hn
  refine ⟨_, ?_, h hn⟩
  rw [hc, act_on _ _ hv, onIsland_event _ _ _ _ hi hk]

/-- The last advance after an operation that leaves nothing due. -/
theorem Dev.PanelBecomes.advance {d E : Dev} {p k : Nat} {x : Panel} {ks : List Nat} (h : d.PanelBecomes E p x ks)
    (hn : E.NoneDue (islandOf p) k) : d.PanelBecomes (E.advance (islandOf p) k) p x ks := by
  obtain ⟨h1, h2, h3, h4, h5⟩ := h
  obtain ⟨s1, s2, s3, -, -⟩ := advance_same E (islandOf p) k hn
  exact ⟨by rw [panel_advance_noneDue _ _ _ _ hn, h1],
    (h2.trans (advance_frame E _ k hn)).mono (by simp) (by simp) (by simp), by rw [s1, h3], by rw [s2, h4], by rw [s3, h5]⟩

theorem Dev.SameIsland.advance {d E : Dev} {i k : Nat} (h : d.SameIsland E i) (hn : E.NoneDue i k) :
    d.SameIsland (E.advance i k) i := by
  unfold Dev.SameIsland at *
  rw [island_advance_noneDue _ _ _ _ hn, if_pos rfl, h]

theorem Dev.Adds.advance {d E : Dev} {i k : Nat} {t : Item} (h : d.Adds E i t) (hn : E.NoneDue i k) :
    d.Adds (E.advance i k) i t := by
  unfold Dev.Adds at *
  rw [island_advance_noneDue _ _ _ _ hn, if_pos rfl, h]


/-- One panel's registers change. -/
theorem panelBecomes_mod (d : Dev) (t : TallyState) (p : Nat) (f : Panel → Panel) :
    d.PanelBecomes (({ d with tally := t } : Dev).modPanel p f) p (f (d.panel p)) [] := by
  refine ⟨by simp; rfl, ⟨fun _ => rfl, rfl, fun q hq => ?_, fun _ _ => rfl, fun _ _ => rfl, by constructor <;> rfl⟩, rfl, rfl, rfl⟩
  rw [Dev.panel_modPanel, if_neg (by simpa using hq)]; rfl

end Sys2Proof.Machine
end

