-- ==== Sys2Proof/Tests/Slice0.lean ====
section
/-!
SUPPORT. Tests: ill-formed commands that WellFormed refuses, single steps with results taken from the spec, and for
every statement with hypotheses a state and operands that meet them all.
-/
namespace Sys2Proof.Tests
open Sys2Proof Sys2Proof.Machine Sys2Proof.Certificates
set_option Elab.async false

/-! ### Small states -/

def onDev (s : State) (f : Dev → Dev) : State := { s with dev := f s.dev }
/-- The stack powered, the device in READY and every panel in the mask. -/
def up : State := onDev State.reset fun d => ({ d with
  power := { d.power with stackUp := true, endpoint := true, firstReady := true, perst := false, readyPin := true }
  time := { d.time with acquired := true, everReady := true }
  boot := { d.boot with trimmed := true, vstby := true }
  pat := { d.pat with panelMask := 2 ^ 128 - 1 } } : Dev).put Ent.deviceState St.ready
def inState (v : Nat) (s : State) : State := onDev s fun d => d.put Ent.deviceState v
def put (k v : Nat) (s : State) : State := onDev s fun d => d.put k v
/-- Entry e of panel p's address table (R160). -/
def addrEnt (p e : Nat) (scr : Bool) (base pitch : Nat) (d : Dev) : Dev :=
  let w := 2 ^ 255 + (if scr = true then 2 ^ 254 else 0) + base * 2 ^ 223 + pitch * 2 ^ 199
  { d with mem := memWrite d.mem (addrTableBase p + e * 0x20) (leBytes 32 w) }
/-- A tile entry (R60). -/
def tileWord (mode base16 cnt sense : Nat) : Nat := 2 ^ 31 + mode * 2 ^ 29 + base16 * 2 ^ 21 + cnt * 2 ^ 13 + sense * 2 ^ 12
def tiled (x : Panel) : Panel := { x with
  started := true
  tiles := [(0, tileWord 0 0 0 0), (1, tileWord 1 2 0 0), (2, tileWord 2 4 1 1), (3, tileWord 3 0 0 0)] }
/-- Panel 12, started, with four tiles and four address-table entries. -/
def ready12 : State := onDev up fun d =>
  addrEnt 12 0 false 0x10000 256 (addrEnt 12 1 true 0x1000 256 (addrEnt 12 2 false 0x20000 512 (addrEnt 12 3 false 0x40000 64
    { d with panels := [(12, tiled Panel.reset)] })))
/-- n bytes written from a on. -/
def fill (a n : Nat) (s : State) : State :=
  onDev s fun d => { d with mem := memWrite d.mem a ((upTo n).map fun i => BitVec.ofNat 8 (i * 7 + 3)) }
def onPanel (p : Nat) (f : Panel → Panel) (s : State) : State := onDev s fun d => d.modPanel p f
def onIsland (i : Nat) (f : Island → Island) (s : State) : State := onDev s fun d => d.modIsland i f
/-- A wide-buffer tile (R131). -/
def wbEnt (region k w : Nat) (d : Dev) : Dev := { d with mem := memWrite d.mem (wbEntAddr region k) (leBytes 32 w) }
def wbWord (rows base list len cursor step stallMax : Nat) : Nat :=
  2 ^ 255 + 2 ^ 253 + (rows - 1) * 2 ^ 237 + base * 2 ^ 218 + (list / 4) * 2 ^ 189 + (len - 1) * 2 ^ 173 + cursor * 2 ^ 156 +
    step * 2 ^ 148 + stallMax * 2 ^ 136
def at40 : At := ⟨12, 40⟩

/-! ### The hypotheses that commands of one kind share -/

/-- The hypotheses of Issues. -/
structure Taken (a : At) (s : State) : Prop where
  ready : s.dev.Ready a
  none : (s.dev.atIssue a).NoneDue (islandOf a.panel) (s.dev.issueCycle a)

def noneDue (d : Dev) (i c : Nat) : Bool := (d.island i).agenda.all fun t => decide (c < t.cycle)
theorem noneDue_of (d : Dev) (i c : Nat) (h : noneDue d i c = true) : d.NoneDue i c := by
  intro t ht
  have := List.all_eq_true.mp h t ht
  exact of_decide_eq_true this

def taken (a : At) (s : State) : Bool :=
  s.dev.boot.vstby && s.dev.canIssue a.panel && !(s.dev.stalled a.panel) && decide ((s.dev.panel a.panel).held = .none) &&
    noneDue (s.dev.atIssue a) (islandOf a.panel) (s.dev.issueCycle a)
theorem taken_of (a : At) (s : State) (h : taken a s = true) : Taken a s := by
  simp only [taken, Bool.and_eq_true, decide_eq_true_eq, Bool.not_eq_true'] at h
  exact ⟨⟨h.1.1.1.1, h.1.1.1.2, h.1.1.2, h.1.2⟩, noneDue_of _ _ _ h.2⟩

/-- The hypotheses of Occurs. -/
structure Timely (i c : Nat) (s : State) : Prop where
  vstby : s.dev.boot.vstby = true
  island : i < 16
  clocked : s.dev.clocked = true
  none : (s.dev.atEvent i c).NoneDue i (s.dev.eventCycle i c)

def timely (i c : Nat) (s : State) : Bool :=
  s.dev.boot.vstby && decide (i < 16) && s.dev.clocked && noneDue (s.dev.atEvent i c) i (s.dev.eventCycle i c)
theorem timely_of (i c : Nat) (s : State) (h : timely i c s = true) : Timely i c s := by
  simp only [timely, Bool.and_eq_true, decide_eq_true_eq] at h
  exact ⟨h.1.1.1, h.1.1.2, h.1.2, noneDue_of _ _ _ h.2⟩

/-! ### The block as a whole -/

theorem witness_StepIdles : State.reset.pending = [] := rfl
theorem witness_FusesNeverClear : ∃ t, step { up with pending := [.vstbyLoss] } = .next t ∧ t.pending = [] :=
  ⟨_, rfl, rfl⟩
theorem witness_OneKeySlotStays :
    KeyLeft { up with pending := [.vstbyLoss] } ∧ ∃ t, step { up with pending := [.vstbyLoss] } = .next t :=
  ⟨by intro h; exact absurd h.1 (by decide), _, rfl⟩
theorem witness_FusesOnlyByWrites : ∃ t, exec .vstbyLoss up = .next t ∧ writesFuses .vstbyLoss = false := ⟨_, rfl, rfl⟩
def dark : State := onDev State.reset fun d => { d with boot := { d.boot with vstby := false } }
theorem witness_NothingWithoutVstby : dark.dev.boot.vstby = false ∧ ∀ x, Instr.vstbyLoss ≠ .powerOnReset x :=
  ⟨rfl, fun _ h => by cases h⟩
theorem witness_VstbyLossStops : up.dev.boot.vstby = true := rfl
theorem witness_QuietStays : up.dev.Quiet where
  coll := by decide +kernel
  retired := by decide +kernel
  ports := fun i hi => by
    have h : ∀ j ∈ upTo 8, bitOf (up.dev.get Ent.portEnable) j = true ∨ up.dev.portState j = PortSt.disabled := by decide +kernel
    have hm : ∀ n j, j < n → j ∈ upTo n := by
      intro n
      induction n with
      | zero => intro j hj; omega
      | succ n ih => intro j hj; simp [upTo, List.mem_range]; omega
    exact h i (hm 8 i hi)
  starting := by decide +kernel
  command := by decide +kernel
  freeze := by decide +kernel
theorem witness_SettleFrame : up.dev.hasColl = false ∧ (up.dev.devState = St.retired → up.dev.pat.loaded = false) := by
  decide +kernel

/-! ### The vector unit -/

theorem witness_VectorResults : Taken at40 ready12 ∧ (vectorRow (.vuAdd at40 3 (.reg 0) (.const 1))).isSome = true ∧
    (vectorRow (.vuCvt at40 31 (.reg 0) 8 0)).isSome = true ∧ (vectorRow (.vuCvt at40 0 (.reg 31) 1 2)).isSome = true :=
  ⟨taken_of _ _ (by decide +kernel), by decide +kernel⟩

def landing : Dev := { up.dev with
  islands := [(1, { Island.reset with agenda := [⟨44, 0, 12, 40, 1, .vreg 12 3 (List.replicate 64 0#32)⟩, ⟨60, 0, 12, 40, 1, .token 3 1 0⟩] })] }
theorem witness_VectorResultLands : ∃ t rest, (landing.island 1).agenda = t :: rest ∧
    t.work = .vreg 12 3 (List.replicate 64 0#32) ∧ (List.replicate 64 (0#32 : F32)).length = 64 ∧
    (∀ u ∈ rest, 43 < u.cycle) ∧ 43 < t.cycle ∧ (∀ u ∈ rest, 59 < u.cycle) ∧ t.cycle ≤ 44 :=
  ⟨⟨44, 0, 12, 40, 1, .vreg 12 3 (List.replicate 64 0#32)⟩, [⟨60, 0, 12, 40, 1, .token 3 1 0⟩], by decide +kernel⟩
theorem witness_VectorDropout : Taken at40 ready12 := taken_of _ _ (by decide +kernel)
theorem witness_VectorSlotSet : Taken at40 ready12 := taken_of _ _ (by decide +kernel)
theorem witness_RowRequestSent : Taken at40 ready12 := taken_of _ _ (by decide +kernel)
/-- A row of scratch at the first address, of FP32 and of BF16, and a row of the Felt. -/
theorem witness_VectorLoadStore : Taken at40 ready12 ∧
    (ready12.dev.atIssue at40).rowOperand 12 1 0 256 256 = some (true, scratchBase 12 + 0x1000) ∧
    (ready12.dev.atIssue at40).rowOperand 12 1 3 128 128 = some (true, scratchBase 12 + 0x1300) ∧
    (ready12.dev.atIssue at40).rowOperand 12 0 0 256 256 = some (false, 0x10000) ∧
    ((ready12.dev.atIssue at40).panel 12).portBusy .scratchRd 40 40 = false ∧
    ((ready12.dev.atIssue at40).panel 12).portBusy .scratchWr 41 41 = false ∧
    ((ready12.dev.atIssue at40).panel 12).portBusy .vertOut 54 54 = false ∧
    (ready12.dev.atIssue at40).contract.inPause = false := ⟨taken_of _ _ (by decide +kernel), by decide +kernel⟩

/-! ### Tiles, weight loads, streams and drains -/

/-- The least and the greatest tile. -/
theorem witness_TileWrites : Taken at40 ready12 ∧ tileRefused (tileWord 0 0 0 0) = false ∧
    tileRefused (tileWord 1 126 1 0) = false ∧
    ((ready12.dev.atIssue at40).panel 12).tileInUse 63 (ready12.dev.issueCycle at40) = false :=
  ⟨taken_of _ _ (by decide +kernel), by decide +kernel⟩
/-- A tile of the accumulators and one in scratch (mode 0b11). -/
theorem witness_ZeroClears : Taken at40 ready12 ∧ ∀ q ∈ [(0, 16, Port.clear), (3, 1, Port.scratchWr)],
    ((ready12.dev.atIssue at40).tile 12 q.1).valid = true ∧ 0 < ((ready12.dev.atIssue at40).tile 12 q.1).count / q.2.1 ∧
    ((ready12.dev.atIssue at40).panel 12).portBusy q.2.2 40 (40 + ((ready12.dev.atIssue at40).tile 12 q.1).count / q.2.1 - 1) = false :=
  ⟨taken_of _ _ (by decide +kernel), by decide +kernel⟩

def weights : State := fill 0x10000 64 ready12
theorem witness_LoadsStart : Taken at40 weights ∧ (weights.dev.atIssue at40).loadBusy 12 40 = false ∧
    (weights.dev.atIssue at40).contract.inPause = false ∧ ElemType.ofCode 1 = some .bf16 ∧ loadTypeFault false 1 0 = none ∧
    loadTypeFault true 1 0 = none ∧
    (∃ ad, (weights.dev.atIssue at40).operandAddr 12 0 1 (tileBytes .bf16) 2 = some ad ∧ ad.scratch = false) ∧
    (∃ ad, (weights.dev.atIssue at40).operandAddr 12 1 1 (tileBytes .bf16) 2 = some ad ∧ ad.scratch = true) ∧
    ((weights.dev.atIssue at40).panel 12).moves = [] ∧
    ((weights.dev.atIssue at40).panel 12).portBusy .scratchRd 40 (40 + ceilDiv (tileBytes .bf16) 256 - 1) = false ∧
    (∃ ad, (weights.dev.atIssue at40).operandAddr 12 0 64 (96 * ElemType.bf16.bits / 8) 0 = some ad) ∧
    ((weights.dev.atIssue at40).tile 12 0).valid = true ∧ ((weights.dev.atIssue at40).tile 12 0).mode = 0 ∧
    0 + 3 ≤ ((weights.dev.atIssue at40).tile 12 0).logical ∧ ((weights.dev.atIssue at40).addrEntry 12 0).scratch = false ∧
    (∃ ad, (weights.dev.atIssue at40).operandAddr 12 0 (3 * ((weights.dev.atIssue at40).tile 12 0).per) 256 256 = some ad) ∧
    ((weights.dev.atIssue at40).panel 12).portBusy .clear 55 (54 + 3) = false :=
  ⟨taken_of _ _ (by decide +kernel), by decide +kernel, by decide +kernel, by decide +kernel, by decide +kernel,
    by decide +kernel, ⟨⟨false, 0x10000, 256⟩, by decide +kernel⟩, ⟨⟨true, 0x1000, 256⟩, by decide +kernel⟩,
    by decide +kernel, by decide +kernel, ⟨⟨false, 0x10000, 256⟩, by decide +kernel⟩, by decide +kernel,
    by decide +kernel, by decide +kernel, by decide +kernel, ⟨⟨false, 0x10000, 256⟩, by decide +kernel⟩, by decide +kernel⟩

/-- A load of each kind whose last byte has come. -/
def arrived (k : LoadKind) : LoadJob := { mkLoad k 1 0 10 0 [] false with lastByte := some 35 }
def loaded (k : LoadKind) : State := onPanel 12 (fun x => { x with load := some (arrived k) }) ready12
theorem witness_LoadCompletes (k : LoadKind) : Timely 1 40 (loaded k) ∧ (loaded k).dev.fenced 12 = false ∧
    (((loaded k).dev.atEvent 1 40).panel 12).load = some (arrived k) ∧
    ∃ t ∈ [36, 40], (arrived k).doneAt = some t ∧ t ≤ (loaded k).dev.eventCycle 1 40 := by
  cases k <;> exact ⟨timely_of _ _ _ (by decide +kernel), by decide +kernel⟩
theorem witness_SwapExchanges : Taken at40 (loaded .acc) ∧
    ∀ j, ((((loaded .acc).dev.atIssue at40).finishLoad 12 40).panel 12).load = some j → j.kind = .acc :=
  ⟨taken_of _ _ (by decide +kernel), by
    have h : ((((loaded .acc).dev.atIssue at40).finishLoad 12 40).panel 12).load.all (fun j => decide (j.kind = .acc)) = true := by
      decide +kernel
    intro j hj
    rw [hj] at h
    exact of_decide_eq_true h⟩

def streamOf (tile src aix : Nat) : StreamF := ⟨tile, 0, 3, src, 1, aix⟩
theorem witness_StreamsStart : Taken at40 ready12 ∧ (ready12.dev.atIssue at40).contract.inPause = false ∧
    (∀ src ∈ [0, 1, 2, 3], streamFits (ready12.dev.atIssue at40) 12 40 .add (streamOf 0 src 0) 0 false false 0 0 .bf16 ∧
      (((ready12.dev.atIssue at40).panel 12).takePorts 40 0
        (streamPorts 0 src 40 (40 + if src = 3 then 4 else 14) (40 + (if src = 3 then 4 else 14) + 2 * 1) 1 3 false)).isSome = true) ∧
    streamFits (ready12.dev.atIssue at40) 12 40 .min (streamOf 2 0 0) 0 false false 0 65440 .bf16 ∧
    ((ready12.dev.atIssue at40).tile 12 0).mode = 0 ∧
    ((ready12.dev.atIssue at40).addrEntry 12 0).scratch = false ∧ ((ready12.dev.atIssue at40).addrEntry 12 1).scratch = true ∧
    (ready12.dev.atIssue at40).operandAddr 12 0 3 (actBytes .bf16) 0 = some ⟨false, 0x10000, 256⟩ ∧
    (ready12.dev.atIssue at40).operandAddr 12 1 3 (actBytes .bf16) 0 = some ⟨true, 0x1000, 256⟩ ∧
    (∀ j ∈ ((ready12.dev.atIssue at40).panel 12).streams, j.issue ≠ 40) :=
  ⟨taken_of _ _ (by decide +kernel), by simp only [streamFits]; decide +kernel⟩

/-- A stream whose next row's activations have come. -/
def job : StreamJob := { op := .add, issue := 20, tile := 0, first := 0, rows := 2, next := 0, src := 0, group := 0,
                         strict := false, term := 0, typ := 1, kBase := 0, addr := 0x10000, pitch := 256, spacing := 1,
                         fetched := [(0, List.replicate (actLen 1) 0x3F#8)], stepTag := 0 }
def streaming : State := onPanel 12 (fun x => { x with active := ⟨1, 0, 0x3F803F803F803F80⟩, streams := [job] }) ready12
theorem witness_StreamRowEnters : Timely 1 40 streaming ∧ streaming.dev.fenced 12 = false ∧
    ((streaming.dev.atEvent 1 40).panel 12).streams = [job] ∧
    job.issue + 14 + job.next * job.spacing ≤ streaming.dev.eventCycle 1 40 ∧
    streaming.dev.eventCycle 1 40 < 34 + updateLatency 0 job.strict false ∧ job.src = 0 ∧
    (job.fetched.find? fun r => r.1 == job.next).map Prod.snd = some (List.replicate (actLen 1) 0x3F#8) ∧
    (((streaming.dev.atEvent 1 40).panel 12).latchFor 34).typ = 1 ∧ ((streaming.dev.atEvent 1 40).tile 12 0).mode = 0 ∧
    streamRefusal job.strict 1 0 job.typ job.term = none ∧ ElemType.ofCode job.typ = some .bf16 ∧
    ((streaming.dev.atEvent 1 40).panel 12).entersTooSoon
      (rowKey 0 ((streaming.dev.atEvent 1 40).tileBase 12 ((streaming.dev.atEvent 1 40).tile 12 0))) 0 34 = false :=
  ⟨timely_of _ _ _ (by decide +kernel), by decide +kernel⟩

/-- The row of that stream on its way to the accumulators, and the item that lands it. -/
def rowOnWay : ArrayRow := ⟨job, 0, 0, 0, ⟨1, 0, 0x3F803F803F803F80⟩, List.replicate (actLen 1) 0x3F#8, 44⟩
def landItem : Item := ⟨44, 1, 12, 20, 0, .landRow 12 rowOnWay⟩
def laterItem : Item := ⟨60, 0, 12, 40, 1, .token 3 1 0⟩
def landRowDev : Dev := { streaming.dev with islands := [(1, { Island.reset with agenda := [landItem, laterItem] })] }
/-- In the cycle before its landing, in it, and in the last cycle before the next item. -/
theorem witness_StreamRowLands : (landRowDev.island 1).agenda = landItem :: [laterItem] ∧
    landItem.work = .landRow 12 rowOnWay ∧
    (∀ c ∈ [43, 44, 59], ∀ u ∈ [laterItem], c < u.cycle) ∧ (43 < landItem.cycle ∧ landItem.cycle ≤ 44) ∧
    ElemType.ofCode rowOnWay.latch.typ = some .bf16 ∧ ElemType.ofCode rowOnWay.job.typ = some .bf16 ∧
    (landRowDev.panel 12).landHazard (rowKey 0 0) rowOnWay.job.issue rowOnWay.land = false ∧ rowsPer rowOnWay.mode = 1 := by
  decide +kernel

def drainOf (tile dest target : Nat) (zap : Bool) : DrainF := ⟨tile, 0, 4, 64, 0, dest, zap, false, target⟩
/-- The vector unit's first and last register, scratch, the row engine and the Felt. -/
theorem witness_DrainStarts : Taken at40 ready12 ∧ ((ready12.dev.atIssue at40).tile 12 0).valid = true ∧
    drainTypeFault 0 0 false = none ∧ 0 + 4 ≤ ((ready12.dev.atIssue at40).tile 12 0).logical ∧
    (ready12.dev.atIssue at40).operandAddr 12 1 4 (drainRowBytes 0 64 false) 0 = some ⟨true, 0x1000, 256⟩ ∧
    (ready12.dev.atIssue at40).operandAddr 12 0 4 (drainRowBytes 0 64 false) 0 = some ⟨false, 0x10000, 256⟩ ∧
    (∀ f ∈ [drainOf 0 0 0 false, drainOf 0 0 31 true, drainOf 0 2 0 true, drainOf 0 1 1 true, drainOf 0 3 0 true],
      ∀ q ∈ drainPorts ((ready12.dev.atIssue at40).tile 12 0) 40 4 4 f.zap (f.dest == 3) (f.dest == 1),
        ((ready12.dev.atIssue at40).panel 12).portBusy q.1 q.2.1 q.2.2 = false) :=
  ⟨taken_of _ _ (by decide +kernel), by decide +kernel⟩

def wide12 : State := onDev ready12 (wbEnt 0 7 (wbWord 16 0x100 0x5000 4 0 3 9))
theorem witness_DrainWideStarts : Taken at40 wide12 ∧ ((wide12.dev.atIssue at40).tile 12 0).valid = true ∧
    ((wide12.dev.atIssue at40).tile 12 0).mode = 0 ∧ 0 + 4 ≤ ((wide12.dev.atIssue at40).tile 12 0).logical ∧
    ((wide12.dev.atIssue at40).addrEntry 12 0).pitch = 256 ∧ ((wide12.dev.atIssue at40).addrEntry 12 0).scratch = false ∧
    (wide12.dev.atIssue at40).operandAddr 12 0 4 256 256 = some ⟨false, 0x10000, 256⟩ ∧
    (∀ r ∈ upTo 4, ((wide12.dev.atIssue at40).wbFind ((⟨false, 0x10000, 256⟩ : Addr).row 12 r)).isSome = true) ∧
    (∀ q ∈ drainPorts ((wide12.dev.atIssue at40).tile 12 0) 40 4 4 true true false,
      ((wide12.dev.atIssue at40).panel 12).portBusy q.1 q.2.1 q.2.2 = false) :=
  ⟨taken_of _ _ (by decide +kernel), by decide +kernel⟩

/-! ### Moves, tokens, waits and the sequencer's own operations -/

/-- From the Felt to scratch, from scratch to scratch and to the Felt, a turn and a broadcast. -/
theorem witness_MovesStart : Taken at40 ready12 ∧ (ready12.dev.atIssue at40).contract.inPause = false ∧
    (ready12.dev.atIssue at40).operandAddr 12 0 3 64 0 = some ⟨false, 0x10000, 256⟩ ∧
    (ready12.dev.atIssue at40).operandAddr 12 1 3 64 0 = some ⟨true, 0x1000, 256⟩ ∧
    (∀ m ∈ ((ready12.dev.atIssue at40).panel 12).moves, m.issue ≠ 40) ∧
    ((ready12.dev.atIssue at40).panel 12).portBusy .scratchRd 40 42 = false ∧
    ((ready12.dev.atIssue at40).panel 12).portBusy .scratchWr 45 47 = false ∧
    ((ready12.dev.atIssue at40).panel 12).portBusy .vertOut 55 57 = false ∧
    ElemType.ofCode 1 = some .bf16 ∧ ElemType.bf16.is16 = true ∧ ElemType.ofCode 0 = some .fp32 ∧ ElemType.bf16.operandOk = true ∧
    ((ready12.dev.atIssue at40).addrEntry 12 0).scratch = false ∧
    (ready12.dev.atIssue at40).operandAddr 12 0 96 128 0 = some ⟨false, 0x10000, 256⟩ ∧
    (ready12.dev.atIssue at40).operandAddr 12 1 64 192 0 = some ⟨true, 0x1000, 256⟩ ∧
    (ready12.dev.atIssue at40).operandAddr 12 0 3 (actBytes .bf16) 0 = some ⟨false, 0x10000, 256⟩ :=
  ⟨taken_of _ _ (by decide +kernel), by decide +kernel⟩
theorem witness_PostsLeave : Taken at40 ready12 ∧ (1 : Nat) ≠ 0 ∧ (0 : Nat) ≠ islandOf at40.panel :=
  ⟨taken_of _ _ (by decide +kernel), by decide⟩
/-- Tokens of either kind on their way, to a counter that holds them and to one that would pass 0xFFFF. -/
def posted : State := onIsland 3 (fun i => { i with tokens := [(5, 0xFFF9), (6, 0xFFF9)] }) (onDev up fun d =>
  { d with contract := { d.contract with transit := [⟨false, 3, 5, 6, 13⟩, ⟨true, 3, 6, 7, 1⟩] } })
theorem witness_TokensArrive : Timely 3 40 posted ∧
    (posted.dev.atEvent 3 40).contract.transit.find? (fun t => t.offTree == false && t.island == 3) = some ⟨false, 3, 5, 6, 13⟩ ∧
    (posted.dev.atEvent 3 40).contract.transit.find? (fun t => t.offTree == true && t.island == 3) = some ⟨true, 3, 6, 7, 1⟩ ∧
    (posted.dev.atEvent 3 40).tokens 3 5 + 6 = 0xFFFF ∧ 0xFFFF < (posted.dev.atEvent 3 40).tokens 3 6 + 7 :=
  ⟨timely_of _ _ _ (by decide +kernel), by decide +kernel⟩

def tokens (l : Sparse Nat) (s : State) : State := onIsland 1 (fun i => { i with tokens := l }) s
theorem witness_WaitTakesOrHolds : Taken at40 (tokens [(5, 3)] ready12) ∧ (3 : Nat) ≠ 0 ∧
    3 ≤ ((tokens [(5, 3)] ready12).dev.atIssue at40).leftFor 12 5 ∧
    Taken at40 (tokens [(5, 2)] ready12) ∧ ((tokens [(5, 2)] ready12).dev.atIssue at40).leftFor 12 5 < 3 :=
  ⟨taken_of _ _ (by decide +kernel), by decide, by decide +kernel, taken_of _ _ (by decide +kernel), by decide +kernel⟩
def holding (unit beats : Nat) : Held := ⟨30, 5, 3, unit, 7, beats, none, false, 0⟩
def holds (h : Held) (s : State) : State := onPanel 12 (fun x => { x with held := some h }) s
theorem witness_HeldWaitEnds : Timely 1 40 (holds (holding 0 0) (tokens [(5, 3)] ready12)) ∧
    ((holds (holding 0 0) (tokens [(5, 3)] ready12)).dev.atEvent 1 40).canIssue 12 = true ∧
    ((holds (holding 0 0) (tokens [(5, 3)] ready12)).dev.atEvent 1 40).stalled 12 = false ∧
    (((holds (holding 0 0) (tokens [(5, 3)] ready12)).dev.atEvent 1 40).panel 12).held = some (holding 0 0) ∧
    (((holds (holding 0 0) (tokens [(5, 3)] ready12)).dev.atEvent 1 40).panel 12).haltAtBoundary = false ∧
    (holding 0 0).bundle = none ∧ (holding 0 0).n ≤ ((holds (holding 0 0) (tokens [(5, 3)] ready12)).dev.atEvent 1 40).leftFor 12 5 :=
  ⟨timely_of _ _ _ (by decide +kernel), by decide +kernel⟩
/-- One cycle past the maximum, and one beat past it. -/
theorem witness_WaitTimesOut : ∀ q ∈ [(0, 0), (3, 8)], timely 1 38 (holds (holding q.1 q.2) ready12) = true ∧
    (((holds (holding q.1 q.2) ready12).dev.atEvent 1 38).panel 12).held = some (holding q.1 q.2) ∧ (holding q.1 q.2).late = false ∧
    ((holds (holding q.1 q.2) ready12).dev.atEvent 1 38).lateMode = false ∧
    ((holds (holding q.1 q.2) ready12).dev.atEvent 1 38).leftFor 12 5 < 3 ∧
    (if q.1 = 3 then 7 < q.2 else 30 + 7 * 1 < (holds (holding q.1 q.2) ready12).dev.eventCycle 1 38) := by decide +kernel

def counting : State := put Ent.tallyOpen (2 ^ 29 - 1) ready12
theorem witness_SequencerOps : Taken at40 counting ∧
    (∀ c ∈ upTo 4, bitOf 15 c = true → (counting.dev.atIssue at40).incomplete 12 40 c = false) ∧ 65535 < 65536 ∧
    (tallyGroup 0).isSome = true ∧ bitOf ((counting.dev.atIssue at40).get Ent.tallyOpen) ((tallyGroup 0).getD 0) = true ∧
    ((counting.dev.atIssue at40).addrEntry 12 1).scratch = true ∧
    (counting.dev.atIssue at40).rowOperand 12 1 0 8 8 = some (true, scratchBase 12 + 0x1000) ∧
    ((counting.dev.atIssue at40).panel 12).portBusy .scratchWr 43 43 = false :=
  ⟨taken_of _ _ (by decide +kernel), by decide +kernel⟩
/-- Beat 50: alarms for the next beat, and two whose beats have come. -/
def beat50 : State := onPanel 12 (fun x => { x with alarm0 := some ⟨3, 50⟩, alarm1 := some ⟨4, 49⟩ }) (put Ent.logicalBeat 50 ready12)
theorem witness_AlarmsArmAndFire : Taken at40 (put Ent.logicalBeat 50 ready12) ∧
    (((put Ent.logicalBeat 50 ready12).dev.atIssue at40).get Ent.logicalBeat : Int) <
      (((put Ent.logicalBeat 50 ready12).dev.atIssue at40).pat.startBeat : Int) + 51 ∧
    (((put Ent.logicalBeat 50 ready12).dev.atIssue at40).panel 12).alarm0 = none ∧
    (((put Ent.logicalBeat 50 ready12).dev.atIssue at40).panel 12).alarm1 = none ∧
    Timely 1 40 beat50 ∧ ((beat50.dev.atEvent 1 40).panel 12).alarm0 = some ⟨3, 50⟩ ∧
    ((beat50.dev.atEvent 1 40).panel 12).alarm1 = some ⟨4, 49⟩ ∧ 50 ≤ (beat50.dev.atEvent 1 40).get Ent.logicalBeat :=
  ⟨taken_of _ _ (by decide +kernel), by decide +kernel, by decide +kernel, by decide +kernel,
    timely_of _ _ _ (by decide +kernel), by decide +kernel⟩

/-- The program of panel 12 with one bundle at 5: ISSUE_DELAY, REPEAT and the S slot's word (R153–R155, R184). -/
def program (w : Nat) : State := onPanel 12 (fun x => { x with started := true, pc := 5, lastIssue := 20 })
  (onDev up fun d => { d with mem := memWrite d.mem (bundleBase 12 + 32 * 5) (leBytes 32 w), panels := [(12, Panel.reset)] })
def emptyBundle : Nat := 9 * 2 ^ 24 + 3 * 2 ^ 8
def loopBundle : Nat := 9 * 2 ^ 24 + 2 ^ 23 + (3 * 2 ^ 52 + 1 * 2 ^ 50 + 2 * 2 ^ 37 + 4 * 2 ^ 21) * 2 ^ 200
theorem witness_BundleIssues : Taken ⟨12, 0⟩ (program emptyBundle) ∧ Taken ⟨12, 0⟩ (program loopBundle) ∧
    ((program emptyBundle).dev.panel 12).started = true ∧ ((program emptyBundle).dev.panel 12).haltAtBoundary = false ∧
    (∃ b, (program emptyBundle).dev.fetchBundle 12 = .ok (emptyBundle, b) ∧ b.m = none ∧ b.v = none ∧ b.x = none ∧
      b.s = none ∧ b.delay = 9 ∧ b.repeats = 3) ∧
    (∃ b, (program loopBundle).dev.fetchBundle 12 = .ok (loopBundle, b) ∧ b.m = none ∧ b.v = none ∧ b.x = none ∧
      b.s = some (.loop 1 2 4) ∧ b.repeats = 0) ∧ (program loopBundle).dev.NoneDue 1 29 :=
  ⟨taken_of _ _ (by decide +kernel), taken_of _ _ (by decide +kernel), by decide +kernel, by decide +kernel,
    ⟨_, rfl, by decide +kernel⟩, ⟨_, rfl, by decide +kernel⟩, noneDue_of _ _ _ (by decide +kernel)⟩
/-- Each of the three reasons. -/
theorem witness_BlockedPanelIssuesNothing : up.dev.boot.vstby = true ∧ State.reset.dev.canIssue 12 = false ∧
    (onDev up fun d => { d with wide := { d.wide with stalls := [⟨⟨12, 0, 0, 0, 64, [], 0, 0⟩, 0, 3, 0, false, 0⟩] } }).dev.stalled 12 = true ∧
    ((holds (holding 0 0) ready12).dev.panel 12).held.isSome = true := by decide +kernel

/-! ### The row engine -/

/-- A request record (R94, R95). -/
def record (op rows len : Nat) (a b c da db p1 : Nat) : List Byte :=
  leBytes 1 op ++ leBytes 1 0 ++ leBytes 2 1 ++ leBytes 2 rows ++ leBytes 2 0 ++ leBytes 2 len ++ leBytes 1 0 ++ leBytes 1 0 ++
    leBytes 1 2 ++ leBytes 1 0 ++ leBytes 2 0 ++ leBytes 8 a ++ leBytes 8 b ++ leBytes 8 c ++ leBytes 8 da ++ leBytes 8 db ++
    leBytes 4 0 ++ leBytes 4 p1
/-- An entry of the stat map (R97). -/
def statWord (kind : Nat) : Nat := 2 ^ 127 + kind * 2 ^ 125 + 4 * 2 ^ 118 + 4 * 2 ^ 111 + 63 * 2 ^ 79 + 16 * 2 ^ 61
def req (p at_ : Nat) : ReReq := ⟨p, at_, 0, 1, 0, 2, 2⟩
def queued : State := onIsland 1 (fun i => { i with queue := [req 12 50, req 13 52] }) up
/-- The first and the last cycle in which the start is noticed. -/
theorem witness_RowRequestStarts : ∀ k ∈ [50, 55], timely 1 k queued = true ∧
    ((queued.dev.atEvent 1 k).island 1).queue = [req 12 50, req 13 52] ∧ ((queued.dev.atEvent 1 k).island 1).running = none ∧
    ((queued.dev.atEvent 1 k).island 1).reFrozen = false ∧ ((queued.dev.atEvent 1 k).island 1).reLastEnd = 0 ∧
    50 ≤ queued.dev.eventCycle 1 k ∧ queued.dev.eventCycle 1 k < 50 + 6 := by decide +kernel

/-- A request in its last row: its inputs are there since cycle 60. -/
def run (op rows next : Nat) : ReRun :=
  { req := req 12 50, start := 50,
    record := record op rows 8 0x30000 0x31000 0x32000 (if op = 6 then scratchBase 9 + 0x100 else 0x40000) 0x50000 (if op = 13 then 8 + 3 * 2 ^ 24 else 8),
    next := next, lastEnd := 50, arrivals := [], fetched := [(next, List.replicate 32 0#8, List.replicate 32 0#8, List.replicate 32 0#8)],
    got := [], visible := 0, dg := [], db := [] }
def running (op rows next : Nat) : State :=
  onIsland 1 (fun i => { i with statMap := [(1, statWord ((reKind op).getD 0))], running := some (run op rows next) }) up
def rowMeets (op : Nat) : Bool :=
  let s := running op 1 0
  let c := ((run op 1 0).inputAt 0).getD 0
  let d := s.dev.atEvent 1 c
  timely 1 c s && (rowCommand 1 c op).isSome && decide ((d.island 1).running = some (run op 1 0)) && (run op 1 0).fields.op == op && decide (0 < (run op 1 0).fields.rows) &&
    !(d.stalled 129) && !(d.island 1).reFrozen && ((run op 1 0).inputAt 0).isSome && decide (c < (run op 1 0).endAt c false) &&
    !d.contract.inPause && (match reKind op with
      | none => true
      | some kind => ((d.statPlace 1 (run op 1 0).fields.inst kind 1 0).map Prod.fst) == some false)
theorem witness_RowEngineRows : ∀ op ∈ [1, 2, 3, 4, 5, 6, 8, 9, 10, 11, 12, 13], rowMeets op = true := by decide +kernel
/-- 64 rows to come, and more. -/
theorem witness_RowEngineFinish : ∀ rows ∈ [1, 64, 65], timely 1 50 (running 7 rows 0) = true ∧
    (((running 7 rows 0).dev.atEvent 1 50).island 1).running = some (run 7 rows 0) ∧ (run 7 rows 0).fields.op = 7 ∧ 0 < (run 7 rows 0).fields.rows ∧
    ((running 7 rows 0).dev.atEvent 1 50).stalled 129 = false ∧ (((running 7 rows 0).dev.atEvent 1 50).island 1).reFrozen = false ∧
    50 < (run 7 rows 0).endAt 0 false ∧ ((running 7 rows 0).dev.atEvent 1 50).contract.inPause = false ∧
    (∀ r ∈ upTo (min 64 rows), (((running 7 rows 0).dev.atEvent 1 50).statPlace 1 (run 7 rows 0).fields.inst 2 1 r).map Prod.fst =
      some false) := by decide +kernel

/-- A backward request with one row of gain sums and one of bias sums, and one with none. -/
def rowsEnded (op : Nat) : State := onIsland 1 (fun i => { i with running := some (run op 1 1) }) up
def doneItem : Item := ⟨61, 0, 8, 60, 9, .reDone 60⟩
theorem witness_RowRequestEnds : doneItem.work = .reDone 60 ∧ ∀ op ∈ [2, 4, 7],
    ((rowsEnded op).dev.island 1).running = some (run op 1 1) ∧ (run op 1 1).fields.op = op := by decide +kernel

/-! ### The wide buffer and the stash -/

def contrib (id sender : Nat) : Contrib := ⟨sender, 0x10000, id, 3, 60, List.replicate 64 0x3F800000#32, 35, 20⟩
def listed (progress : Nat) (f : WideState → WideState) : State := onDev up fun d =>
  let d := wbEnt 0 7 (wbWord 16 0x100 0x5000 4 progress 3 9) d
  { d with mem := memWrite d.mem 0x5000 (leBytes 2 5 ++ leBytes 2 6 ++ leBytes 2 7 ++ leBytes 2 9)
           wide := f { d.wide with progress := if progress = 0 then [] else [(0x100, progress)] } }
def sent (progress : Nat) (c : Contrib) : State := listed progress fun w => { w with inFlight := [c] }
/-- The expected row at the first and the last place of the list, an early row and a foreign one, from a panel and from
a row engine. -/
theorem witness_ContributionRows : ∀ q ∈ [(0, contrib 5 12, RowKind.expected), (3, contrib 9 129, RowKind.expected),
      (0, contrib 9 13, RowKind.early), (0, contrib 8 12, RowKind.foreign)],
    let i := if q.2.1.sender < 128 then islandOf q.2.1.sender else q.2.1.sender - 128
    let d := (sent q.1 q.2.1).dev.atEvent i 40
    timely i 40 (sent q.1 q.2.1) = true ∧ d.wide.inFlight.find? (fun c => c.sender == q.2.1.sender) = some q.2.1 ∧
    q.2.1.arrival ≤ (sent q.1 q.2.1).dev.eventCycle i 40 ∧ d.stalled q.2.1.sender = false ∧ q.2.1.addr < feltSize ∧
    d.wbFind q.2.1.addr = some (0, 7) ∧ (d.wbEnt 0 7).state = 1 ∧ (d.wbEnt 0 7).step = q.2.1.tag ∧
    d.rowKind (d.wbEnt 0 7) q.2.1 d.wide.arrivals = q.2.2 ∧
    (d.window (rowGroup q.2.1.addr)).length < 8 := by decide +kernel
/-- A row that the adders take, and one that meets them taken. -/
def adding (taken : Bool) : State := listed 0 fun w => { w with
  adders := [⟨contrib 5 12, 4, 60⟩], adder := if taken then [(rowGroup 0x10000, 65)] else [] }
theorem witness_AdderRowApplies : ∀ taken ∈ [true, false],
    (adding taken).dev.wide.adders.find? (fun x => x.order == 4) = some ⟨contrib 5 12, 4, 60⟩ ∧ (contrib 5 12).addr < feltSize ∧
    (adding taken).dev.wbFind (contrib 5 12).addr = some (0, 7) ∧
    (adding taken).dev.adderTaken ⟨contrib 5 12, 4, 60⟩ 64 = taken ∧
    ((adding taken).dev.window (rowGroup (contrib 5 12).addr)).length < 8 := by decide +kernel
def early : WindowRow := ⟨contrib 6 13, 2⟩
def waiting : State := listed 1 fun w => { w with arrivals := 5, windows := [(rowGroup 0x10000, [early])] }
theorem witness_EarlyRowApplies :
    let g := rowGroup 0x10000
    let d := waiting.dev.atEvent (g / 32) 40
    timely (g / 32) 40 waiting = true ∧ sget 0 d.wide.adder g ≠ waiting.dev.eventCycle (g / 32) 40 + 1 ∧
    (d.window g).find? (fun w => d.eligible w) = some early ∧ d.wide.stalls.find? (fun s => s.group == g) = none ∧
    Expected (d.setWindow g ((d.window g).erase early)) early.row 0 7 early.order := by
  simp only [Expected]
  decide +kernel
def stallOf : SenderStall := ⟨contrib 9 13, 0, rowGroup 0x10000, 20, false, 1⟩
def stalled13 : State := listed 1 fun w => { w with stalls := [stallOf] }
theorem witness_StallLimitRecords : timely 1 30 stalled13 = true ∧
    (stalled13.dev.atEvent 1 30).wide.stalls.find? (fun t => t.row.sender == 13) = some stallOf ∧ stallOf.faulted = false ∧
    (stalled13.dev.atEvent 1 30).wbFind stallOf.row.addr = some (0, 7) ∧
    stallOf.since + ((stalled13.dev.atEvent 1 30).wbEnt 0 7).stallMax < stalled13.dev.eventCycle 1 30 := by decide +kernel
def claimed (e : Nat) : State := onDev up fun d => { d with wide := { d.wide with claims := [⟨e, 2 ^ 63 + 2 * 2 ^ 55, 3, 1⟩] } }
theorem witness_StashClaimGranted : ∀ e ∈ upTo 4, (claimed e).dev.boot.vstby = true ∧ (claimed e).dev.power.stackUp = true ∧
    (claimed e).dev.wide.claims.find? (fun c => c.entry == e) = some ⟨e, 2 ^ 63 + 2 * 2 ^ 55, 3, 1⟩ ∧
    stashRemain ((claimed e).dev.stashWord e) = 0 := by decide +kernel

/-! ### Beats, steps and runs -/

/-- A Pattern of ten steps of four beats on panels 12 and 13, from beat 10. -/
def pattern : Pattern := { Pattern.none with
  loaded := true, grade := 1, jobTag := 0x42, panelMask := 3 * 2 ^ 12, startBeat := 10, firstStep := 0, lastStep := 9,
  stepBeats := 4, recoveryBeats := 1, pauseOffset := 2, lateLimit := 5, panelTable := [(12, 77), (13, 99)] }
def inLoaded : State := inState St.loaded (onDev up fun d => { d with pat := pattern })
def inRun : State := inState St.running inLoaded
def contract (f : ContractState → ContractState) (s : State) : State := onDev s fun d => { d with contract := f d.contract }

theorem witness_BoundaryCountsABeat : up.dev.boot.vstby = true ∧ up.dev.power.holds = [] ∧ up.dev.power.skip = 0 ∧
    up.dev.power.stowing = false ∧ up.dev.devState ≠ St.held ∧ up.dev.time.acquired = true ∧ up.dev.time.alignHold = false ∧
    up.dev.contract.inPause = false ∧ 0 < up.dev.get Ent.beatPeriodNs ∧ up.dev.get Ent.logicalBeat + 1 < 2 ^ 64 := by
  decide +kernel
def held : State := inState St.held (onDev inRun fun d => { d with power := { d.power with holds := [⟨3, 1, 0, none⟩], causes := [1] } })
theorem witness_HoldFreezesBeats : held.dev.boot.vstby = true ∧ held.dev.frozen = true ∧
    (∀ h ∈ held.dev.power.holds, h.resume = none) ∧ held.dev.power.stowing = false ∧ 0 < held.dev.get Ent.beatPeriodNs := by
  decide +kernel
/-- The last step's start beat, with a slack that was kept, and the first step's with none. -/
def stepDue (k : Nat) (slack : Option Int) : State :=
  put Ent.logicalBeat (10 + 4 * k) (contract (fun c => { c with nextStep := k, slack := slack }) inRun)
theorem witness_StepBegins : ∀ q ∈ [(9, some (-4)), (1, none)],
    let d := (stepDue q.1 q.2).dev
    d.boot.vstby = true ∧ d.contract.nextStep = q.1 ∧ d.contract.slack = q.2 ∧ d.pat.loaded = true ∧ d.frozen = false ∧
    q.1 < 2 ^ 32 ∧ q.1 ≤ d.pat.lastStep ∧ d.startBeatOf q.1 ≤ d.get Ent.logicalBeat ∧
    d.inState [St.running, St.held, St.braced] = true ∧ d.hasColl = false ∧ d.contract.recoveryPending = false ∧
    d.reloadState = 0 ∧ d.stack.copied = [] := by decide +kernel
def runDue : State := put Ent.logicalBeat 10 inLoaded
theorem witness_RunStarts :
    let d := runDue.dev
    d.boot.vstby = true ∧ d.runStep = 0 ∧ d.pat.loaded = true ∧ d.contract.nextStep = 0 ∧ d.frozen = false ∧
    d.startBeatOf 0 ≤ d.get Ent.logicalBeat ∧ d.power.stackUp = true ∧ d.devState = St.loaded ∧
    d.resil.witnessFrom = none ∧ d.portsReady = true ∧ d.power.holds = [] ∧ d.hasColl = false ∧
    d.get Ent.resilienceMode ≠ 2 ∧ d.stack.copied = [] ∧ d.inMask 12 = true ∧ d.inMask 11 = false := by decide +kernel
def atEntry (p : Nat) (s : State) : State :=
  onPanel p (fun x => { x with held := some ⟨30, s.dev.stepCtr p, 1, 0, 7, 0, some (s.dev.stepEntry p), false, 0⟩ }) s
def ended (f : ContractState → ContractState) (beat : Nat) : State :=
  atEntry 13 (atEntry 12 (put Ent.logicalBeat beat (contract f inRun)))
/-- Ended early, with a later start step and with one whose start beat is past, and past the last step. -/
theorem witness_RunEnds : ∀ s ∈ [put Ent.runStartStep 5 (ended (fun c => { c with ended := true }) 20),
      ended (fun c => { c with ended := true }) 20, ended id 50],
    s.dev.boot.vstby = true ∧ s.dev.devState = St.running ∧
    (s.dev.contract.ended = true ∨ s.dev.startBeatOf (s.dev.pat.lastStep + 1) ≤ s.dev.get Ent.logicalBeat) ∧
    (∀ p ∈ s.dev.maskPanels, s.dev.atStepEntry p = true) ∧ s.dev.queuesEmpty = true ∧ s.dev.burnersIdle = true := by
  decide +kernel
def tooLate : State := contract (fun c => { c with lateness := 6 }) inRun
theorem witness_LateLimitFaults : tooLate.dev.boot.vstby = true ∧ tooLate.dev.inRun = true ∧
    tooLate.dev.pat.lateLimit < tooLate.dev.contract.lateness := by decide +kernel
/-- Beat 13 is the recovery beat of the step that starts at 14; LATE_STATUS of one state says that nothing is held back. -/
def recovering (late : Nat) : State := put Ent.lateStatus late (put Ent.logicalBeat 13 inRun)
theorem witness_RecoveryBeat : ∀ v ∈ [0, 3],
    let d := (recovering v).dev
    d.boot.vstby = true ∧ d.pat.loaded = true ∧ d.inState [St.running, St.held, St.braced] = true ∧ d.clocked = true ∧
    d.frozen = false ∧ d.startBeatOf (d.step + 1) ≤ d.get Ent.logicalBeat + d.pat.recoveryBeats ∧
    d.contract.recovered ≠ d.step + 1 ∧ d.withheld = (v == 3) ∧ d.pat.copies = [] ∧ d.contract.poisonThisStep = false ∧
    d.anyHalted = false := by decide +kernel
def pauseDue : State := put Ent.logicalBeat 12 inRun
theorem witness_PauseBegins : pauseDue.dev.boot.vstby = true ∧ pauseDue.dev.pat.loaded = true ∧
    pauseDue.dev.power.stackUp = true ∧ pauseDue.dev.contract.inPause = false ∧
    pauseDue.dev.get Ent.logicalBeat = pauseDue.dev.startBeatOf pauseDue.dev.step + pauseDue.dev.pat.pauseOffset := by
  decide +kernel

/-- Section 0x0009 with a replay entry of panel 12 (R425, R426). -/
def section9 : List Byte := leBytes 1 0 ++ leBytes 1 1 ++ leBytes 2 8 ++ leBytes 4 3 ++ leBytes 8 0x60000 ++ leBytes 8 0x61000 ++
  List.replicate 40 0#8 ++ (upTo 128).flatMap fun p => leBytes 2 (if p = 12 then 0x8000 + 55 else 0)
def armed : State := put Ent.witnessBeat 20 (put Ent.logicalBeat 20 (onDev inLoaded fun d =>
  { d with pat := { pattern with sections := [(9, section9)] }
           resil := { d.resil with restored := some 4, armed := true, witnessRows := List.replicate 32 0#8, witnessValid := true } }))
/-- The replay is over: the losses are those of the witness rows, or not, or there are none. -/
def replayed (rows : Byte) (valid : Bool) : State := put Ent.logicalBeat 23 (onDev armed fun d =>
  { d with resil := { d.resil with
      armed := false, witnessFrom := some 20, witnessValid := valid, witnessRows := List.replicate 32 rows } })
theorem witness_WitnessRun : armed.dev.boot.vstby = true ∧ armed.dev.resil.restored = some 4 ∧ armed.dev.resil.armed = true ∧
    armed.dev.resil.witnessFrom = none ∧ armed.dev.devState = St.loaded ∧ armed.dev.frozen = false ∧
    armed.dev.get Ent.witnessBeat ≤ armed.dev.get Ent.logicalBeat ∧ armed.dev.inMask 12 = true ∧
    bitOf (armed.dev.replayEntry 12) 15 = true ∧
    (∀ q ∈ [(0#8, true), (1#8, true), (0#8, false)],
      let d := (replayed q.1 q.2).dev
      d.resil.witnessFrom = some 20 ∧ 20 + d.replayBeats ≤ d.get Ent.logicalBeat ∧ d.lastStage = true ∧
      d.resil.witnessValid = q.2 ∧
      ((d.read d.replayArea (4 * d.lossRows) = d.resil.witnessRows) ↔ q.1 = 0#8)) := by decide +kernel

/-! ### Shuttles -/

/-- A descriptor that copies n FP32 elements, with its START and DONE words (R239). -/
def descBytes (src dst start done n : Nat) : List Byte :=
  leBytes 8 src ++ leBytes 8 dst ++ leBytes 8 (2 ^ 46) ++ leBytes 4 0 ++ leBytes 4 start ++ leBytes 4 done ++
    (leBytes 3 n ++ leBytes 12 0) ++ leBytes 1 0 ++ (leBytes 4 1 ++ leBytes 16 0) ++ (leBytes 4 1 ++ leBytes 16 0) ++ leBytes 36 0
def shuttleAt (n : Nat) (x : Shuttle) (s : State) : State := onDev s fun d => { d with shuttles := [(n, x)] }
def bodyDone : Shuttle := { Shuttle.reset with base := 0x30000, prologue := 1, body := 2, period := 1, phase := 3, step := 2, next := 3, left := 0 }
def nextBody : State := put Ent.stepCounter 4 (shuttleAt 3 bodyDone inRun)
theorem witness_BodyStarts :
    let x := nextBody.dev.shuttle 3
    nextBody.dev.boot.vstby = true ∧ nextBody.dev.shuttleStill 3 = false ∧ x.phase = 3 ∧ x.step < nextBody.dev.step ∧
    x.step < nextBody.dev.pat.lastStep ∧ x.inFlight = [] ∧ x.body ≠ 0 := by decide +kernel
def plainDesc : List Byte := descBytes 0x10000 0x20000 0 0 4
/-- It starts on tokens and posts one. -/
def tokenDesc : List Byte :=
  descBytes 0x10000 0x20000 (2 ^ 30 + 5 * 2 ^ 26 + 7 * 2 ^ 17 + 4 * 2 ^ 9) (2 ^ 31 + 3 * 2 ^ 27 + 9 * 2 ^ 18 + 2 * 2 ^ 10) 4
def inBody : Shuttle := { bodyDone with phase := 2, next := 1, left := 2 }
def starting (raw : List Byte) : State :=
  onIsland 5 (fun i => { i with tokens := [(7, 4)] }) (onDev (shuttleAt 3 inBody inRun) fun d => { d with mem := memWrite d.mem 0x30080 raw })
theorem witness_DescriptorStarts : ∀ raw ∈ [plainDesc, tokenDesc],
    let d := (starting raw).dev
    let x := d.shuttle 3
    let c := Desc.ofBytes raw
    d.boot.vstby = true ∧ d.read (x.base + 128 * x.next) 128 = raw ∧ d.shuttleStill 3 = false ∧
    d.power.stackUp = true ∧ d.contract.inPause = false ∧ x.left ≠ 0 ∧ x.phase = 2 ∧
    x.inFlight.length < 8 ∧ x.current = none ∧ d.startMet x.step c = true ∧ d.poisonIn (x.base + 128 * x.next) 128 = [] ∧
    c.refused d.deviceId = none ∧ d.creditNeed c = none ∧ c.guard = false ∧ d.get Ent.guardForce = 0 ∧ c.gather = false ∧
    c.startMode = (if raw = plainDesc then 0 else 1) := by decide +kernel
def desc (raw : List Byte) (pos : Nat) (issued : Bool) (need : Nat) : DescRun :=
  { index := 1, step := 4, order := 0, raw := raw, pos := pos, total := 4, issued := issued, open_ := 0, failed := false,
    need := need, run := none, queued := [], parts := [], rode := false, fetched := [], asked := false, block := [], staged := [], extent := (Desc.ofBytes raw).range,
    claiming := false }
def flying (n : Nat) (r : DescRun) : State := shuttleAt n { inBody with inFlight := [r] } inRun

/-- A stream's credits: a descriptor to Loom entry 9 of a device that stream 5 names, and four credits. -/
def streamWord : Nat := 2 ^ 127 + 2 * 2 ^ 111 + 1 * 2 ^ 105 + 3 * 2 ^ 101 + 6 * 2 ^ 85
def loomEntry : Nat := 2 ^ 127 + 2 ^ 126 + 0x42 * 2 ^ 112 + 3 * 2 ^ 96 + 2 ^ 79 + 5 * 2 ^ 73
def streamDesc : List Byte := leBytes 8 0x1000 ++ leBytes 8 (2 ^ 63 + 9 * 2 ^ 26) ++ leBytes 8 (2 ^ 46) ++ leBytes 12 0 ++ leBytes 3 4 ++
  leBytes 13 0 ++ leBytes 4 4 ++ List.replicate 16 0#8 ++ leBytes 4 4 ++ List.replicate 52 0#8
def credited (s : State) : State := onDev s fun d =>
  ({ d with mem := memWrite (memWrite d.mem (streamBase + 16 * 5) (leBytes 16 streamWord)) (streamBase + 0x400 + 16 * 7) (leBytes 16 streamWord)
            weave := { d.weave with loom := [(9, loomEntry)] } } : Dev).setCredits 5 4
/-- As many credits as the descriptor needs. -/
theorem witness_CreditsTaken :
    let d := (credited (flying 3 (desc streamDesc 0 false 4))).dev
    d.boot.vstby = true ∧ (d.shuttle 3).current = some (desc streamDesc 0 false 4) ∧ d.shuttleStill 3 = false ∧
    (d.creditNeed (Desc.ofBytes streamDesc)).map Prod.fst = some 5 ∧ (5 : Nat) < 64 ∧ 4 ≤ d.creditsHeld 5 ∧
    (∀ m ∈ d.shuttles, ∀ q ∈ m.2.inFlight, q.need ≠ 0 → q.failed = false → q.order < 0 →
      (d.creditNeed (Desc.ofBytes q.raw)).map Prod.fst ≠ some 5) := by decide +kernel
theorem sourceAt_plain (d : Dev) (n : Nat) (c : Desc) (j : List Nat) (hg : c.gather = false)
    (ho : ((upTo c.ndim).any fun e => decide (nth 0 j e < nth 0 c.lo e) || decide (nth 0 c.lo e + nth 0 c.size (c.p e) ≤ nth 0 j e)) = false) :
    d.sourceAt n c j = (d, .elem ((upTo c.ndim).foldl (fun i e => setNth i (c.p e) (nth 0 j e - nth 0 c.lo e)) [0, 0, 0, 0, 0])) := by
  simp only [Dev.sourceAt, ho, hg, Bool.false_eq_true, if_false]
theorem sourceBytes_have (d : Dev) (n : Nat) (r : DescRun) (a len ask : Nat) (use : WbUse) (u : Upset) (bs : List Byte)
    (hc : (cutAt a len).length = 1) (hh : r.have a len = some bs) :
    d.sourceBytes n r a len ask use u = (d, .bytes bs) := by
  simp only [Dev.sourceBytes]
  split
  · rename_i h; rw [h] at hc; cases hc
  · simp only [Dev.sourcePiece, hh]
theorem readElem_fetched (d : Dev) (n : Nat) (r : DescRun) (c : Desc) (i : List Nat) (a : Nat) (bs : List Byte)
    (ha : addRange c.src (elemBytes .fp32 (elemOffset (fun k => nth 0 c.ss k) (fun k => nth 0 i k))).1
      (elemBytes .fp32 (elemOffset (fun k => nth 0 c.ss k) (fun k => nth 0 i k))).2 = some a)
    (hc : (cutAt a (elemBytes .fp32 (elemOffset (fun k => nth 0 c.ss k) (fun k => nth 0 i k))).2).length = 1)
    (hh : r.have a (elemBytes .fp32 (elemOffset (fun k => nth 0 c.ss k) (fun k => nth 0 i k))).2 = some bs) :
    d.readElem n r c .fp32 i .none = (d, .elem ⟨fieldOf c.ctrl 63 60, leNat bs, 0, 0, 0⟩) := by
  simp only [Dev.readElem, ha]
  rw [sourceBytes_have _ _ _ _ _ _ _ _ _ hc hh]
  rfl
/-- The position of a descriptor whose source has come. -/
def fetchedDesc : DescRun := { desc plainDesc 2 false 0 with fetched := [(0x10000, List.replicate 16 0x3F#8)] }
/-- A Shuttle of the Tree, and one of the Felt. -/
theorem witness_PositionCopies : ∀ n ∈ [20, 3],
    (flying n fetchedDesc).dev.sourceAt n (Desc.ofBytes plainDesc) ((Desc.ofBytes plainDesc).coords 2) =
      ((flying n fetchedDesc).dev, .elem [2, 0, 0, 0, 0]) ∧
    (flying n fetchedDesc).dev.readElem n fetchedDesc (Desc.ofBytes plainDesc) .fp32 [2, 0, 0, 0, 0] .none =
      ((flying n fetchedDesc).dev, .elem ⟨0, 0x3F3F3F3F, 0, 0, 0⟩) := fun n _ =>
  ⟨(sourceAt_plain _ n _ _ (by decide +kernel) (by decide +kernel)).trans (congrArg (fun i => (_, Source.elem i)) (by decide +kernel)),
    (readElem_fetched _ n _ _ _ 0x10008 (List.replicate 4 0x3F#8) (by decide +kernel) (by decide +kernel) (by decide +kernel)).trans
      (congrArg (fun x => (_, Read.elem x)) (by decide +kernel))⟩
theorem witness_PositionCopies_rest : ∀ n ∈ [20, 3],
    (flying n fetchedDesc).dev.boot.vstby = true ∧ ((flying n fetchedDesc).dev.shuttle n).current = some fetchedDesc ∧
    ((flying n fetchedDesc).dev.shuttle n).inFlight = [fetchedDesc] ∧ (flying n fetchedDesc).dev.shuttleStill n = false ∧
    (flying n fetchedDesc).dev.outstanding n < 256 ∧ fetchedDesc.pos + 1 < fetchedDesc.total ∧
    (Desc.ofBytes plainDesc).typeIn = some .fp32 ∧ (Desc.ofBytes plainDesc).typeOut = some .fp32 ∧
    (Desc.ofBytes plainDesc).accumulate = false ∧
    addRange (Desc.ofBytes plainDesc).dst (elemBytes .fp32 (elemOffset (fun k => nth 0 (Desc.ofBytes plainDesc).ds k)
      (fun k => nth 0 ((Desc.ofBytes plainDesc).coords fetchedDesc.pos) k))).1 4 = some 0x20008 ∧
    decodeAddr (flying n fetchedDesc).dev.deviceId 0x20008 = some (.local_ 0x20008) ∧ inControl 0x20008 = false ∧
    (flying n fetchedDesc).dev.lostIn 0x20008 4 = [] ∧ (flying n fetchedDesc).dev.writeRefused n 0x20008 4 .write = none := by
  decide +kernel
/-- With no token, with a token to another island, and with one of a Shuttle of the Tree. -/
theorem witness_DescriptorCompletes : ∀ q ∈ [(3, plainDesc), (3, tokenDesc), (4, tokenDesc), (20, tokenDesc)],
    let d := (flying q.1 (desc q.2 4 true 0)).dev
    d.boot.vstby = true ∧ (d.shuttle q.1).inFlight = [desc q.2 4 true 0] ∧ (d.shuttle q.1).left ≠ 0 ∧
    d.shuttleStill q.1 = false ∧ (Desc.ofBytes q.2).tokenEn = (q.2 == tokenDesc) ∧ (Desc.ofBytes q.2).atDest = false ∧
    (Desc.ofBytes tokenDesc).tokenIsland = 3 := by decide +kernel
/-- Its token is posted at device 5, and no request has carried it there. -/
def farDesc : List Byte := descBytes 0x10000 (2 ^ 62 + 5 * 2 ^ 41) 0 (2 ^ 31 + 3 * 2 ^ 27 + 9 * 2 ^ 18 + 2 * 2 ^ 10 + 2 ^ 9) 0
theorem witness_DescriptorCompletes_far :
    let d := (flying 3 (desc farDesc 0 true 0)).dev
    d.boot.vstby = true ∧ (d.shuttle 3).inFlight = [desc farDesc 0 true 0] ∧ (d.shuttle 3).left ≠ 0 ∧
    d.shuttleStill 3 = false ∧ (Desc.ofBytes farDesc).tokenEn = true ∧ (Desc.ofBytes farDesc).atDest = true ∧
    (desc farDesc 0 true 0).rode = false ∧ decodeAddr d.deviceId (Desc.ofBytes farDesc).dst = some (.global 5 0) := by decide +kernel

/-! ### Ports, flits, requests and streams -/

/-- Device 1 of a ring of four; ports 0 and 1 are UP and matched with devices 2 and 0. -/
def ring (s : State) : State := onDev s fun d =>
  let d := (d.put Ent.domainShape (4 + 1 * 2 ^ 8 + 1 * 2 ^ 16 + 2 ^ 24)).put Ent.coordinate 1
  let d := d.put Ent.portEnable 0x3
  let d := (d.setPortState 0 PortSt.up).setPortState 1 PortSt.up
  (d.putB Ent.neighbour 0 8 (2 + 2 ^ 56)).putB Ent.neighbour 8 8 (0 + 2 ^ 56)
def ringRun : State := ring inRun
def port (i v : Nat) (s : State) : State := onDev s fun d => d.setPortState i v
def link (i : Nat) (f : Link → Link) (s : State) : State := onDev s fun d => d.modLink i f

theorem witness_PortStates : (ring up).dev.boot.vstby = true ∧
    (port 0 PortSt.training (ring up)).dev.portState 0 = PortSt.training ∧
    bitOf ((port 0 PortSt.training (ring up)).dev.get Ent.portEnable) 0 = true ∧
    (port 1 PortSt.down (ring up)).dev.portState 1 = PortSt.down ∧ (port 1 PortSt.failed (ring up)).dev.portState 1 = PortSt.failed ∧
    bitOf ((port 1 PortSt.failed (ring up)).dev.get Ent.portEnable) 1 = true ∧ (ring up).dev.portState 0 = PortSt.up ∧
    (ring up).dev.inState [St.running, St.held, St.braced, St.stowed] = false ∧ ((ring up).dev.link 0).lost = false ∧
    ((link 0 (fun l => { l with lost := true }) (port 0 PortSt.training (ring up))).dev.link 0).lost = true ∧
    (port 0 PortSt.training (ring up)).dev.dirOf 0 = some 0 := by decide +kernel
theorem witness_RequiredLinkLossHolds : ringRun.dev.boot.vstby = true ∧ (0 : Nat) < 8 ∧ ringRun.dev.portState 0 = PortSt.up ∧
    ringRun.dev.requiredPort 0 = true ∧ ringRun.dev.devState = St.running ∧ ringRun.dev.power.holds = [] := by decide +kernel
def piece (n : Nat) : Piece := ⟨(⟨1, 3, 0, 3, 1, 0, true, true, false, 0, 9⟩ : FlitHdr).word + n, leBytes 9 77⟩
def unacked (n : Nat) : State := link 0 (fun l => { l with replay := [⟨5, piece 5, n, false⟩, ⟨6, piece 6, 0, false⟩] }) (ring up)
/-- The last re-send, one too many, and a port whose neighbour is not matched. -/
theorem witness_OldestIsResent : ∀ n ∈ [15, 16], (unacked n).dev.boot.vstby = true ∧ (unacked n).dev.portUp 0 = true ∧
    ((unacked n).dev.link 0).replay = [⟨5, piece 5, n, false⟩, ⟨6, piece 6, 0, false⟩] ∧ ((unacked n).dev.link 0).naks = [] ∧
    (unacked n).dev.carries 0 = true ∧ (onDev (unacked 15) fun d => d.putB Ent.neighbour 0 8 5).dev.carries 0 = false := by
  decide +kernel
/-- The neighbour expected at port 0, and another. -/
theorem witness_LinkFlitTakesIdentity : (ring up).dev.boot.vstby = true ∧ (ring up).dev.linkOpen 0 = true ∧
    (ring up).dev.portUp 0 = true ∧ ((ring up).dev.link 0).told = false ∧
    (match (ring up).dev.dirOf 0 with
      | some dir => (ring up).dev.neighbourAt dir == some ⟨2, 0, 0⟩
      | none => true) = true ∧
    (match (ring up).dev.dirOf 0 with
      | some dir => (ring up).dev.neighbourAt dir == some ⟨3, 0, 0⟩
      | none => true) = false := by decide +kernel
/-- A flit for device 2 as device 0 sends it by port 1. -/
def flit (seq : Nat) : List Byte := flitBytes (⟨1, 0, 0, 2, 0, 0, true, true, false, 0, 9⟩ : FlitHdr).word (leBytes 9 77) seq 0 false false false false
def header : FlitHdr := FlitHdr.ofWord (leAt (flit 0) 0 8)
theorem witness_FlitsArrive : (ring up).dev.boot.vstby = true ∧ 0 ≤ (ring up).dev.time.clock ∧ (ring up).dev.portUp 1 = true ∧
    (ring up).dev.weave.held = [] ∧ (ring up).dev.power.completions = [] ∧
    (ring up).dev.carries 1 = true ∧ ((ring up).dev.link 1).reorder = [] ∧ ((ring up).dev.link 1).rxSeq = 0 ∧
    leAt (flit 0) 252 4 = crc32c ((flit 0).take 252) ∧ bitOf (leAt (flit 0) 248 4) 3 = false ∧
    bitOf (leAt (flit 0) 248 4) 1 = false ∧ bitOf (leAt (flit 0) 248 4) 0 = false ∧ fieldOf (leAt (flit 0) 248 4) 31 20 = 0 ∧
    (∀ q ∈ [0, 1, 2047, 2048, 4095], seqAhead q 0 = q) ∧
    leAt ((flit 0).set 100 1#8) 252 4 ≠ crc32c (((flit 0).set 100 1#8).take 252) ∧ header.type = 1 ∧ header.reserved = 0 ∧
    (ring up).dev.forMe 1 header (((flit 0).drop 8).take 240) = false ∧
    (ring up).dev.queueHeld 1 (2 * header.cls + header.vc) = false ∧ (ring up).dev.devState ≠ St.spare ∧
    ((ring up).dev.direction (ring up).dev.coord (Coord.ofId header.dest) header.cls).isSome = true ∧
    ((ring up).dev.direction (ring up).dev.coord (Coord.ofId header.dest) header.cls).map (fun k => (ring up).dev.portOf k) = some 0 := by
  decide +kernel
def sending : State := link 0 (fun l => { l with out := [⟨0, 0, none, [piece 3, piece 4], true⟩], sinceLink := 126 }) (ring up)
theorem witness_FlitsLeave : ∀ s ∈ [sending, ring up], s.dev.boot.vstby = true ∧ s.dev.carries 0 = true ∧
    (s.dev.link 0).sinceLink < 127 ∧ (∀ r ∈ (s.dev.link 0).replay, r.wanted = false) ∧ (s.dev.link 0).replay.length < 2048 ∧
    (s.dev.link 0).naks = [] ∧ (s.dev.nextClass (s.dev.link 0)).isSome = ((s.dev.link 0).sinceLink == 126) ∧
    (sending.dev.nextClass (sending.dev.link 0)).map Prod.fst = some 0 ∧
    (sending.dev.link 0).ready 0 = some ⟨0, 0, none, [piece 3, piece 4], true⟩ := by decide +kernel

def asking (tag addr op n : Nat) : ReqF :=
  { src := 0, tag := tag, cls := 0, late := false, addr := addr, reqId := 3 * 2048 + 5, op := op, stream := 0, token := 0, len := n
    data := List.replicate n 7#8 }
/-- With memory stack 0 present. -/
def serving : State := onDev (ring inLoaded) fun d => d.putB Ent.stackStatus 0 1 1
/-- A PUT and a GET_REQ at the first and the last bytes of the Felt, and an ATOMIC of each code its target takes (R250). -/
theorem witness_RequestsServed : serving.dev.boot.vstby = true ∧ serving.dev.holdsMsgs = false ∧ serving.dev.gate 0x42 = none ∧
    (∀ a ∈ [0, feltSize - 16], serving.dev.addressStatus a 16 .write = none ∧ serving.dev.addressStatus a 16 .read = none ∧
      serving.dev.poisonIn a 16 = []) ∧
    serving.dev.addressStatus 0 16 (.add 0) = none ∧
    (∀ op ∈ upTo 3, (AddOp.ofCode op).isSome = true ∧ serving.dev.addressStatus (nearBase 0) 16 (.add op) = none) := by decide +kernel
/-- No Pattern, another job, and no such address. -/
theorem witness_RequestsRefused : (ring up).dev.boot.vstby = true ∧ (ring up).dev.holdsMsgs = false ∧ (ring up).dev.gate 0x42 = some 5 ∧
    serving.dev.boot.vstby = true ∧ serving.dev.holdsMsgs = false ∧ serving.dev.gate 0x41 = some 1 ∧ serving.dev.gate 0x42 = none ∧
    (serving.dev.addressStatus 0x300000000 16 .write).isSome = true := by decide +kernel
def pend (p : Purpose) : Pend := { shuttle := 3, num := 5, purpose := p, sentAt := some 10, cls := 0, leftAt := 0 }
def asked (p : Purpose) : State := onDev (ring (flying 3 (desc plainDesc 2 true 0))) fun d =>
  { d with weave := { d.weave with pends := [pend p] }, time := { d.time with clock := 2 ^ 80 } }
theorem witness_RequestsComplete : ∀ p ∈ [Purpose.shuttle 1 2 0x1000, Purpose.fetch 1 2 0x1000],
    (asked p).dev.boot.vstby = true ∧ (asked p).dev.weave.pends.find? (fun q => q.shuttle * 2048 + q.num == 3 * 2048 + 5) = some (pend p) ∧
    (3 * 2048 + 5 ≠ 0xFFFF) ∧ (asked p).dev.weave.combines = [] ∧
    ((asked p).dev.shuttle 3).inFlight = [desc plainDesc 2 true 0] ∧ (asked p).dev.devState ≠ St.stowed ∧
    (asked p).dev.holdsMsgs = false ∧ (pend p).sentAt = some 10 ∧
    10 + (asked p).dev.get Ent.e2eTimeoutUs * clockUs ≤ (asked p).dev.time.clock ∧ (asked p).dev.power.holds = [] ∧
    (asked p).dev.get Ent.lpState ≠ 1 := by decide +kernel
/-- Group 9: IN port 1, DELIVER, no OUT port (R328). -/
def member : State := onDev ringRun fun d => { d with mem := memWrite d.mem (mcastBase + 8 * 9) (leBytes 8 (2 ^ 63 + 2 ^ 54 + 1 * 2 ^ 50 + 0x42 * 2 ^ 38)) }
theorem witness_MulticastDelivers :
    let d := member.dev
    let ent := d.mcastEnt 9
    d.boot.vstby = true ∧ d.holdsMsgs = false ∧ ent.valid = true ∧ ent.inPort = 1 ∧ ent.tag = 0x42 ∧ d.pat.loaded = true ∧
    d.pat.jobTag = 0x42 ∧ ent.outPorts = [] ∧ ent.deliver = true ∧ d.requestStatus 0x42 0x1000 16 .write = 0 ∧
    d.hasColl = false ∧ d.weave.combines = [] ∧ d.portUp 1 = true := by decide +kernel
def inStreams : State := credited ringRun
/-- Six buffers, four of them free: INIT, the most that may be returned, and one more. -/
theorem witness_CreditsMove :
    let d := inStreams.dev
    d.boot.vstby = true ∧ (5 : Nat) < 64 ∧ (d.outStream 5).valid = true ∧ (d.outStream 5).peer = 2 ∧ (d.outStream 5).peerStream = 1 ∧ (d.outStream 5).bufLog = 3 ∧ (d.outStream 5).bufs = 6 ∧
    d.creditsHeld 5 + 2 ≤ (d.outStream 5).bufs ∧ (d.outStream 5).bufs < d.creditsHeld 5 + 3 := by decide +kernel
theorem witness_ReleaseWordReturns : inStreams.dev.boot.vstby = true ∧ (inStreams.dev.inStream 7).valid = true ∧
    (inStreams.dev.inStream 63).valid = false ∧ (63 : Nat) < 64 ∧ 65535 < 65536 := by decide +kernel
def update (i w r : Nat) : List Byte := leBytes 4 i ++ leBytes 4 r ++ leBytes 16 w ++ leBytes 8 0
def refusedUpdate (d : Dev) (record : List Byte) : Bool :=
  leAt record 4 4 != 0 || leAt record 24 8 != 0 || decide (2097152 ≤ leAt record 0 4) || fieldOf (leAt record 8 16) 72 0 != 0 ||
    !d.pat.loaded || fieldOf (leAt record 8 16) 123 112 != d.pat.jobTag ||
    (bitOf (leAt record 8 16) 80 && bitOf (leAt record 8 16) 79)
/-- The last entry, the first index there is none for, a reserved bit, a word of no job, and one of
a group that is a stream too. -/
theorem witness_LoomUpdates : ringRun.dev.boot.vstby = true ∧ refusedUpdate ringRun.dev (update 2097151 loomEntry 0) = false ∧
    refusedUpdate ringRun.dev (update 2097152 loomEntry 0) = true ∧ refusedUpdate ringRun.dev (update 9 (loomEntry + 1) 0) = true ∧
    refusedUpdate ringRun.dev (update 9 (2 ^ 127) 0) = true ∧ refusedUpdate ringRun.dev (update 9 (loomEntry + 2 ^ 80) 0) = true := by decide +kernel

/-! ### Reductions and the vote -/

def pad (n : Nat) (bs : List Byte) : List Byte := (bs ++ List.replicate n 0#8).take n
/-- Section 0x000B of a device with a leaf of tree 5, a node of tree 6 and a root of tree 7 (R342). -/
def head11 (voteParent : Nat) (voteChildren : List Nat) : List Byte :=
  pad 256 (pad 64 (leBytes 2 3 ++ leBytes 2 4 ++ leBytes 2 0 ++ leBytes 1 0 ++ leBytes 1 1 ++ leBytes 2 4 ++ leBytes 2 1 ++ leBytes 1 1 ++
    leBytes 1 voteChildren.length ++ leBytes 2 voteParent ++ leBytes 4 1 ++ leBytes 4 0 ++ leBytes 8 (nearBase 2) ++ leBytes 8 0x10000 ++
    leBytes 8 (nearBase 3) ++ leBytes 4 16) ++ voteChildren.flatMap (leBytes 2))
def node11 (tree level : Nat) (kids : List Nat) (parent slot rounds first : Nat) : List Byte :=
  pad 128 (pad 64 (leBytes 2 tree ++ leBytes 1 level ++ leBytes 1 kids.length ++ leBytes 2 parent ++ leBytes 1 slot ++ leBytes 1 rounds ++
    leBytes 1 2 ++ leBytes 3 0 ++ leBytes 4 2 ++ leBytes 4 first ++ leBytes 4 0 ++ leBytes 8 (nearBase 0 + tree * 0x10000) ++
    leBytes 8 (nearBase 1)) ++ kids.flatMap (leBytes 2))
def round11 (tree r blocks els deadline own root : Nat) : List Byte :=
  leBytes 2 tree ++ leBytes 1 r ++ leBytes 1 0 ++ leBytes 4 blocks ++ leBytes 4 els ++ leBytes 4 deadline ++ leBytes 8 own ++ leBytes 8 root
def section11 (voteParent : Nat) (voteChildren : List Nat) : List Byte :=
  head11 voteParent voteChildren ++ node11 5 0 [] 2 1 1 0 ++ node11 6 1 [2, 0] 2 0 2 1 ++ node11 7 1 [2] 0xFFFF 0 1 3 ++
    round11 5 0 1 200 2 (nearBase 4) 0 ++ round11 6 0 2 512 2 (nearBase 4) 0 ++ round11 6 1 1 256 2 0 0 ++
    round11 7 0 1 200 2 (nearBase 4) (nearBase 5)
def fresh (n r : Nat) : RoundState := ⟨n, r, 0, 0, [], none, []⟩
def freshRounds : List RoundState := [fresh 0 0, fresh 1 0, fresh 1 1, fresh 2 0]
def voting (parent : Nat) (children : List Nat) (f : CollState → CollState) : State := onDev ringRun fun d =>
  { d with pat := { pattern with sections := [(0xB, section11 parent children)] }, coll := f { d.coll with rounds := freshRounds } }
def tree3 : State := voting 0 [2] id
def termOf (src tree r slot : Nat) : ReduceF :=
  { src := src, tag := 0x42, tree := tree, round := r, step := 0, slot := slot, replay := false, sentBeat := 3 }
theorem onTime_of (d : Dev) (f : ReduceF) (first blocks i : Nat) (x : RoundState)
    (h : (d.holdsMsgs = false ∧ d.gate f.tag = none) ∧ d.power.stackUp = true ∧ d.reduceFits f first blocks = some i ∧
      d.round i f.round = some x ∧ x.expected = f.step ∧ d.resil.witnessFrom = none ∧ (blocks = 0 ∨ d.ringBusy i f.round = false)) :
    OnTime d f first blocks i x :=
  ⟨h.1.1, h.1.2, h.2.1, h.2.2.1, h.2.2.2.1, h.2.2.2.2.1, h.2.2.2.2.2.1, h.2.2.2.2.2.2⟩
/-- Blocks 0 and 1 of the node's round 0 from its second child, and a CLOSE of its first. -/
theorem witness_ReduceArrives : tree3.dev.boot.vstby = true ∧ OnTime tree3.dev (termOf 0 6 0 1) 0 2 1 (fresh 1 0) ∧
    tree3.dev.partialLost ((tree3.dev.nodeRec 1).stageAddr 0 1 0) ((List.replicate 1032 0#8).take (516 * 2)).length = false ∧
    OnTime tree3.dev (termOf 2 6 0 0) 0 0 1 (fresh 1 0) ∧ (termOf 2 6 0 0).replay = false ∧
    (∀ status ∈ [1, 2], tree3.dev.roundComplete 1 ((fresh 1 0).setTerm { (fresh 1 0).term 0 with status := status }) = false) :=
  ⟨by decide +kernel, onTime_of _ _ _ _ _ _ (by decide +kernel), by decide +kernel, onTime_of _ _ _ _ _ _ (by decide +kernel), by decide +kernel⟩
/-- Another tree, and one block too many. -/
theorem witness_ReduceRefused : tree3.dev.boot.vstby = true ∧ tree3.dev.holdsMsgs = false ∧ tree3.dev.gate 0x42 = none ∧
    tree3.dev.power.stackUp = true ∧ tree3.dev.reduceFits (termOf 0 9 0 1) 0 1 = none ∧
    tree3.dev.reduceFits (termOf 0 6 0 1) 1 2 = none := by decide +kernel
def beat (n : Nat) (s : State) : State := put Ent.logicalBeat n s
/-- The beat before the deadline and the deadline, of a node and of a root whose child's term is there. -/
def closing : State := voting 0 [2] fun c => { c with rounds := [fresh 0 0, fresh 1 0, fresh 1 1, { fresh 2 0 with terms := [⟨0, 1, [0], 8, 2⟩] }] }
theorem witness_DeadlineClosesRound : ∀ b ∈ [11, 12],
    let d := (beat b closing).dev
    d.boot.vstby = true ∧ d.round 1 0 = some (fresh 1 0) ∧ (d.nodeRec 1).level ≠ 0 ∧ d.inRun = true ∧ d.frozen = false ∧
    d.startBeatOf 0 + (d.roundRec 1 0).deadline = 12 ∧ d.startBeatOf 0 + (d.roundRec 2 0).deadline = 12 ∧ d.coll.folds = [] ∧
    d.round 2 0 = some { fresh 2 0 with terms := [⟨0, 1, [0], 8, 2⟩] } ∧ (d.nodeRec 2).level ≠ 0 ∧ (d.nodeRec 2).isRoot = true ∧
    (d.roundRec 2 0).blocks = 1 ∧ d.partialLost (d.roundRec 2 0).rootOut (4 * min 256 (d.roundRec 2 0).elements) = false ∧ (d.termsOf 2 { fresh 2 0 with terms := [⟨0, 1, [0], 8, 2⟩] } [] 0).isEmpty = false := by decide +kernel
def uncheckedSet : State := voting 0 [2] fun c => { c with receiving := some 0, fpSets := [(0, { FpSet.reset with opened := some 0 })] }
theorem witness_LeafCloses : tree3.dev.boot.vstby = true ∧ tree3.dev.resil.witnessFrom = none ∧ tree3.dev.nodeOf 9 = none ∧
    tree3.dev.nodeOf 5 = some 0 ∧ tree3.dev.nodeOf 6 = some 1 ∧ (0 < (tree3.dev.nodeRec 0).rounds) ∧ 0 < (tree3.dev.nodeRec 1).rounds ∧
    (tree3.dev.roundRec 0 0).hasOwn = true ∧ (tree3.dev.roundRec 1 0).hasOwn = true ∧ tree3.dev.round 0 0 = some (fresh 0 0) ∧
    tree3.dev.round 1 0 = some (fresh 1 0) ∧ uncheckedSet.dev.unchecked = true ∧ uncheckedSet.dev.resil.witnessFrom = none ∧
    tree3.dev.unchecked = false ∧ tree3.dev.withheld = false ∧ (tree3.dev.nodeRec 0).level = 0 ∧ (tree3.dev.nodeRec 1).level ≠ 0 ∧
    tree3.dev.roundComplete 1 { fresh 1 0 with own := 1, firstAt := some tree3.dev.time.clock } = false := by decide +kernel
def goodSet : FpSet := { FpSet.reset with tag := 4, refs := [5, 5, 0, 0], copies := [5, 5, 0, 0], seen := 3 }
def passes (set : FpSet) : Bool := !set.failed && (nth 0 set.refs 0 != 0 || set.sealed0) && (upTo 4).all fun c =>
  !bitOf set.seen c || (nth 0 set.copies c == nth 0 set.refs c && nth 0 set.refs c == nth 0 set.refs 0)
/-- A set that passes, one with a copy that differs, and one with nothing sealed. -/
theorem witness_FingerprintSets : tree3.dev.boot.vstby = true ∧ tree3.dev.resil.witnessFrom = none ∧ tree3.dev.coll.heldCloses = [] ∧
    passes goodSet = true ∧ passes { goodSet with copies := [5, 6, 0, 0] } = false ∧ passes FpSet.reset = false ∧
    within1000 tree3.dev.coll.lastFpFail tree3.dev.faultStep = false := by decide +kernel

def vote (step : Nat) : VoteMsg :=
  { sub := 0x21, mb8 := 1, step := step, reported := 3, late := 0, voided := 0, overflow := false, incomplete := false, skip := false,
    disagree := false, scale := 0x47800000, stages := [⟨5, 6, true, true, false, 7, 9⟩] }
def voteDue (f : CollState → CollState) : State := beat 12 (voting 0 [2] fun c => f { c with
  rounds := freshRounds.map fun x => { x with expected := 1 } })
/-- Without the child's entry, and with it. -/
theorem witness_VoteGoesUp : ∀ s ∈ [voteDue id, voteDue fun c => { c with ups := [(2, (vote 0).toBytes)] }],
    let d := s.dev
    d.boot.vstby = true ∧ d.hasColl = true ∧ d.inRun = true ∧ d.frozen = false ∧ d.coll.voteStep = 0 ∧ 0 ≤ d.step ∧
    (∀ x ∈ d.rootRounds, 0 < x.expected) ∧
    d.startBeatOf 0 + d.collHead.voteDeadline ≤ d.get Ent.logicalBeat ∧ d.collHead.voteParent ≠ 0xFFFF := by decide +kernel
def twoChildren : State := voting 0 [2, 0] id
theorem witness_VoteUpArrives : twoChildren.dev.boot.vstby = true ∧ twoChildren.dev.hasColl = true ∧ twoChildren.dev.coll.voteStep = 0 ∧
    (VoteMsg.ofBytes (vote 1).toBytes).step = 1 ∧ (VoteMsg.ofBytes (vote 0).toBytes).step = 0 ∧ 7 ∉ twoChildren.dev.collHead.voteChildren ∧
    2 ∈ twoChildren.dev.collHead.voteChildren ∧ twoChildren.dev.coll.deadlineSeen = false ∧
    (∃ c ∈ twoChildren.dev.collHead.voteChildren, c ≠ 2 ∧ ∀ u ∈ twoChildren.dev.coll.ups, u.1 ≠ c) := by decide +kernel
def frozenVote : State := onDev tree3 fun d => { d with power := { d.power with holds := [⟨3, 1, 0, none⟩] } }
theorem witness_VoteComesDown : tree3.dev.boot.vstby = true ∧ tree3.dev.hasColl = true ∧ tree3.dev.coll.downStep = 0 ∧
    (VoteMsg.ofBytes (vote 1).toBytes).step ≠ 0 ∧ frozenVote.dev.hasColl = true ∧ frozenVote.dev.frozen = true ∧
    tree3.dev.frozen = false ∧ tree3.dev.get Ent.snapInterval = 0 ∧
    (tree3.dev.scaleNext (VoteMsg.ofBytes (vote 0).toBytes)).2 < 2 ^ 32 := by decide +kernel
def keptVoid : SentRound := ⟨0, 0, 0, 3, [], 0, 0, 9⟩
def voided : State := voting 0 [2] fun c => { c with sent := [keptVoid] }
theorem witness_ReplicaMessages : tree3.dev.boot.vstby = true ∧ tree3.dev.hasColl = true ∧
    tree3.dev.inState [St.running, St.held, St.braced] = true ∧ voided.dev.hasColl = true ∧ voided.dev.coll.upsSent = [] ∧
    voided.dev.coll.sent = [keptVoid] ∧ keptVoid.kind = 3 ∧ keptVoid.step = 0 ∧ (voided.dev.nodeRec keptVoid.node).parent = 2 ∧
    (∀ x ∈ voided.dev.coll.sent, x.step ≠ 1) := by decide +kernel

/-! ### Burnishers, mirrors and adoption -/

def stateBlock : Nat := nearBase 4 + 0x10000
/-- Section 0x000C with part 1 of Burnisher 1: 100 elements in one chunk (R378, R379). -/
def section12 : List Byte :=
  pad 64 (leBytes 1 2 ++ leBytes 1 1 ++ leBytes 2 0 ++ leBytes 4 2 ++ leBytes 4 1 ++ leBytes 4 0) ++
  pad 48 (leBytes 4 1 ++ leBytes 4 0x3A000000 ++ leBytes 4 0x3C000000 ++ leBytes 4 0x3F600000 ++ leBytes 4 0x3E000000 ++ leBytes 4 0x3F700000 ++
    leBytes 4 0x3D800000 ++ leBytes 4 0x33000000) ++
  List.replicate 128 0#8 ++
  pad 128 (leBytes 4 100 ++ leBytes 2 1 ++ leBytes 2 0 ++ leBytes 4 0 ++ leBytes 4 0 ++ leBytes 8 (nearBase 4) ++ leBytes 8 (nearBase 4 + 0x800) ++
    leBytes 8 (nearBase 4 + 0x1000) ++ leBytes 8 (nearBase 4 + 0x1800) ++ leBytes 8 (nearBase 4 + 0x2000) ++ leBytes 8 (nearBase 4 + 0x2800) ++
    leBytes 8 (nearBase 4 + 0x3000) ++ leBytes 8 (nearBase 4 + 0x3800) ++ leBytes 8 (nearBase 4 + 0x4000) ++ leBytes 8 stateBlock ++
    leBytes 8 0 ++ leBytes 8 (nearBase 4 + 0x20000) ++ leBytes 1 1) ++
  List.replicate (128 * 6) 0#8 ++
  pad 32 (leBytes 4 100 ++ leBytes 4 0 ++ leBytes 8 0 ++ leBytes 8 (nearBase 4 + 0x5000) ++ leBytes 8 (nearBase 4 + 0x6000)) ++
  pad 48 (leBytes 4 0x3F800000 ++ leBytes 4 0x3F800000 ++ leBytes 4 0x3F800000 ++ leBytes 4 0x3F800000) ++ pad 48 (leBytes 4 0x3F800000)
/-- The state block (R390), with some chunks committed. -/
def blockBytes (chunks : Nat) : List Byte := leBytes 4 sbMagic ++ leBytes 1 0 ++ leBytes 1 0xFF ++ leBytes 1 1 ++ leBytes 1 0 ++ leBytes 8 5 ++
  leBytes 4 0 ++ leBytes 4 3 ++ leBytes 4 chunks ++ leBytes 4 0 ++ leBytes 8 77
def part1 (chunks : Nat) (f : Burnisher → Burnisher) : State := onDev ringRun fun d =>
  { d with pat := { pattern with sections := [(0xC, section12)] }, burn := [(1, f Burnisher.reset)], mem := memWrite d.mem stateBlock (blockBytes chunks) }
def mark (skip : Bool) : BurnMark := { step := 4, skip := skip, freeze := false, needStart := false, needRounds := true, grad := 0 }
def marked (skip : Bool) (puts : List (Nat × Nat)) : State := part1 0 fun x => { x with marked := [mark skip], puts := puts }
theorem noneLost_of {d : Dev} (h : d.tier.lostBlocks = []) (a n : Nat) : NoneLost d a n := by
  intro off len _
  simp [Dev.lostIn, h, srange]
theorem chunkWhole_of {d : Dev} (h : d.tier.lostBlocks = []) (b c buf : Nat) : ChunkWhole d b c buf :=
  ⟨noneLost_of h _ _, noneLost_of h _ _, noneLost_of h _ _, fun _ => noneLost_of h _ _, fun _ => noneLost_of h _ _,
    fun _ => noneLost_of h _ _, fun _ _ => noneLost_of h _ _⟩
theorem witness_RunOfPartStarts : ∀ q ∈ [(false, []), (true, []), (false, [(3, 2)])],
    let d := (marked q.1 q.2).dev
    let x := d.burner 1
    d.boot.vstby = true ∧ x.run = none ∧ x.marked = [mark q.1] ∧ d.asleep = false ∧ d.hasPart 1 = true ∧
    d.rootsClosed (mark q.1).step = true ∧ x.puts = q.2 ∧ x.waited = false ∧ x.remirroring = 0 := by decide +kernel
theorem witness_RunOfPartStarts_whole : NoneLost (marked false []).dev ((marked false []).dev.part 1).state 256 :=
  noneLost_of (by decide +kernel) _ _
def inPart (skip : Bool) (chunks : Nat) : State := part1 chunks fun x => { x with run := some (mark skip) }
def lostChunk : State := onDev (inPart false 0) fun d => { d with tier := { d.tier with lostBlocks := [(nearBase 4 / 256, true)] } }
/-- The one chunk still to come, all chunks committed, a run that skips, and a lost block. -/
theorem witness_ChunkCommits : ∀ q ∈ [(inPart false 0, false, 0, false), (inPart false 1, false, 1, false), (inPart true 0, true, 0, false),
      (lostChunk, false, 0, true)],
    let d := q.1.dev
    d.boot.vstby = true ∧ (d.burner 1).run = some (mark q.2.1) ∧ d.asleep = false ∧ d.power.stackUp = true ∧ d.sb 1 24 4 = q.2.2.1 ∧
    (d.part 1).chunks = 1 ∧ d.chunkLost 1 (d.sb 1 24 4) (d.sb 1 4 1) = q.2.2.2 ∧ d.mirroring 1 = false ∧
    ((d.part 1).state + 256 ≤ (d.part 1).slot (d.sb 1 8 8) ∨ (d.part 1).slot (d.sb 1 8 8) + 64 ≤ (d.part 1).state) := by decide +kernel
theorem witness_ChunkCommits_whole : ChunkWhole (inPart false 0).dev 1 ((inPart false 0).dev.sb 1 24 4) ((inPart false 0).dev.sb 1 4 1) :=
  chunkWhole_of (by decide +kernel) _ _ _
theorem witness_RunOfPartCompletes : ∀ q ∈ [(true, 0), (false, 0), (false, 1)],
    let d := (inPart q.1 q.2).dev
    d.boot.vstby = true ∧ (d.burner 1).run = some (mark q.1) ∧ bitOf (d.part 1).done 31 = false ∧ (d.burner 1).remirroring = 0 ∧
    d.sb 1 24 4 = q.2 ∧ (d.part 1).chunks = 1 ∧ ((d.part 1).fpOut + 8 ≤ (d.part 1).state ∨ (d.part 1).state + 256 ≤ (d.part 1).fpOut) ∧
    d.getB Ent.burnisherFlags 1 1 < 2 := by decide +kernel
theorem witness_RunOfPartCompletes_whole :
    let d := (inPart false 1).dev
    NoneLost d (d.part 1).state 256 ∧ NoneLost d (d.part 1).fpOut 8 :=
  ⟨noneLost_of (by decide +kernel) _ _, noneLost_of (by decide +kernel) _ _⟩

def drain (issued : Nat) : Drain := { gen := 1, step := 6, ready := 2, issued := issued, parts := 2, scale := 0x47800000, clean := 3, headed := true, closing := false }
def draining (issued : Nat) : State := onDev (put Ent.snapTarget 1 (part1 0 id)) fun d => { d with resil := { d.resil with drain := some (drain issued) } }
theorem witness_DrainEnds : ∀ n ∈ [2, 0], (draining n).dev.boot.vstby = true ∧ (draining n).dev.resil.drain = some (drain n) ∧
    (draining n).dev.get Ent.snapTarget = 1 ∧ (draining n).dev.lostIn (((draining n).dev.part 1).state + 5) 1 = [] ∧ (drain n).parts = 2 ^ 1 ∧ (drain n).ready = 2 ^ 1 ∧ (drain n).headed = true ∧ (drain n).closing = false ∧ (draining n).dev.weave.pends = [] ∧
    (∀ b ∈ upTo 8, ((draining n).dev.burner b).toSend = []) := by decide +kernel
def greeting (clock : Nat) : State := onDev (part1 0 id) fun d =>
  { d with resil := { d.resil with helloAt := some 5 }, time := { d.time with clock := clock } }
/-- In the answer's time, past it, and with no answer awaited. -/
theorem witness_BuddyHandshake : (greeting 0).dev.boot.vstby = true ∧ (greeting 0).dev.resil.helloAt = some 5 ∧
    (∀ b ∈ upTo 8, ((greeting 0).dev.burner b).remirroring = 0) ∧ (greeting 0).dev.time.clock < 5 + (greeting 0).dev.get Ent.e2eTimeoutUs * clockUs ∧
    5 + (greeting (2 ^ 80)).dev.get Ent.e2eTimeoutUs * clockUs ≤ (greeting (2 ^ 80)).dev.time.clock ∧ (part1 0 id).dev.resil.helloAt = none := by
  decide +kernel
def adopting (phase : Nat) (voted : Option (Nat × Nat × Nat)) (s : State) : State :=
  inState St.adopting (onDev s fun d => ({ d with resil := { d.resil with voted := voted } } : Dev).putB Ent.adoptStatus 0 1 phase)
theorem witness_AdoptionPhases : up.dev.boot.vstby = true ∧ up.dev.devState ≠ St.adopting ∧
    (adopting 2 none tree3).dev.devState = St.adopting ∧ (adopting 2 none tree3).dev.adoptPhase = 2 ∧
    (adopting 2 none tree3).dev.portsReady = true ∧ (adopting 3 none (part1 0 id)).dev.adoptPhase = 3 ∧
    (adopting 3 none (part1 0 id)).dev.resil.voted = none ∧
    (let d := (adopting 3 (some (1, 0, 3)) (part1 0 id)).dev
     d.devState = St.adopting ∧ d.adoptPhase = 3 ∧ d.resil.voted = some (1, 0, 3) ∧ d.resil.toRead = [] ∧ d.weave.pends = [] ∧
     d.parts = [1] ∧ d.mirrorRec 1 = none) ∧
    (let d := (adopting 3 (some (1, 0, 0xFFFFFFFF)) ringRun).dev
     d.devState = St.adopting ∧ d.adoptPhase = 3 ∧ d.resil.voted = some (1, 0, 0xFFFFFFFF) ∧ d.resil.toRead = [] ∧ d.weave.pends = [] ∧
     d.parts = [] ∧ d.hasColl = false) := by decide +kernel

/-! ### Writes of command entries -/

/-- A write passes every check of its row. -/
def accepts (d : Dev) (p : TackPath) (k : Nat) (bs : List Byte) : Bool :=
  d.reaches p && match entRow k with
    | some row => d.writeStatus p row bs == Status.ok
    | none => false
theorem accepts_of (d : Dev) (p : TackPath) (k : Nat) (bs : List Byte) (h : accepts d p k bs = true) : Accepts d p k bs := by
  simp only [accepts, Bool.and_eq_true] at h
  refine ⟨h.1, ?_⟩
  cases hr : entRow k with
  | none => rw [hr] at h; cases h.2
  | some row => rw [hr] at h; exact ⟨row, rfl, of_decide_eq_true h.2⟩
def acceptsNat (s : State) (p : TackPath) (k v : Nat) : Bool := s.dev.boot.vstby && accepts s.dev p k (leBytes (entSize k) v)

/-- A seizure by the Bridle, the way back, and a value that does not differ. -/
theorem witness_OwnerChanges : acceptsNat up .bridle Ent.owner 2 = true ∧ acceptsNat (put Ent.owner 2 up) .bridle Ent.owner 1 = true ∧
    acceptsNat up .host Ent.owner 1 = true ∧ (2 : Nat) < 256 := by decide +kernel
theorem witness_ClearsClear : acceptsNat up .host Ent.stickyClear 1 = true ∧ acceptsNat up .host Ent.stickyClear 0 = true ∧
    acceptsNat up .host Ent.faultLogClear 1 = true ∧ acceptsNat up .host Ent.faultNClear 1 = true ∧
    acceptsNat up .host Ent.tallyClear (2 ^ 31 - 1) = true ∧ acceptsNat up .host Ent.tallyClear 0 = true ∧ (tallyGroup 0).isSome = true := by
  decide +kernel
/-- The root of Weave time, in free run and with a pulse that has been seen. -/
def timeRoot (pps : Bool) : State := put Ent.timeInput 1 (onDev up fun d => { d with time := { d.time with root := some d.deviceId, ppsSeen := pps } })
theorem witness_StepsAndSeconds : acceptsNat (put Ent.stepCounter 600 inLoaded) .host Ent.stepRebase 512 = true ∧
    acceptsNat inLoaded .host Ent.stepRebase 0 = true ∧ acceptsNat up .host Ent.runStartStep (2 ^ 32 - 1) = true ∧
    up.dev.pat.loaded = false ∧ acceptsNat inLoaded .host Ent.runStartStep 3 = true ∧
    acceptsNat (timeRoot false) .host Ent.timeSetS (2 ^ 48 - 1) = true ∧ (timeRoot false).dev.timeSource = 3 ∧
    acceptsNat (timeRoot true) .host Ent.timeSetS 0 = true ∧ (timeRoot true).dev.timeSource ≠ 3 := by decide +kernel
theorem witness_PanelUnfenced : acceptsNat up .host Ent.panelUnfence 0 = true ∧ acceptsNat up .host Ent.panelUnfence 127 = true ∧
    up.dev.fenced 127 = false := by decide +kernel
def planned : State := put Ent.adoptPlan (0x00543210 * 2 ^ 32 + 2) (inState St.spare (ring up))
/-- Each code in each of its states. -/
theorem witness_StateCommands :
    (∀ q ∈ [(1, St.loaded), (1, St.held), (1, St.adopting), (4, St.loaded), (4, St.running), (4, St.held), (4, St.adopting), (4, St.spare),
        (4, St.stowed), (5, St.retired), (5, St.faulted), (6, St.spare), (7, St.loaded), (7, St.running), (7, St.held), (7, St.adopting),
        (7, St.braced), (8, St.stowed)],
      acceptsNat (inState q.2 up) .host Ent.stateCommand q.1 = true ∧ (inState q.2 up).dev.devState = q.2 ∧
      fieldOf ((inState q.2 up).dev.get Ent.stateCmdStatus) 15 8 ≠ 1) ∧
    acceptsNat up .bridle Ent.stateCommand 2 = true ∧ up.dev.devState = St.ready ∧ up.dev.pat.loaded = false ∧
    up.dev.get Ent.panelFenced = 0 ∧ fieldOf (up.dev.get Ent.stateCmdStatus) 15 8 ≠ 1 ∧
    acceptsNat planned .host Ent.stateCommand 3 = true ∧ planned.dev.devState = St.spare ∧ planned.dev.planOk = true ∧
    fieldOf (planned.dev.get Ent.stateCmdStatus) 15 8 ≠ 1 := by decide +kernel
def busy : State := put Ent.stateCmdStatus 0x107 (inState St.stowed up)
theorem witness_StateCommandsRefused :
    (∀ c ∈ [1, 2, 6, 5, 8], acceptsNat (inState St.running up) .host Ent.stateCommand c = true) ∧
    (inState St.running up).dev.devState = St.running ∧ (∀ c ∈ [4, 7], acceptsNat up .host Ent.stateCommand c = true) ∧
    up.dev.devState = St.ready ∧ (∀ c ∈ [1, 7], acceptsNat busy .host Ent.stateCommand c = true) ∧
    fieldOf (busy.dev.get Ent.stateCmdStatus) 15 8 = 1 := by decide +kernel
def reloading : State := onDev inLoaded fun d => { d with power := { d.power with digest := 7 } }
theorem witness_TackResets :
    (∀ p ∈ [TackPath.host, .bridle], ∀ c ∈ [1, 2, 3], acceptsNat up p Ent.resetCommand c = true) ∧ up.dev.boot.trimmed = true ∧
    (∀ v ∈ [St.ready, St.spare, St.retired, St.faulted], (inState v up).dev.inState [St.ready, St.spare, St.retired, St.faulted] = true ∧
      acceptsNat (inState v up) .host Ent.resetCommand 2 = true) ∧
    inRun.dev.inState [St.ready, St.spare, St.retired, St.faulted] = false ∧ acceptsNat inRun .host Ent.resetCommand 2 = true ∧
    acceptsNat inLoaded .host Ent.resetCommand 3 = true ∧ inLoaded.dev.power.stackUp = true ∧ inLoaded.dev.pat.loaded = true ∧
    inLoaded.dev.inState [St.braced, St.stowed, St.standby, St.faulted, St.sealed, St.trimmed] = false ∧ inLoaded.dev.get Ent.lpState ≠ 2 ∧
    inLoaded.dev.inState [St.loaded, St.running, St.held, St.adopting] = true := by decide +kernel
def low (v : Nat) : State := put Ent.lpState v up
theorem witness_LowPower :
    (∀ c ∈ [0, 1, 2, 3], acceptsNat up .host Ent.lpCommand c = true) ∧ up.dev.get Ent.lpState = 0 ∧ up.dev.devState = St.ready ∧
    (∀ v ∈ [St.ready, St.loaded, St.spare], acceptsNat (inState v up) .host Ent.lpCommand 1 = true ∧
      (inState v up).dev.inState [St.ready, St.loaded, St.spare] = true ∧ (inState v up).dev.get Ent.lpState = 0) ∧
    (∀ v ∈ [1, 2, 3], acceptsNat (low v) .host Ent.lpCommand 0 = true ∧ (low v).dev.get Ent.lpState = v) ∧
    (low 1).dev.weave.held = [] := by decide +kernel
def holdingOf (h : HoldEnt) : State := inState St.held (onDev ringRun fun d => { d with power := { d.power with holds := [h], causes := [4] } })
theorem witness_HoldCommands : acceptsNat ringRun .host Ent.holdCommand 1 = true ∧ ringRun.dev.devState = St.running ∧
    ringRun.dev.ownHold = none ∧ acceptsNat (holdingOf ⟨1, 4, 0, none⟩) .host Ent.holdCommand 2 = true ∧
    (holdingOf ⟨1, 4, 0, none⟩).dev.power.causes = [4] ∧ (holdingOf ⟨1, 4, 0, none⟩).dev.power.holds = [⟨1, 4, 0, none⟩] ∧
    (holdingOf ⟨1, 4, 0, none⟩).dev.deviceId = 1 ∧ 0 < (holdingOf ⟨1, 4, 0, none⟩).dev.beatUnits ∧
    acceptsNat (holdingOf ⟨0xFFFE, 4, 0, none⟩) .bridle Ent.holdRelease 0xFFFE = false ∧
    acceptsNat (holdingOf ⟨3, 4, 0, none⟩) .host Ent.holdRelease 3 = true ∧ (3 : Nat) < 0xFFFF ∧
    acceptsNat (holdingOf ⟨3, 4, 0, none⟩) .host Ent.holdRelease 0xFFFF = true := by decide +kernel
def env (image : Option (List Byte)) : TackEnv := { panelPasses := true, image := image, load := .done, flashFails := false, strap := 0 }
/-- The head of a snapshot image of step 4 (R409), of a device with no part. -/
def snapshot : List Byte := leBytes 4 0x50414E53 ++ leBytes 2 0 ++ leBytes 2 0 ++ leBytes 4 4 ++ leBytes 4 1 ++ List.replicate 240 0#8
def restoring : State := onDev (put Ent.restoreStep 4 inLoaded) fun d => (d.putB Ent.snapStatus 17 1 1).putB Ent.snapStatus 0 4 4
def restored : State := onDev inLoaded fun d => { d with resil := { d.resil with restored := some 4 } }
theorem witness_ResilienceCommands :
    (∀ c ∈ [1, 2, 3, 4], acceptsNat restoring .host Ent.resilCommand c = true) ∧ restoring.dev.devState = St.loaded ∧
    restoring.dev.get Ent.restoreStep = 4 ∧ restoring.dev.targetValid 4 snapshot = true ∧ (env none).image = none ∧
    restoring.dev.localExists 4 = true ∧ restoring.dev.localValid = true ∧ inLoaded.dev.localExists 4 = false ∧
    acceptsNat inLoaded .host Ent.resilCommand 2 = true ∧ restored.dev.resil.restored.isSome = true ∧
    acceptsNat restored .host Ent.resilCommand 3 = true ∧ restoring.dev.resil.restored = none ∧
    restoring.dev.inState [St.loaded, St.running] = true ∧ acceptsNat inRun .host Ent.resilCommand 4 = true ∧
    up.dev.devState = St.ready ∧ acceptsNat up .host Ent.resilCommand 1 = true ∧ acceptsNat up .host Ent.resilCommand 4 = true := by
  decide +kernel
def flashAt (a : Nat) : State := put Ent.flashOffset a up
/-- Bytes that fill the slots to their end, and bytes past it. -/
theorem witness_FlashWrites : (env none).flashFails = false ∧
    (∀ q ∈ [(0x100000, false), (0x3000000 - 8, false), (0x3000000 - 7, true)],
      accepts (flashAt q.1).dev .host Ent.flashData (List.replicate 8 1#8) = true ∧ (flashAt q.1).dev.boot.vstby = true ∧
      (flashAt q.1).dev.flashRefused q.1 8 = q.2) ∧
    acceptsNat up .host Ent.flashErase 0x10FFFF = true ∧ up.dev.flashRefused 0x100000 65536 = false ∧
    acceptsNat up .host Ent.flashErase 0x3000000 = true ∧ up.dev.flashRefused 0x3000000 65536 = true := by decide +kernel
theorem witness_KeyStored : (env none).flashFails = false ∧ (List.replicate 32 (1#8 : Byte)).length = 32 ∧
    accepts (put Ent.owner 2 up).dev .bridle Ent.mgmtKey (List.replicate 32 1#8) = true := by decide +kernel
def revoked (v slot : Nat) : State := { onDev up (fun d => { d with boot := { d.boot with keySlot := slot } }) with
  fuses := { State.reset.fuses with revoked := v } }
theorem witness_FusesBurn : up.dev.boot.vstby = true ∧ inRun.dev.reaches .host = true ∧ inRun.dev.devState ≠ St.ready ∧ inRun.dev.boot.vstby = true ∧
    (∀ v ∈ [0, 1], accepts up.dev .host Ent.rollbackAdvance (leBytes 1 v) = true ∧ accepts up.dev .host Ent.keyRevoke (leBytes 1 v) = true) ∧
    (revoked 0 0).dev.boot.keySlot ≠ 1 ∧ bitOf (revoked 0 0).fuses.revoked (1 - 1) = false ∧
    accepts (revoked 0 0).dev .host Ent.keyRevoke (leBytes 1 1) = true ∧ (revoked 0 0).dev.boot.keySlot = 0 ∧
    accepts (revoked 1 0).dev .host Ent.keyRevoke (leBytes 1 1) = true ∧ bitOf (revoked 1 0).fuses.revoked (1 - 1) = true := by
  decide +kernel

/-! ### Loads -/

/-- A Pattern image with no panel, three sections and no bundle (R223, R224). The CRCs and the digest were computed outside
the model. -/
def dirEntry (typ crc off len : Nat) : List Byte := leBytes 2 typ ++ leBytes 2 0 ++ leBytes 4 crc ++ leBytes 8 off ++ leBytes 8 len
def image : List Byte :=
  pad 352 (pad 256 (leBytes 4 0x3254504E ++ leBytes 2 1 ++ leBytes 1 1 ++ leBytes 2 0 ++ leBytes 1 0x6A ++ leBytes 1 1 ++ leBytes 1 0 ++
      leBytes 1 1 ++ leBytes 1 1 ++ leBytes 1 1 ++ leBytes 1 0 ++ leBytes 2 5 ++ leBytes 2 4 ++ leBytes 4 8192 ++ leBytes 16 0 ++
      leBytes 8 50000 ++ leBytes 4 0 ++ leBytes 4 9 ++ leBytes 4 32 ++ leBytes 4 20 ++ leBytes 4 4 ++ leBytes 28 0 ++ leBytes 4 3 ++
      leBytes 4 0 ++ leBytes 8 256 ++
      leBytes 48 0x52e96522533a4ed0d67469df51a99c3f63c785af7732b48d0a0280f2ca90f763979cef1ebc7a91671883cc57584f3ae6 ++
      leBytes 8 0x40000 ++ leBytes 8 0) ++
    dirEntry 1 0xefb5af2e 352 1024 ++ dirEntry 2 0 1440 0 ++ dirEntry 8 0x758d6336 1376 64) ++ List.replicate 1088 0#8
def tagged : State := put Ent.jobTag 0x8005 (onDev up fun d => d.putB Ent.stackStatus 0 1 1)
theorem firstOf_append {α : Type} : ∀ (a b : List (Option α)), firstOf a = none → firstOf b = none → firstOf (a ++ b) = none
  | [], _, _, hb => hb
  | none :: a, b, ha, hb => firstOf_append a b ha hb
  | some _ :: _, _, ha, _ => by cases ha
def crcFold (c : Nat) (n : Nat) : Nat := (List.replicate n (0#8 : Byte)).foldl (fun c b => crcBits 8 0xEDB88320 (c ^^^ b.toNat)) c
theorem crc_step (c m v w : Nat) (h : crcFold c m = v) (k : crcFold v 128 = w) : crcFold c (m + 128) = w := by
  rw [crcFold, ← List.replicate_append_replicate, List.foldl_append]
  exact (congrArg (fun x => crcFold x 128) h).trans k
theorem crc32_zeros (n : Nat) : crc32 (List.replicate n 0#8) = crcFold 0xFFFFFFFF n ^^^ 0xFFFFFFFF := rfl
/-- The CRC of the panel table, eighth by eighth. -/
theorem table_crc : crc32 (List.replicate 1024 0#8) = 0xefb5af2e := by
  have h1 : crcFold 0xFFFFFFFF 128 = 1029113186 := by decide +kernel
  have h2 : crcFold 0xFFFFFFFF 256 = 4066998951 := crc_step _ 128 1029113186 _ h1 (by decide +kernel)
  have h3 : crcFold 0xFFFFFFFF 384 = 2001022648 := crc_step _ 256 4066998951 _ h2 (by decide +kernel)
  have h4 : crcFold 0xFFFFFFFF 512 = 1297451655 := crc_step _ 384 2001022648 _ h3 (by decide +kernel)
  have h5 : crcFold 0xFFFFFFFF 640 = 3028871461 := crc_step _ 512 1297451655 _ h4 (by decide +kernel)
  have h6 : crcFold 0xFFFFFFFF 768 = 174001130 := crc_step _ 640 3028871461 _ h5 (by decide +kernel)
  have h7 : crcFold 0xFFFFFFFF 896 = 2915205440 := crc_step _ 768 174001130 _ h6 (by decide +kernel)
  have h8 : crcFold 0xFFFFFFFF 1024 = 273305809 := crc_step _ 896 2915205440 _ h7 (by decide +kernel)
  rw [crc32_zeros, h8]
  decide +kernel
def sections : List Sect := [⟨0, 1, 0, 0xefb5af2e, 352, 1024, List.replicate 1024 0#8⟩, ⟨1, 2, 0, 0, 1440, 0, []⟩,
  ⟨2, 8, 0, 0x758d6336, 1376, 64, List.replicate 64 0#8⟩]
theorem image_sections : (Image.ofBytes image).sects = sections := by decide +kernel
theorem image_structure : (Image.ofBytes image).structureBad = none := by decide +kernel
theorem image_digest : (Image.ofBytes image).digestOk = true := by decide +kernel
theorem image_sums : (Image.ofBytes image).sums = none := by
  have h1 : ¬ (crc32 (List.replicate 1024 0#8) != 0xefb5af2e) = true := by rw [table_crc]; decide
  have h2 : ¬ (crc32 [] != 0) = true := by decide +kernel
  have h8 : ¬ (crc32 (List.replicate 64 0#8) != 0x758d6336) = true := by decide +kernel
  have h : sections.find? (fun s => crc32 s.data != s.crc) = none := by
    rw [sections, List.find?_cons_of_neg (by exact h1), List.find?_cons_of_neg (by exact h2), List.find?_cons_of_neg (by exact h8)]
    rfl
  rw [Image.sums, image_sections, h, image_digest]
  rfl
theorem image_early : tagged.dev.earlyRefused tagged.fuses (Image.ofBytes image) none = none := by
  unfold Dev.earlyRefused
  refine firstOf_append _ _ (firstOf_append _ _ ?_ ?_) ?_
  · rw [image_structure, image_sums]
    decide +kernel
  · decide +kernel
  · decide +kernel
theorem image_banks : (tagged.dev.trial (Image.ofBytes image)).bankCheck = false := by decide +kernel
theorem passes_of {d : Dev} {f : Fuses} {m : Image} (he : d.earlyRefused f m none = none) (hb : (d.trial m).bankCheck = false)
    (hp : Config.provableFault m.bytes = none) : d.imageRefused f m none = none := by
  rw [Dev.imageRefused, he, Option.orElse_none, hb, if_neg Bool.false_ne_true, provable, hp, Option.map_none]
/-- Where the loader proves no fault of it certain (log 9), the image passes every check. -/
theorem image_passes (h : Config.provableFault (Image.ofBytes image).bytes = none) :
    tagged.dev.imageRefused tagged.fuses (Image.ofBytes image) none = none := passes_of image_early image_banks h

/-- The image in near stack 0, zeros in its place, and a reload that waits. -/
def stored (bs : List Byte) (n : Nat) : State := put Ent.loadAddress (nearBase 0 + 0x1000) (put Ent.loadLength n (onDev tagged fun d =>
  { d with mem := memWrite d.mem (nearBase 0 + 0x1000) bs }))
theorem stored_read (bs : List Byte) (n : Nat) : (stored bs n).dev.read (nearBase 0 + 0x1000) bs.length = bs :=
  read_eq_of_bytes _ _ _ fun k hk => by
    show sget 0#8 (memWrite tagged.dev.mem (nearBase 0 + 0x1000) bs) (nearBase 0 + 0x1000 + k) = _
    rw [sget_memWrite, if_pos ⟨Nat.le_add_right _ _, by omega⟩, Nat.add_sub_cancel_left]
theorem image_length : image.length = 1440 := by decide +kernel
def waitingReload : State := inState St.loaded (onDev (stored [] 256) fun d => d.putB Ent.stackResetStatus 1 1 1)
theorem witness_TackLoads : (env none).load = .done ∧
    (∀ s ∈ [stored image 1440, stored [] 256, waitingReload], s.dev.get Ent.loadAddress % 4096 = 0 ∧ 256 ≤ s.dev.get Ent.loadLength ∧
      s.dev.imageInNear (s.dev.get Ent.loadAddress) (s.dev.get Ent.loadLength) = true ∧
      s.dev.lostIn (s.dev.get Ent.loadAddress) (s.dev.get Ent.loadLength) = []) ∧
    (stored image 1440).dev.devState = St.ready ∧ (stored image 1440).dev.resil.adoptPending = false ∧
    acceptsNat (stored image 1440) .host Ent.loadCommand 1 = true ∧
    (stored [] 256).dev.imageRefused (stored [] 256).fuses (Image.ofBytes (List.replicate 256 0#8)) none = some (0x0500, 2, 0xFF) ∧
    waitingReload.dev.reloadState = 1 ∧ acceptsNat waitingReload .host Ent.loadCommand 2 = true := by decide +kernel
def ringOf (head tail entries : Nat) : State := onDev tagged fun d =>
  { d with tack := { d.tack with lqHead := head, lqTail := tail, lqEntries := entries, lqBase := 0x123456789000 } }
def entry (a n : Nat) : List Byte := leBytes 8 a ++ leBytes 8 n ++ leBytes 16 0
/-- The most entries that may wait and one more, across the wrap; an empty ring and one with an entry. -/
theorem witness_RingMoves : (ringOf 5 7 16).dev.boot.vstby = true ∧ (ringOf 5 7 16).dev.power.endpoint = true ∧
    (0xFFFFFFFE + 16 + 2 ^ 32 - 0xFFFFFFFE) % 2 ^ 32 ≤ (ringOf 0xFFFFFFFE 0xFFFFFFFE 16).dev.tack.lqEntries ∧
    (ringOf 0xFFFFFFFE 0xFFFFFFFE 16).dev.tack.lqEntries < (0xFFFFFFFE + 17 + 2 ^ 32 - 0xFFFFFFFE) % 2 ^ 32 ∧
    (ringOf 5 5 16).dev.tack.lqHead = (ringOf 5 5 16).dev.tack.lqTail ∧ isPow2 256 = true ∧ isPow2 1 = true ∧
    (ringOf 5 7 16).dev.tack.lqHead ≠ (ringOf 5 7 16).dev.tack.lqTail ∧ (ringOf 5 7 16).dev.power.firstReady = true ∧
    leAt (entry 0x1001 1440) 0 8 % 4096 ≠ 0 ∧ leAt (entry 0x1000 1440) 0 8 % 4096 = 0 ∧ 256 ≤ leAt (entry 0x1000 1440) 8 8 ∧
    leAt (entry 0x1000 1440) 16 4 = 0 ∧ leAt (entry 0x1000 1440) 28 4 = 0 ∧ (ringOf 5 7 16).dev.devState = St.ready ∧
    (ringOf 5 7 16).dev.resil.adoptPending = false ∧ image.take (leAt (entry 0x1000 1440) 8 8) = image := by decide +kernel

/-! ### The Tack's messages -/

/-- A write of jobTag that passes, one that a check refuses by its length, and a first segment. -/
theorem witness_EntriesAreWritten : up.dev.boot.vstby = true ∧ up.dev.reaches .host = true ∧ up.dev.reaches .bridle = true ∧
    (match entRow Ent.jobTag with
      | some row => (up.dev.writeStatus .host row (leBytes (entSize Ent.jobTag) 5) == Status.ok) &&
          (up.dev.writeStatus .host row [1#8, 1#8, 1#8, 1#8, 1#8, 1#8, 1#8, 1#8, 1#8] != Status.ok) && (up.dev.accessStatus row == Status.ok)
      | none => false) = true ∧ Ent.jobTag ∉ Sys2Proof.Certificates.actingEntries ∧ 0 < entSize Ent.jobTag ∧ (List.replicate 1024 (0#8 : Byte)).length ≤ 1024 := by
  decide +kernel
def readable (d : Dev) (k : Nat) : Bool := match entRow k with
  | some row => (row.access != 4) && (stackHeld row == false || d.power.stackUp) && decide (k ∉ Sys2Proof.Certificates.computedEntries)
  | none => false
def followed (k : Nat) : Bool := dictionary.any fun row => decide (k < row.key) &&
  (dictionary.all fun q => decide (k < q.key → row.key ≤ q.key)) && (dictionary.all fun q => decide (q.key = row.key → q = row))
/-- An entry read, the first entry from key 0 and the end of the dictionary. -/
theorem witness_EntriesAreRead : up.dev.boot.vstby = true ∧ up.dev.reaches .host = true ∧ readable up.dev Ent.jobTag = true ∧
    readable up.dev Ent.loadAddress = true ∧ followed 0 = true ∧ (∀ q ∈ dictionary, q.key ≤ 0xFFFFFF) := by decide +kernel

def rowHas (k : Nat) (f : EntRow → Bool) : Bool := (entRow k).any f
def asleep : State := onDev up fun d => { d with power := { d.power with stackUp := false } }
/-- A held entry with the stack down, an entry that is not held, and a write-only one. -/
theorem witness_EntriesAnswered : asleep.dev.boot.vstby = true ∧ asleep.dev.reaches .host = true ∧ asleep.dev.power.stackUp = false ∧
    up.dev.power.stackUp = true ∧ rowHas Ent.stickyFlags (fun row => row.access != 4 && row.retention == 5 &&
      decide (0x6000 ≤ Ent.stickyFlags / 256 ∧ Ent.stickyFlags / 256 ≤ 0x63FF)) = true ∧
    rowHas Ent.deviceState (fun row => row.access != 4) = true ∧ ¬ (0x6000 ≤ Ent.deviceState / 256) ∧
    rowHas Ent.stickyClear (fun row => row.access == 4) = true := by decide +kernel
theorem witness_OwnerGates : up.dev.boot.vstby = true ∧ up.dev.reaches .bridle = true ∧ up.dev.get Ent.owner = 1 ∧
    Ent.jobTag ∉ [Ent.owner, Ent.stateCommand, Ent.resetCommand] ∧ rowHas Ent.jobTag (fun row => up.dev.accessStatus row == Status.ok) = true := by
  decide +kernel

/-- A message of the dictionary (R519). -/
def message (op key n tag : Nat) (bs : List Byte) : List Byte := leBytes 1 op ++ leBytes 1 (if op = 2 then 1 else 0) ++
  leBytes 2 (key / 256) ++ leBytes 2 (key % 256) ++ leBytes 2 n ++ leBytes 4 0 ++ leBytes 4 tag ++ bs
def posting (bs : List Byte) : State := onDev up fun d =>
  { d with tack := { d.tack with mbRequest := (upTo bs.length).map fun k => (k, nth 0#8 bs k) } }
def oneNext (ms : List DictMsg) : Bool := !ms.isEmpty && ms.all fun m => m.op == 3 && !m.malformed
/-- A submission of one message, and doorbells of 15 and 4097 bytes. -/
theorem witness_MailboxAnswers : (posting (message 3 5 0 7 [])).dev.boot.vstby = true ∧
    (posting (message 3 5 0 7 [])).dev.power.endpoint = true ∧ bitOf (posting (message 3 5 0 7 [])).dev.tack.mbStatus 0 = false ∧
    (posting (message 3 5 0 7 [])).dev.submission (fieldOf (0x20000 + 15) 12 0) = none ∧
    ((posting (message 3 5 0 7 [])).dev.submission (fieldOf (0x20000 + 16) 12 0)).any oneNext = true := by decide +kernel
theorem witness_BarZeroWrites : up.dev.boot.vstby = true ∧ up.dev.power.endpoint = true ∧
    (0x1000 ≤ 0x1FFF ∧ 0x1FFF + [5#8].length ≤ 0x2000 ∧ 0x1FFF < 0x2000) ∧ bitOf up.dev.tack.mbStatus 0 = false ∧
    bitOf (onDev up fun d => { d with tack := { d.tack with mbStatus := 1 } }).dev.tack.mbStatus 0 = true := by decide +kernel
def frame (type auth : Nat) (ms : List (List Byte)) : List Byte := leBytes 2 0x4B54 ++ leBytes 1 1 ++ leBytes 1 type ++ leBytes 1 auth ++
  leBytes 1 ms.length ++ leBytes 2 ms.flatten.length ++ leBytes 8 0x77 ++ leBytes 8 0x99 ++ leBytes 8 0 ++ ms.flatten
theorem witness_BridleAnswers : up.dev.boot.vstby = true ∧ frameMessages (frame 1 0 [message 3 5 0 7 [0#8]]) = none ∧
    (frameMessages (frame 1 0 [message 3 5 0 7 []])).any oneNext = true ∧
    (frameMessages (frame 1 0 [message 2 Ent.jobTag 2 7 (leBytes 8 0x201)])).any (fun ms => ms.any fun m => m.op == 2) = true ∧
    leAt (frame 1 0 [message 3 5 0 7 []]) 3 1 = 1 ∧ leAt (frame 1 0 [message 3 5 0 7 []]) 4 1 = 0 ∧
    leAt (frame 1 0 [message 2 Ent.jobTag 2 7 (leBytes 8 0x201)]) 4 1 = 0 ∧ bitOf (up.dev.get Ent.bridleEventDest) 144 = false := by
  decide +kernel

/-! ### BAR2 -/

def nearUp (s : State) : State := onDev s fun d => d.put Ent.stackStatus ((upTo 24).foldl (fun a k => a + 1 <<< (8 * k)) 0)
def sampled : State := onDev up fun d => { d with tally := { d.tally with sampleRead := 1, sampleWrite := 8 } }
/-- The first and the last bytes of a near stack, the first of the other regions, a hole; and a device before READY. -/
theorem witness_BarTwoAccesses : (nearUp up).dev.boot.vstby = true ∧ (nearUp up).dev.power.endpoint = true ∧ (nearUp up).dev.bar2Ready = true ∧
    (∀ a ∈ [nearBase 0, nearBase 15 + 0x8F5FFFFF8],
      (∃ k, k < 16 ∧ (nearUp up).dev.region a = .near k) ∧ (nearUp up).dev.region (a + 8 - 1) ≠ .hole ∧
      (nearUp up).dev.guarded a 8 = false ∧ (nearUp up).dev.lostIn a 8 = [] ∧ (nearUp up).dev.partialLost a 8 = false) ∧
    (nearUp up).dev.guarded (nearBase 3 + 0x8F6000000) 8 = true ∧ (∃ k, k < 16 ∧ (nearUp up).dev.region (nearBase 3 + 0x8F6000000) = .near k) ∧
    (nearUp up).dev.region (nearBase 3 + 0x8F6000000 + 7) ≠ .hole := by decide +kernel
theorem witness_BarTwoAccesses_regions :
    (nearUp up).dev.region 0x14000000000 = .deep 0 ∧ (nearUp up).dev.region (0x14000000000 + 7) ≠ .hole ∧
    (nearUp up).dev.partialLost 0x14000000000 8 = false ∧ (nearUp up).dev.region 0x10C000000 = .side 0 ∧
    (nearUp up).dev.region (0x10DFFFFF8 + 7) = .side 15 ∧ (nearUp up).dev.region 0x100C00000 = .scratch 12 ∧
    (nearUp up).dev.region 0x108600000 = .acc 12 ∧ (nearUp up).dev.region 0x10E300000 = .bundle 12 ∧
    (nearUp up).dev.region (0x10E300000 + 7) ≠ .hole ∧ (nearUp up).dev.region 0x1C000000000 = .hole ∧
    (put Ent.panelMask (2 ^ 12) (nearUp up)).dev.panelOpen 12 = (nearUp up).dev.panelOpen 12 ∧
    (onDev up fun d => { d with power := { d.power with firstReady := false } }).dev.bar2Ready = false ∧
    sampled.dev.boot.vstby = true ∧ sampled.dev.bar2Ready = true ∧ sampled.dev.power.endpoint = true ∧
    sampled.dev.tally.sampleRead ≤ 1 ∧ 8 ≤ sampled.dev.tally.sampleWrite ∧ 0 < sampled.dev.tally.sampleRead ∧
    sampled.dev.tally.sampleWrite < 9 := by decide +kernel

/-! ### Holds -/

def seen (k origin seq : Nat) (s : State) : State := onDev s fun d => { d with power := { d.power with seen := [(k, origin, seq)] } }
/-- A copy that comes at FREEZE_BEAT and one that comes before it. -/
theorem witness_HoldArrives : ringRun.dev.boot.vstby = true ∧ ringRun.dev.firstSeen 1 2 5 = true ∧ ringRun.dev.power.holds = [] ∧
    ringRun.dev.get Ent.logicalBeat < 50 ∧ 50 ≤ (put Ent.logicalBeat 50 ringRun).dev.get Ent.logicalBeat ∧
    (put Ent.logicalBeat 50 ringRun).dev.firstSeen 1 2 5 = true ∧ (put Ent.logicalBeat 50 ringRun).dev.pat.loaded = true ∧
    (put Ent.logicalBeat 50 ringRun).dev.inState [St.running, St.held, St.braced, St.stowed, St.adopting] = true ∧
    (seen 1 2 5 ringRun).dev.firstSeen 1 2 5 = false := by decide +kernel
theorem witness_ReleaseArrives : (holdingOf ⟨3, 4, 0, none⟩).dev.boot.vstby = true ∧ (holdingOf ⟨3, 4, 0, none⟩).dev.firstSeen 2 3 4 = true ∧
    (holdingOf ⟨3, 4, 0, none⟩).dev.power.holds = [⟨3, 4, 0, none⟩] ∧ 0 ≤ (holdingOf ⟨3, 4, 0, none⟩).dev.rawIndex ∧
    (seen 2 3 4 ringRun).dev.firstSeen 2 3 4 = false ∧ ringRun.dev.firstSeen 3 3 4 = true ∧ (seen 3 3 4 ringRun).dev.firstSeen 3 3 4 = false := by
  decide +kernel
def stowedWaiting (src : Nat) : State := inState St.stowed (onDev (holdingOf ⟨3, 4, 0, none⟩) fun d =>
  { d with power := { d.power with awaiting := [src], before := St.held } })
theorem witness_HoldQueries : (stowedWaiting 2).dev.boot.vstby = true ∧ (stowedWaiting 2).dev.devState = St.stowed ∧
    (stowedWaiting 2).dev.power.awaiting = [2] ∧ (false = false ∨ (0 : Nat) ≠ (stowedWaiting 2).dev.get Ent.logicalBeat) ∧
    7 ≠ (stowedWaiting 2).dev.get Ent.logicalBeat ∧ ringRun.dev.power.awaiting = [] ∧
    (holdingOf ⟨3, 4, 0, none⟩).dev.power.holds ≠ [] ∧ (holdingOf ⟨3, 4, 0, none⟩).dev.power.limit = false ∧ ringRun.dev.power.holds = [] ∧
    (onDev (holdingOf ⟨3, 4, 0, none⟩) fun d => { d with power := { d.power with limit := true } }).dev.power.limit = true := by decide +kernel

/-! ### VBULK and heat -/

theorem witness_BraceAndClear : (65535 : Nat) < 65536 ∧ up.dev.boot.vstby = true ∧
    (∀ v ∈ [St.loaded, St.running, St.held, St.adopting], (inState v up).dev.inState [St.loaded, St.running, St.held, St.adopting] = true) ∧
    up.dev.outsideRun = true ∧ up.dev.power.awaiting = [] ∧ (inState St.braced up).dev.devState = St.braced := by decide +kernel
theorem witness_PowerFalls : up.dev.boot.vstby = true ∧ (inState St.braced up).dev.devState = St.braced ∧
    (∀ v ∈ [St.loaded, St.running, St.held, St.adopting, St.braced],
      (inState v up).dev.inState [St.loaded, St.running, St.held, St.adopting, St.braced] = true) ∧
    (put Ent.powerEventStatus 1 up).dev.outsideRun = true ∧ (put Ent.powerEventStatus 1 up).dev.power.stackUp = true ∧
    (put Ent.powerEventStatus 1 up).dev.pesBit 0 = true ∧ up.dev.power.stackUp = true ∧ up.dev.power.stowing = false ∧
    State.reset.dev.power.stackUp = false ∧ State.reset.dev.boot.vstby = true := by decide +kernel
def losses (l : List Nat) : State := onDev up fun d => { d with stack := { d.stack with lossSteps := l } }
/-- The first and the last domain of each kind, and two earlier losses at the edge of the thousand steps. -/
theorem witness_SuppliesLost : (losses []).dev.boot.vstby = true ∧ (losses []).dev.power.stackUp = true ∧ (losses []).dev.power.stowing = false ∧
    (losses []).dev.stack.lossSteps = [] ∧ (∀ k ∈ [0, 55], k < 56) ∧ (∀ k ∈ [56, 67, 68, 75], 56 ≤ k ∧ k < 76) ∧ (∀ i ∈ [0, 16], i < 17) ∧
    (put Ent.stepCounter 1000 (losses [0, 0])).dev.stack.lossSteps = [0, 0] ∧ (put Ent.stepCounter 1000 (losses [0, 0])).dev.faultStep ≤ 0 + 1000 := by
  decide +kernel
theorem witness_HeatIsAnswered : up.dev.boot.vstby = true ∧ (List.replicate 41 (1520 : Int)).length = 41 ∧
    (∀ t ∈ List.replicate 41 (1520 : Int), -32768 ≤ t ∧ t < 32768) ∧ (∀ i ∈ [0, 15], i < 16 ∧ 95 * 16 ≤ nth 0 (List.replicate 41 (1520 : Int)) i ∧
      (up.dev.island i).stretch ≠ 12) := by decide +kernel
/-- Stowed with VBULK back, with and without a warn condition. -/
def cold : State := inState St.stowed (onDev up fun d => { d.put Ent.powerEventStatus 2 with power := { d.power with stackUp := false } })
theorem witness_WarmResumes : cold.dev.boot.vstby = true ∧ cold.dev.devState = St.stowed ∧ cold.dev.power.stowing = false ∧
    cold.dev.power.stackUp = false ∧ cold.dev.pesBit 0 = false ∧ cold.dev.pesBit 1 = true ∧ cold.dev.power.commanded = false ∧
    cold.dev.parts = [] ∧ cold.dev.weave.held = [] ∧ cold.dev.power.completions = [] ∧ (∀ i, i < 8 → cold.dev.requiredPort i = false) ∧
    ((cold.dev.powerUp ⟨[], [], [], []⟩).stacksRest false).stowValid = false ∧ (put Ent.powerEventStatus 3 cold).dev.pesBit 0 = true ∧
    up.dev.devState ≠ St.stowed := by decide +kernel
/-- The same with the stacks at rest and the headers of a complete image in every slice (R285). -/
def imaged : State := onDev (put Ent.stackStatus ((upTo 24).foldl (fun a k => a + 2 <<< (8 * k)) 0) cold) fun d =>
  { d with mem := ((upTo 16).map fun n => [(sliceBase n, 0x53#8), (sliceBase n + 1, 0x54#8), (sliceBase n + 2, 0x4F#8), (sliceBase n + 3, 0x57#8),
      (sliceBase n + 28, 1#8)]).flatten
           power := { d.power with before := St.held, saved := some ⟨[], [], [], d.wide, d.flags, [], []⟩ } }
theorem witness_WarmResumes_image : imaged.dev.boot.vstby = true ∧ imaged.dev.devState = St.stowed ∧ imaged.dev.power.stowing = false ∧
    imaged.dev.power.stackUp = false ∧ imaged.dev.pesBit 0 = false ∧ imaged.dev.pesBit 1 = true ∧ imaged.dev.power.commanded = false ∧
    imaged.dev.parts = [] ∧ imaged.dev.weave.held = [] ∧ imaged.dev.power.completions = [] ∧ (∀ i, i < 8 → imaged.dev.requiredPort i = false) ∧
    ((imaged.dev.powerUp ⟨[], [], [], []⟩).stacksRest false).stowValid = true ∧ imaged.dev.power.saved.isSome = true := by decide +kernel

/-! ### Power-on, resets and pins -/

/-- The fuses and the ROM good, either bad; a device whose RESET_N is held, and one whose is not. -/
def start (rom fuses : Bool) : StartF := ⟨5, rom, fuses, true, 65536, 2, 200, true⟩
theorem witness_PowerOn : (start true true).romOk = true ∧ (start true true).fusesOk = true ∧ (start false true).romOk = false ∧
    (start true false).fusesOk = false ∧ { start true true with refclk := false }.refclk = false ∧ State.reset.dev.power.resetHeld = false ∧
    (onDev State.reset fun d => { d with power := { d.power with resetHeld := true } }).dev.power.resetHeld = true := by decide +kernel
theorem witness_ResetPin : up.dev.boot.vstby = true ∧ (inState St.trimmed up).dev.devState = St.trimmed ∧ up.dev.devState ≠ St.trimmed ∧ up.dev.boot.refclk = true ∧
    (onDev (inState St.trimmed up) fun d => { d with boot := { d.boot with refclk := false } }).dev.boot.refclk = false := by
  decide +kernel
theorem witness_EndpointPins : up.dev.boot.vstby = true ∧ State.reset.dev.boot.vstby = true := by decide +kernel
def railOn (k v : Nat) (s : State) : State := onDev s fun d => d.putB Ent.domainStatus k 1 v
/-- Configured, with no domain on but that of the second Selvage's other rail. -/
def starting_ : State := railOn 65 1 (inState St.configured (onDev (put Ent.portEnable 3 up) fun d => { d with power := { d.power with stackUp := false } }))
theorem witness_RailsComeUp : starting_.dev.boot.vstby = true ∧ starting_.dev.started = true ∧ (∀ k ∈ [56, 63, 64, 67, 68, 75], 56 ≤ k ∧ k < 76) ∧
    (railOn 56 1 starting_).dev.getB Ent.domainStatus 56 1 = 1 ∧ (∀ k ∈ [56, 63, 64, 67, 68, 75], starting_.dev.getB Ent.domainStatus k 1 ≠ 1) ∧
    bitOf (starting_.dev.get Ent.portEnable) 0 = true ∧ starting_.dev.portState 0 = PortSt.disabled ∧ selvageOfPort 0 = (64 - 64) / 2 ∧
    (∀ j, j < 68 → 64 ≤ j → (j - 64) / 2 = (64 - 64) / 2 → j ≠ 64 → starting_.dev.getB Ent.domainStatus j 1 = 1) ∧
    bitOf starting_.dev.boot.railLate (75 - 56) = false ∧
    bitOf (onDev starting_ fun d => { d with boot := { d.boot with railLate := 2 ^ 20 - 1 } }).dev.boot.railLate (56 - 56) = true := by
  decide +kernel
def waitingReady : State := inState St.configured (nearUp (onDev (put Ent.portEnable 3 (ring up)) fun d =>
  { d with time := { d.time with root := some d.deviceId, rootLocked := true } }))
theorem witness_ReadyIsEntered : waitingReady.dev.boot.vstby = true ∧ waitingReady.dev.devState = St.configured ∧
    waitingReady.dev.power.stackUp = true ∧ (∀ i, i < 24 → waitingReady.dev.stackStatus i = 1 ∨ waitingReady.dev.stackStatus i = 3) ∧
    (∀ i, i < 8 → bitOf (waitingReady.dev.get Ent.portEnable) i = true →
      waitingReady.dev.portState i = PortSt.up ∨ waitingReady.dev.portState i = PortSt.failed) ∧ waitingReady.dev.timeLocked = true ∧
    up.dev.devState ≠ St.configured ∧ waitingReady.dev.power.late = false ∧
    (onDev waitingReady fun d => { d with power := { d.power with late := true } }).dev.power.late = true := by decide +kernel
def railsOn : State := onDev starting_ fun d => (upTo 76).foldl (fun d k => d.putB Ent.domainStatus k 1 1) d
theorem witness_StackPowersUp : railsOn.dev.boot.vstby = true ∧ railsOn.dev.stackMayStart = true ∧ up.dev.stackMayStart = false := by
  decide +kernel
theorem witness_JtagPort : up.dev.boot.vstby = true ∧ up.dev.power.resetHeld = false ∧ JtagI.extest ≠ JtagI.other := by decide +kernel

/-! ### Coupling, scrubbing and blocks -/

def failing (l : List Nat) : State := onDev up fun d => { d with stack := { d.stack with failing := l } }
/-- A frame of no bytes with its check word, which asks for frame 9 again, and one without. -/
def frameOf (fits : Bool) : FrameF := ⟨[], if fits then BitVec.ofNat 128 (checkWord (some 9) 0 []) else 1#128⟩
/-- Both forms at the first and the last group. -/
theorem witness_FramesChecked : ∀ g ∈ [0, groupCount - 1],
    let d := (failing [g]).dev
    d.boot.vstby = true ∧ g < groupCount ∧ d.stack.heldCloses = [] ∧ d.stack.feltHeld = [] ∧ d.stack.failing = [g] ∧
    1 ∉ d.stack.failing ∧ bitOf (d.gotCheck g (frameOf true)) 47 = true ∧ d.frameMatches g (frameOf true) = true ∧
    d.frameMatches g (frameOf false) = false := by decide +kernel
def spareTaken : State := onDev up fun d => d.putB Ent.couplingMap 3 1 0x80
theorem witness_SentFramesFit : up.dev.spareFree 0 = true ∧ up.dev.spareFree (groupCount - 1) = true ∧ spareTaken.dev.spareFree 3 = false := by
  decide +kernel
def tuned (a : Int) : State := onDev up fun d => { d with stack := { d.stack with applied := [(16, a)], retiring := [(5, 7)] } }
theorem witness_SentinelsTrack : (tuned 8).dev.boot.vstby = true ∧ (tuned 8).dev.power.stackUp = true ∧ (16 : Nat) < 17 ∧
    ((-32768 : Int) ≤ -32768 ∧ (32767 : Int) < 32768) ∧ sget 0 (tuned 8).dev.stack.applied 16 < Int.tdiv 36 4 ∧
    Int.tdiv 31 4 < sget 0 (tuned 8).dev.stack.applied 16 ∧ sget 0 (tuned 8).dev.stack.applied 16 = Int.tdiv 35 4 ∧
    16 ∉ (tuned 8).dev.stack.retune ∧ sget 0 (tuned 8).dev.stack.retiring 5 ≠ 0 ∧ 5 ∉ (tuned 8).dev.stack.copied ∧
    sget 0 (tuned 8).dev.stack.retiring 6 = 0 := by decide +kernel
theorem witness_FeltScrubs : up.dev.boot.vstby = true ∧ (feltSize / 256 - 1 < feltSize / 256) ∧
    (∀ line ∈ [feltSize / 256, feltSize / 256 + 16 * 2 * 0x4000 - 1], feltSize / 256 ≤ line ∧ line < feltSize / 256 + 16 * 2 * 0x4000) ∧ up.dev.power.stackUp = true ∧
    (∀ w ∈ [0, 31], w < 32 ∧ sget false up.dev.tier.poisonWords (32 * (feltSize / 256 - 1) + w) = false) ∧
    sget 0 up.dev.tier.groupError ((feltSize / 256 - 1) / 16384) = 0 := by decide +kernel
theorem witness_BlocksChecked : (nearUp up).dev.boot.vstby = true ∧ (nearUp up).dev.blockReady (nearBase 0 / 256) = true ∧
    sget false (nearUp up).dev.tier.lostBlocks (nearBase 0 / 256) = false ∧
    (nearUp up).dev.blockReady ((nearBase 15 + 0x8F0000000) / 256) = true := by decide +kernel
theorem witness_StackStops : (nearUp up).dev.boot.vstby = true ∧ (nearUp up).dev.stackStatus 0 = 1 ∧ (nearUp up).dev.stackStatus 23 = 1 ∧
    (∀ v ∈ [St.running, St.held, St.braced, St.adopting],
      (inState v (nearUp up)).dev.inState [St.running, St.held, St.braced, St.adopting] = true) ∧
    (nearUp up).dev.inState [St.running, St.held, St.braced, St.adopting] = false ∧ up.dev.stackStatus 23 ≠ 1 := by decide +kernel

/-! ### Weave time -/

def clocking (f : TimeState → TimeState) (s : State) : State := onDev s fun d => { d with time := f d.time }
def candidate (root seq : Nat) (live : Bool) : Candidate := ⟨root, 5, 3, 0, 0, seq, live⟩
def noRoot (f : TimeState → TimeState) : State := put Ent.timeRootPriority 0 (clocking f (ring up))
theorem witness_RootIsChosen : (noRoot id).dev.boot.vstby = true ∧ (5 : Nat) ≠ 0 ∧ 2 ≠ (noRoot id).dev.deviceId ∧
    (noRoot id).dev.time.candidates = [] ∧ (noRoot id).dev.rootPriority = 0 ∧
    (noRoot fun t => { t with acquired := false }).dev.time.acquired = false ∧ (noRoot id).dev.time.root = none ∧
    (noRoot fun t => { t with candidates := [candidate 2 4 true] }).dev.time.candidates = [candidate 2 4 true] ∧
    (candidate 2 4 true).live = true ∧ 3 < (candidate 2 4 true).annSeq ∧ (candidate 2 4 true).annSeq < 5 ∧ (candidate 2 4 true).root = 2 ∧
    (noRoot fun t => { t with root := some 2, candidates := [candidate 2 4 true] }).dev.time.root = some 2 ∧
    (∀ q ∈ (noRoot fun t => { t with candidates := [candidate 2 4 false] }).dev.time.candidates, q.live = false) ∧
    (put Ent.timeRootPriority 7 up).dev.rootPriority ≠ 0 := by decide +kernel
def isRoot : State := put Ent.timeInput 7 (put Ent.timeRootPriority 7 (clocking (fun t => { t with root := some 1, rootLocked := true }) (ring up)))
def follower (f : TimeState → TimeState) : State := put Ent.timeRootPriority 0 (clocking (fun t => f { t with
  candidates := [candidate 2 4 true], root := some 2, parent := some 0, delays := [(0, [100, 50])], everReady := true }) (ring inLoaded))
theorem witness_RootSends : isRoot.dev.boot.vstby = true ∧ isRoot.dev.bestRoot.map Prod.snd = isRoot.dev.time.root ∧
    isRoot.dev.time.root = some isRoot.dev.deviceId ∧ (follower id).dev.bestRoot.map Prod.snd = (follower id).dev.time.root ∧
    (follower id).dev.time.root ≠ some (follower id).dev.deviceId := by decide +kernel
/-- How far a SYNC that left at the origin is off. -/
def offsetOf (s : State) (origin : Nat) (stamp : Nat) : Int := s.dev.ingress 0 stamp - ((origin : Int) + 0 + s.dev.linkDelay 0)
def late7 : State := follower fun t => { t with outOfRange := 7 }
/-- An offset in the range, one at its end and one beyond it. -/
theorem witness_SyncDisciplines : (follower id).dev.boot.vstby = true ∧ (follower id).dev.time.root = some 2 ∧ 2 ≠ (follower id).dev.deviceId ∧
    (follower id).dev.time.parent = some 0 ∧ (offsetOf (follower id) 65536000 65536000).natAbs ≤ 50 * 65536 ∧
    50 * 65536 < (offsetOf late7 65536000 (65536000 + 60 * 65536)).natAbs ∧ late7.dev.pat.loaded = true ∧ late7.dev.time.everReady = true ∧
    late7.dev.frozen = false ∧ late7.dev.time.acquired = true ∧ late7.dev.time.outOfRange = 7 ∧
    (follower id).dev.time.root ≠ some (follower id).dev.deviceId ∧ (follower id).dev.time.parent.isSome = true ∧
    (follower id).dev.time.holdover = false ∧ isRoot.dev.time.root = some isRoot.dev.deviceId := by decide +kernel
def onePort : State := onDev (ring up) fun d => d.setPortState 1 PortSt.failed
theorem witness_DelaysMeasured : onePort.dev.boot.vstby = true ∧ (∀ q, q < 8 → (onePort.dev.portUp q = true ↔ q = 0)) ∧
    sget none onePort.dev.time.delayReqs 7 = none ∧
    sget none (clocking (fun t => { t with delayReqs := [(0, some (1, 3))] }) onePort).dev.time.delayReqs 0 = some (1, 3) := by decide +kernel
/-- An edge at the second, at a microsecond from it and past that. -/
theorem witness_PulsesPerSecond : isRoot.dev.boot.vstby = true ∧ isRoot.dev.time.root = some isRoot.dev.deviceId ∧ isRoot.dev.ppsEn = true ∧
    isRoot.dev.time.setPending = none ∧
    (∀ q ∈ [(clockSecond, true), (clockSecond + 1000 * 65536, true), (clockSecond + 1000 * 65536 + 1, false)],
      decide ((nearestSeconds ((q.1 : Int) - psUnits (signExt 32 (isRoot.dev.get Ent.ppsInDelayPs)))).2.natAbs ≤ 1000 * 65536) = q.2) ∧
    (clocking (fun t => { t with ppsSeen := true, ppsLive := true }) isRoot).dev.time.ppsSeen = true ∧
    (clocking (fun t => { t with ppsLive := true }) isRoot).dev.time.ppsLive = true ∧ isRoot.dev.time.ppsLive = false ∧
    isRoot.dev.time.ppsSeen = false ∧ isRoot.dev.time.acquired = true ∧ (follower id).dev.time.root ≠ some (follower id).dev.deviceId := by
  decide +kernel
def ptpMessage (typ domain : Nat) (rest : List Byte) : List Byte := beBytes 1 typ ++ beBytes 1 2 ++ beBytes 2 44 ++ beBytes 1 domain ++
  beBytes 15 0 ++ (upTo 10).map (fun i => BitVec.ofNat 8 (i + 1)) ++ beBytes 2 77 ++ beBytes 2 0 ++ rest
def serves (v : Nat) : State := put Ent.ptpConfig v isRoot
def field (m : List Byte) (k n : Nat) : Nat := beNat ((m.drop k).take n)
def better : List Byte := ptpMessage 11 3 (List.replicate 30 0#8)
theorem witness_PtpAnswers : (serves 0x301).dev.boot.vstby = true ∧ (serves 0).dev.getB Ent.ptpConfig 0 1 % 2 = 0 ∧
    (serves 0x301).dev.getB Ent.ptpConfig 0 1 % 2 = 1 ∧
    (∀ q ∈ [(ptpMessage 1 3 (List.replicate 10 0#8), 1), (better, 11)], 34 ≤ q.1.length ∧ field q.1 1 1 % 16 = 2 ∧
      field q.1 4 1 = (serves 0x301).dev.getB Ent.ptpConfig 1 1 ∧ field q.1 0 1 % 16 = q.2) ∧
    (serves 0x301).dev.time.ptpPassive = false ∧ 64 ≤ better.length ∧ 0 ≤ (serves 0x301).dev.time.clock ∧
    lexLess [field better 47 1, field better 48 1, field better 49 1, field better 50 2, field better 52 1, field better 53 8]
      (serves 0x301).dev.ptpOwnSet = true := by decide +kernel

/-! ### Tally -/

def dumping (beat : Nat) (f : TallyState → TallyState) (pause : Bool) : State := put Ent.dumpBeats 4 (put Ent.dumpBase (nearBase 0)
  (put Ent.dumpRecords 2 (put Ent.logicalBeat beat (onDev (nearUp up) fun d =>
    { d with tally := f d.tally, contract := { d.contract with inPause := pause } }))))
def record3 : DumpRec := ⟨3, 8, 77, 5, 99, false, [(3, 5)]⟩
theorem witness_DumpsAreTaken : (dumping 8 id false).dev.boot.vstby = true ∧ (dumping 8 id false).dev.get Ent.dumpBeats ≠ 0 ∧
    (dumping 8 id false).dev.get Ent.dumpBase ≠ 0 ∧ (dumping 8 id false).dev.get Ent.logicalBeat % (dumping 8 id false).dev.get Ent.dumpBeats = 0 ∧
    (dumping 8 id false).dev.tally.latchedAt ≠ (dumping 8 id false).dev.get Ent.logicalBeat + 1 ∧ (dumping 8 id false).dev.tally.dump = none ∧
    (dumping 8 (fun t => { t with dump := some record3 }) false).dev.tally.dump = some record3 ∧
    (let d := (dumping 8 (fun t => { t with dump := some record3 }) false).dev
     d.partialLost (d.get Ent.dumpBase + 18432 * ((record3.seq - 1) % d.get Ent.dumpRecords)) (d.dumpBytes record3).length = false) ∧
    (dumping 9 id false).dev.get Ent.logicalBeat % (dumping 9 id false).dev.get Ent.dumpBeats ≠ 0 ∧
    (put Ent.dumpBeats 0 up).dev.get Ent.dumpBeats = 0 ∧ (dumping 8 id false).dev.contract.inPause = false ∧ (dumping 8 id true).dev.contract.inPause = true := by
  decide +kernel
def openSample : SampleOpen := ⟨12, 5, [none, some 41, none, none], List.replicate 48 3#8⟩
def sampling (write : Nat) : State := put Ent.sampleBase (nearBase 1) (put Ent.sampleRecords 64 (onDev (nearUp up) fun d =>
  { d with tally := { d.tally with sampleWrite := write, sampleRead := 10, opened := [openSample] } }))
/-- A vector result that the sampled bundle issued is still to land. -/
def landsLater : State := onDev (sampling 73) fun d => { d with
  islands := [(1, { Island.reset with agenda := [⟨44, 0, 12, 5, 1, .vreg 12 3 (List.replicate 64 0#32)⟩] })] }
def lostSlot : State := onDev (sampling 73) fun d => { d with tier := { d.tier with lostBlocks := [((nearBase 1 + 64 * 9) / 256, true)] } }
/-- The ring with one record free and with none, and a lost block where the record goes. -/
theorem witness_SamplesAreStored : (sampling 73).dev.boot.vstby = true ∧
    (∀ s ∈ [sampling 73, lostSlot], s.dev.tally.opened.find? (fun o => o.panel == 12) = some openSample ∧ s.dev.sampleKnown openSample = true ∧ s.dev.tally.buffered = [] ∧
      s.dev.contract.inPause = false ∧ 73 - s.dev.tally.sampleRead < s.dev.get Ent.sampleRecords) ∧
    (let at_ := nearBase 1 + 64 * (73 % 64)
     let record := openSample.record ++ leBytes 4 73 ++ leBytes 12 0
     (sampling 73).dev.get Ent.sampleBase = nearBase 1 ∧ (sampling 73).dev.partialLost at_ record.length = false ∧
     lostSlot.dev.lostIn at_ record.length = [at_ / 256] ∧ at_ % 256 + record.length < 256) ∧
    (sampling 74).dev.get Ent.sampleRecords ≤ 74 - (sampling 74).dev.tally.sampleRead ∧
    landsLater.dev.tally.opened.find? (fun o => o.panel == 12) = some openSample ∧ landsLater.dev.sampleKnown openSample = false ∧
    openSample.record.length = 48 ∧ (∀ o ∈ (sampling 73).dev.tally.opened, o.panel ≠ 13) := by decide +kernel
def counted : State := onDev up fun d => { d with tally := { d.tally with counters := [(3, 5), (0x402, 7)] } }
theorem witness_ShadowsRefresh : counted.dev.boot.vstby = true ∧ tallyGroup 3 = some 0 ∧ tallyGroup 0x402 ≠ some 0 ∧
    swf 0 counted.dev.tally.counters = true ∧ (∀ x ∈ counted.dev.tally.counters, x.1 < 4096) := by decide +kernel

/-! ### Well-formed commands -/

def wellFormed0 : List Instr := [
  .bundleIssue 127 ⟨.none, .none, .none, .none⟩, .mmTile ⟨127, 0⟩ 63 4294967295, .mmZero ⟨127, 0⟩ 63,
  .mmLoad ⟨127, 0⟩ 15 3 63 .none, .mmLoadTurn ⟨127, 0⟩ 15 3 63 .none, .mmLoadAcc ⟨127, 0⟩ 63 63 2047 2048 .none,
  .mmLoadComplete ⟨127, 0⟩, .mmSwap ⟨127, 0⟩, .mmStreamAdd ⟨127, 0⟩ ⟨63, 4095, 4096, 3, 15, 63⟩ 3 false 3 0,
  .mmStreamMax ⟨127, 0⟩ ⟨63, 1023, 1024, 3, 15, 15⟩ 0 false 0 65535,
  .mmStreamMin ⟨127, 0⟩ ⟨63, 1023, 1024, 3, 15, 15⟩ 0 false 0 65535, .streamRowEntry ⟨127, 0⟩ .none,
  .mmDrain ⟨127, 0⟩ ⟨63, 4095, 4096, 64, 15, 3, false, false, 63⟩ .none,
  .mmDrainWb ⟨127, 0⟩ ⟨63, 2032, 2048, 64, false, 63, 65535, false, 3⟩ .none, .vuAdd ⟨127, 0⟩ 31 (.reg 31) (.reg 31),
  .vuSub ⟨127, 0⟩ 31 (.reg 31) (.reg 31), .vuMul ⟨127, 0⟩ 31 (.reg 31) (.reg 31), .vuMax ⟨127, 0⟩ 31 (.reg 31) (.reg 31),
  .vuMin ⟨127, 0⟩ 31 (.reg 31) (.reg 31), .vuFma ⟨127, 0⟩ 31 (.reg 31) (.reg 31) (.reg 31), .vuAbs ⟨127, 0⟩ 31 (.reg 31),
  .vuNeg ⟨127, 0⟩ 31 (.reg 31), .vuMov ⟨127, 0⟩ 31 (.reg 31), .vuCvt ⟨127, 0⟩ 31 (.reg 31) 15 3,
  .vuExp ⟨127, 0⟩ 31 (.reg 31), .vuLog ⟨127, 0⟩ 31 (.reg 31), .vuRecip ⟨127, 0⟩ 31 (.reg 31), .vuRsqrt ⟨127, 0⟩ 31 (.reg 31),
  .vuGelut ⟨127, 0⟩ 31 (.reg 31), .vuGelue ⟨127, 0⟩ 31 (.reg 31), .vuSilu ⟨127, 0⟩ 31 (.reg 31),
  .vuDgelut ⟨127, 0⟩ 31 (.reg 31) (.reg 31), .vuDgelue ⟨127, 0⟩ 31 (.reg 31) (.reg 31),
  .vuDsilu ⟨127, 0⟩ 31 (.reg 31) (.reg 31), .vuDrop ⟨127, 0⟩ 31 (.reg 31) (.reg 31) (.reg 31) 1023,
  .vuEset ⟨127, 0⟩ 63 4294967295, .vuLd ⟨127, 0⟩ 31 63 4095 15 .none, .vuSt ⟨⟨127, 0⟩, .none⟩ 31 63 4095 15,
  .reGo ⟨127, 0⟩ 2047 63 65535, .xMove ⟨⟨127, 0⟩, .none⟩ ⟨63, 63, 4096, 256, some 511⟩]
def wellFormed1 : List Instr := [
  .xTurn ⟨⟨127, 0⟩, .none⟩ 63 63 15 (some 511), .xBcast ⟨⟨127, 0⟩, .none⟩ 1 63 2048 15, .sPostToken ⟨127, 0⟩ 15 511 255,
  .sPostStash ⟨127, 0⟩ 3 255 255, .sWait ⟨127, 0⟩ ⟨511, 255, 3, 65535⟩, .sWaitSatisfied ⟨⟨127, 0⟩, .none, .none, .none⟩,
  .sLoop ⟨127, 0⟩ 3 8191 65535, .sBeat ⟨127, 0⟩ false 1 511 4294967295, .sFence ⟨127, 0⟩ 15, .sTally ⟨127, 0⟩ 4095 63 4095,
  .sHalt ⟨127, 0⟩ 65535, .tokenCrossing 15 0, .offTreeToken 15 0, .tokenWaitTimeout ⟨127, 0⟩, .beatAlarmFire ⟨127, 0⟩ 1,
  .reRequestStart 15 0, .reLnFwd 15 0 .none, .reLnBwd 15 0 .none, .reRmsFwd 15 0 .none, .reRmsBwd 15 0 .none,
  .reSmaxFwd 15 0 .none, .reSmaxBlk 15 0 .none, .reSmaxFin 15 0 .none, .reSmaxBwd 15 0 .none, .reRowdot 15 0 .none,
  .reXentStat 15 0 .none, .reXentGrad 15 0 .none, .reWmax 15 0 .none, .reTopk 15 0 .none, .wbContributionRow 143 0,
  .wbEarlyRowApply 511 0, .wbSenderStallLimit 143 0, .stashClaimGrant 3, .shuttleBodyStart 27, .descriptorStart ⟨27, .none⟩,
  .streamCreditTake 27, .shuttlePosition ⟨27, .none⟩, .descriptorComplete 27 0, .flitReceive 7 (List.replicate 256 0#8) 0 0,
  .ackTimeoutResend 7]
def wellFormed2 : List Instr := [
  .linkFlit 7 ⟨[], 65535, 255, 255, 255, 255, 255, 255, 0⟩, .portTrained 7, .portTrainingTimeout 7, .linkLoss 7,
  .portRetrain 7, .getRsp 65535 65535 (List.replicate 1024 0#8), .mcast 7 65535 ⟨0, 0, 0, false, 0, 0, 0, 0, 0, 0, []⟩,
  .completion 7 65535 65535 255 65535, .requestTimeout 65535, .releaseWordWrite 63 65535,
  .loomUpdateWrite 27 (List.replicate 32 0#8), .reduceData ⟨0, 0, 0, 0, 0, 0, false, 0⟩ 4294967295 0 [],
  .roundDeadline 65535 255, .leafClose 65535 255 4294967295, .fpOpen 255, .fpCheck 255, .voteUp 65535 [],
  .replicaVoid 4294967295, .reduceReplay 65535 4294967295, .burnisherRunStart 7, .burnisherChunkCommit 7,
  .burnisherRunComplete 7, .mirrorHello 65535 255 255 65535, .helloAck 255, .voteQuery 65535,
  .voteReply 4294967295 4294967295 4294967295, .holdRelease .host 65535, .stickyClear .host 255,
  .panelUnfence .host 255 (env none), .stepRebase .host 4294967295, .runStartStep .host 4294967295,
  .tallyClear .host 4294967295, .faultLogClear .host 255, .faultNClear .host 255,
  .flashData .host (List.replicate 4096 0#8) (env none), .flashErase .host 4294967295 (env none),
  .mgmtKey .host (List.replicate 32 0#8) (env none), .rollbackAdvance .host 255, .keyRevoke .host 255,
  .timeSetS .host 18446744073709551615]
def wellFormed3 : List Instr := [
  .ownerWrite .host 255, .tackWrite .host 16777215 false 4294967295 (List.replicate 2 0#8) 4294967295 (env none),
  .dictRead .host 16777215 65535 4294967295 4294967295, .dictNext .host 16777215 4294967295, .mbDoorbell 4294967295 [],
  .eventCauseClear 4294967295, .bridleFrame (List.replicate 2 0#8) false [], .hostBar2Access ⟨.read 0 1, .none⟩,
  .sampleReadWrite 18446744073709551615, .lqTailDoorbell 4294967295, .loadEntry (List.replicate 32 0#8) ⟨[], .done⟩,
  .warnCondition false 65535, .clearCondition 65535, .stowNowCrossing 65535, .resetCrossing 65535, .vbulkOvervoltage 65535,
  .hold 7 5 65535 4294967295 18446744073709551615, .release 7 65535 4294967295 18446744073709551615 65535,
  .stowNotice 7 65535 4294967295, .holdQuery 65535 4294967295, .holdReply 65535 false 18446744073709551615,
  .powerOnReset ⟨255, true, true, true, 65536, 2, 200, true⟩, .resetNAssert 255, .railGood 75 [23], .railWaitTimeout 75,
  .domainLoss 55, .peripheryDomainLoss 75, .coilLockLoss 16, .frameCheckFail ⟨0, List.replicate 256 0#8, 0⟩,
  .sentinelTrack 16 0, .bankGroupCopyDone 511, .thermalControl (List.replicate 41 0) [15], .thermalTrip 40,
  .feltScrub 8912895 [31] [(31, 0)], .stackNotResponding 23,
  .timeAnnounce 7 255 65535 255 65535 false 4294967295 18446744073709551615 18446744073709551615, .candidateExpiry 65535,
  .timeSync 7 65535 4294967295 0 0 0 0 false, .delayReq 7 4294967295 0 0, .delayResp 7 4294967295 0 0 0 false]
def wellFormed4 : List Instr := [
  .sampleComplete 127, .counterShadowRefresh 30, .mbRequestWrite 65535 [], .lqRingConfigWrite 4095 4294967295,
  .flitTransmit 7, .frameCheckPass ⟨0, List.replicate 256 0#8, 0⟩]
/-- Each operand at the largest value its field has. -/
theorem test_wf_accepts : (wellFormed0 ++ wellFormed1 ++ wellFormed2 ++ wellFormed3 ++ wellFormed4).all Instr.wf = true := by decide +kernel
def illFormed0 : List Instr := [
  .bundleIssue 128 ⟨.none, .none, .none, .none⟩, .mmTile ⟨128, 0⟩ 63 4294967295, .mmTile ⟨127, 0⟩ 64 4294967295,
  .mmTile ⟨127, 0⟩ 63 (2 ^ 32), .mmZero ⟨128, 0⟩ 63, .mmZero ⟨127, 0⟩ 64, .mmLoad ⟨128, 0⟩ 15 3 63 .none,
  .mmLoad ⟨127, 0⟩ 16 3 63 .none, .mmLoad ⟨127, 0⟩ 15 4 63 .none, .mmLoad ⟨127, 0⟩ 15 3 64 .none,
  .mmLoadTurn ⟨128, 0⟩ 15 3 63 .none, .mmLoadTurn ⟨127, 0⟩ 16 3 63 .none, .mmLoadTurn ⟨127, 0⟩ 15 4 63 .none,
  .mmLoadTurn ⟨127, 0⟩ 15 3 64 .none, .mmLoadAcc ⟨128, 0⟩ 63 63 2047 2048 .none, .mmLoadAcc ⟨127, 0⟩ 64 63 2047 2048 .none,
  .mmLoadAcc ⟨127, 0⟩ 63 64 2047 2048 .none, .mmLoadAcc ⟨127, 0⟩ 63 63 2048 2048 .none,
  .mmLoadAcc ⟨127, 0⟩ 63 63 2047 2049 .none, .mmLoadAcc ⟨127, 0⟩ 63 63 2047 0 .none, .mmLoadComplete ⟨128, 0⟩,
  .mmSwap ⟨128, 0⟩, .mmStreamAdd ⟨128, 0⟩ ⟨63, 4095, 4096, 3, 15, 63⟩ 3 false 3 0,
  .mmStreamAdd ⟨127, 0⟩ ⟨64, 4095, 4096, 3, 15, 63⟩ 3 false 3 0,
  .mmStreamAdd ⟨127, 0⟩ ⟨63, 4096, 4096, 3, 15, 63⟩ 3 false 3 0,
  .mmStreamAdd ⟨127, 0⟩ ⟨63, 4095, 4097, 3, 15, 63⟩ 3 false 3 0, .mmStreamAdd ⟨127, 0⟩ ⟨63, 4095, 0, 3, 15, 63⟩ 3 false 3 0,
  .mmStreamAdd ⟨127, 0⟩ ⟨63, 4095, 4096, 4, 15, 63⟩ 3 false 3 0,
  .mmStreamAdd ⟨127, 0⟩ ⟨63, 4095, 4096, 3, 16, 63⟩ 3 false 3 0,
  .mmStreamAdd ⟨127, 0⟩ ⟨63, 4095, 4096, 3, 15, 64⟩ 3 false 3 0,
  .mmStreamAdd ⟨127, 0⟩ ⟨63, 4095, 4096, 3, 15, 63⟩ 4 false 3 0,
  .mmStreamAdd ⟨127, 0⟩ ⟨63, 4095, 4096, 3, 15, 63⟩ 3 false 4 0,
  .mmStreamMax ⟨128, 0⟩ ⟨63, 1023, 1024, 3, 15, 15⟩ 0 false 0 65535,
  .mmStreamMax ⟨127, 0⟩ ⟨64, 1023, 1024, 3, 15, 15⟩ 0 false 0 65535,
  .mmStreamMax ⟨127, 0⟩ ⟨63, 1024, 1024, 3, 15, 15⟩ 0 false 0 65535,
  .mmStreamMax ⟨127, 0⟩ ⟨63, 1023, 1025, 3, 15, 15⟩ 0 false 0 65535,
  .mmStreamMax ⟨127, 0⟩ ⟨63, 1023, 0, 3, 15, 15⟩ 0 false 0 65535,
  .mmStreamMax ⟨127, 0⟩ ⟨63, 1023, 1024, 4, 15, 15⟩ 0 false 0 65535,
  .mmStreamMax ⟨127, 0⟩ ⟨63, 1023, 1024, 3, 16, 15⟩ 0 false 0 65535,
  .mmStreamMax ⟨127, 0⟩ ⟨63, 1023, 1024, 3, 15, 16⟩ 0 false 0 65535]
def illFormed1 : List Instr := [
  .mmStreamMax ⟨127, 0⟩ ⟨63, 1023, 1024, 3, 15, 15⟩ 1 false 0 65535,
  .mmStreamMax ⟨127, 0⟩ ⟨63, 1023, 1024, 3, 15, 15⟩ 0 true 0 65535,
  .mmStreamMax ⟨127, 0⟩ ⟨63, 1023, 1024, 3, 15, 15⟩ 0 false 1 65535,
  .mmStreamMax ⟨127, 0⟩ ⟨63, 1023, 1024, 3, 15, 15⟩ 0 false 0 65536,
  .mmStreamMin ⟨128, 0⟩ ⟨63, 1023, 1024, 3, 15, 15⟩ 0 false 0 65535,
  .mmStreamMin ⟨127, 0⟩ ⟨64, 1023, 1024, 3, 15, 15⟩ 0 false 0 65535,
  .mmStreamMin ⟨127, 0⟩ ⟨63, 1024, 1024, 3, 15, 15⟩ 0 false 0 65535,
  .mmStreamMin ⟨127, 0⟩ ⟨63, 1023, 1025, 3, 15, 15⟩ 0 false 0 65535,
  .mmStreamMin ⟨127, 0⟩ ⟨63, 1023, 0, 3, 15, 15⟩ 0 false 0 65535,
  .mmStreamMin ⟨127, 0⟩ ⟨63, 1023, 1024, 4, 15, 15⟩ 0 false 0 65535,
  .mmStreamMin ⟨127, 0⟩ ⟨63, 1023, 1024, 3, 16, 15⟩ 0 false 0 65535,
  .mmStreamMin ⟨127, 0⟩ ⟨63, 1023, 1024, 3, 15, 16⟩ 0 false 0 65535,
  .mmStreamMin ⟨127, 0⟩ ⟨63, 1023, 1024, 3, 15, 15⟩ 1 false 0 65535,
  .mmStreamMin ⟨127, 0⟩ ⟨63, 1023, 1024, 3, 15, 15⟩ 0 true 0 65535,
  .mmStreamMin ⟨127, 0⟩ ⟨63, 1023, 1024, 3, 15, 15⟩ 0 false 1 65535,
  .mmStreamMin ⟨127, 0⟩ ⟨63, 1023, 1024, 3, 15, 15⟩ 0 false 0 65536, .streamRowEntry ⟨128, 0⟩ .none,
  .mmDrain ⟨128, 0⟩ ⟨63, 4095, 4096, 64, 15, 3, false, false, 63⟩ .none,
  .mmDrain ⟨127, 0⟩ ⟨64, 4095, 4096, 64, 15, 3, false, false, 63⟩ .none,
  .mmDrain ⟨127, 0⟩ ⟨63, 4096, 4096, 64, 15, 3, false, false, 63⟩ .none,
  .mmDrain ⟨127, 0⟩ ⟨63, 4095, 4097, 64, 15, 3, false, false, 63⟩ .none,
  .mmDrain ⟨127, 0⟩ ⟨63, 4095, 0, 64, 15, 3, false, false, 63⟩ .none,
  .mmDrain ⟨127, 0⟩ ⟨63, 4095, 4096, 65, 15, 3, false, false, 63⟩ .none,
  .mmDrain ⟨127, 0⟩ ⟨63, 4095, 4096, 0, 15, 3, false, false, 63⟩ .none,
  .mmDrain ⟨127, 0⟩ ⟨63, 4095, 4096, 64, 16, 3, false, false, 63⟩ .none,
  .mmDrain ⟨127, 0⟩ ⟨63, 4095, 4096, 64, 15, 4, false, false, 63⟩ .none,
  .mmDrain ⟨127, 0⟩ ⟨63, 4095, 4096, 64, 15, 3, false, false, 64⟩ .none,
  .mmDrainWb ⟨128, 0⟩ ⟨63, 2032, 2048, 64, false, 63, 65535, false, 3⟩ .none,
  .mmDrainWb ⟨127, 0⟩ ⟨64, 2032, 2048, 64, false, 63, 65535, false, 3⟩ .none,
  .mmDrainWb ⟨127, 0⟩ ⟨63, 2048, 2048, 64, false, 63, 65535, false, 3⟩ .none,
  .mmDrainWb ⟨127, 0⟩ ⟨63, 17, 2048, 64, false, 63, 65535, false, 3⟩ .none,
  .mmDrainWb ⟨127, 0⟩ ⟨63, 2032, 2049, 64, false, 63, 65535, false, 3⟩ .none,
  .mmDrainWb ⟨127, 0⟩ ⟨63, 2032, 15, 64, false, 63, 65535, false, 3⟩ .none,
  .mmDrainWb ⟨127, 0⟩ ⟨63, 2032, 17, 64, false, 63, 65535, false, 3⟩ .none,
  .mmDrainWb ⟨127, 0⟩ ⟨63, 2032, 2048, 65, false, 63, 65535, false, 3⟩ .none,
  .mmDrainWb ⟨127, 0⟩ ⟨63, 2032, 2048, 0, false, 63, 65535, false, 3⟩ .none,
  .mmDrainWb ⟨127, 0⟩ ⟨63, 2032, 2048, 64, false, 64, 65535, false, 3⟩ .none,
  .mmDrainWb ⟨127, 0⟩ ⟨63, 2032, 2048, 64, false, 63, 65536, false, 3⟩ .none,
  .mmDrainWb ⟨127, 0⟩ ⟨63, 2032, 2048, 64, false, 63, 65535, false, 4⟩ .none, .vuAdd ⟨128, 0⟩ 31 (.reg 31) (.reg 31)]
def illFormed2 : List Instr := [
  .vuAdd ⟨127, 0⟩ 32 (.reg 31) (.reg 31), .vuAdd ⟨127, 0⟩ 31 (.reg 32) (.reg 31), .vuAdd ⟨127, 0⟩ 31 (.const 16) (.reg 31),
  .vuAdd ⟨127, 0⟩ 31 (.reg 31) (.reg 32), .vuAdd ⟨127, 0⟩ 31 (.reg 31) (.const 16), .vuSub ⟨128, 0⟩ 31 (.reg 31) (.reg 31),
  .vuSub ⟨127, 0⟩ 32 (.reg 31) (.reg 31), .vuSub ⟨127, 0⟩ 31 (.reg 32) (.reg 31), .vuSub ⟨127, 0⟩ 31 (.const 16) (.reg 31),
  .vuSub ⟨127, 0⟩ 31 (.reg 31) (.reg 32), .vuSub ⟨127, 0⟩ 31 (.reg 31) (.const 16), .vuMul ⟨128, 0⟩ 31 (.reg 31) (.reg 31),
  .vuMul ⟨127, 0⟩ 32 (.reg 31) (.reg 31), .vuMul ⟨127, 0⟩ 31 (.reg 32) (.reg 31), .vuMul ⟨127, 0⟩ 31 (.const 16) (.reg 31),
  .vuMul ⟨127, 0⟩ 31 (.reg 31) (.reg 32), .vuMul ⟨127, 0⟩ 31 (.reg 31) (.const 16), .vuMax ⟨128, 0⟩ 31 (.reg 31) (.reg 31),
  .vuMax ⟨127, 0⟩ 32 (.reg 31) (.reg 31), .vuMax ⟨127, 0⟩ 31 (.reg 32) (.reg 31), .vuMax ⟨127, 0⟩ 31 (.const 16) (.reg 31),
  .vuMax ⟨127, 0⟩ 31 (.reg 31) (.reg 32), .vuMax ⟨127, 0⟩ 31 (.reg 31) (.const 16), .vuMin ⟨128, 0⟩ 31 (.reg 31) (.reg 31),
  .vuMin ⟨127, 0⟩ 32 (.reg 31) (.reg 31), .vuMin ⟨127, 0⟩ 31 (.reg 32) (.reg 31), .vuMin ⟨127, 0⟩ 31 (.const 16) (.reg 31),
  .vuMin ⟨127, 0⟩ 31 (.reg 31) (.reg 32), .vuMin ⟨127, 0⟩ 31 (.reg 31) (.const 16),
  .vuFma ⟨128, 0⟩ 31 (.reg 31) (.reg 31) (.reg 31), .vuFma ⟨127, 0⟩ 32 (.reg 31) (.reg 31) (.reg 31),
  .vuFma ⟨127, 0⟩ 31 (.reg 32) (.reg 31) (.reg 31), .vuFma ⟨127, 0⟩ 31 (.const 16) (.reg 31) (.reg 31),
  .vuFma ⟨127, 0⟩ 31 (.reg 31) (.reg 32) (.reg 31), .vuFma ⟨127, 0⟩ 31 (.reg 31) (.const 16) (.reg 31),
  .vuFma ⟨127, 0⟩ 31 (.reg 31) (.reg 31) (.reg 32), .vuFma ⟨127, 0⟩ 31 (.reg 31) (.reg 31) (.const 16),
  .vuAbs ⟨128, 0⟩ 31 (.reg 31), .vuAbs ⟨127, 0⟩ 32 (.reg 31), .vuAbs ⟨127, 0⟩ 31 (.reg 32)]
def illFormed3 : List Instr := [
  .vuAbs ⟨127, 0⟩ 31 (.const 16), .vuNeg ⟨128, 0⟩ 31 (.reg 31), .vuNeg ⟨127, 0⟩ 32 (.reg 31), .vuNeg ⟨127, 0⟩ 31 (.reg 32),
  .vuNeg ⟨127, 0⟩ 31 (.const 16), .vuMov ⟨128, 0⟩ 31 (.reg 31), .vuMov ⟨127, 0⟩ 32 (.reg 31), .vuMov ⟨127, 0⟩ 31 (.reg 32),
  .vuMov ⟨127, 0⟩ 31 (.const 16), .vuCvt ⟨128, 0⟩ 31 (.reg 31) 15 3, .vuCvt ⟨127, 0⟩ 32 (.reg 31) 15 3,
  .vuCvt ⟨127, 0⟩ 31 (.reg 32) 15 3, .vuCvt ⟨127, 0⟩ 31 (.const 16) 15 3, .vuCvt ⟨127, 0⟩ 31 (.reg 31) 16 3,
  .vuCvt ⟨127, 0⟩ 31 (.reg 31) 15 4, .vuExp ⟨128, 0⟩ 31 (.reg 31), .vuExp ⟨127, 0⟩ 32 (.reg 31),
  .vuExp ⟨127, 0⟩ 31 (.reg 32), .vuExp ⟨127, 0⟩ 31 (.const 16), .vuLog ⟨128, 0⟩ 31 (.reg 31), .vuLog ⟨127, 0⟩ 32 (.reg 31),
  .vuLog ⟨127, 0⟩ 31 (.reg 32), .vuLog ⟨127, 0⟩ 31 (.const 16), .vuRecip ⟨128, 0⟩ 31 (.reg 31),
  .vuRecip ⟨127, 0⟩ 32 (.reg 31), .vuRecip ⟨127, 0⟩ 31 (.reg 32), .vuRecip ⟨127, 0⟩ 31 (.const 16),
  .vuRsqrt ⟨128, 0⟩ 31 (.reg 31), .vuRsqrt ⟨127, 0⟩ 32 (.reg 31), .vuRsqrt ⟨127, 0⟩ 31 (.reg 32),
  .vuRsqrt ⟨127, 0⟩ 31 (.const 16), .vuGelut ⟨128, 0⟩ 31 (.reg 31), .vuGelut ⟨127, 0⟩ 32 (.reg 31),
  .vuGelut ⟨127, 0⟩ 31 (.reg 32), .vuGelut ⟨127, 0⟩ 31 (.const 16), .vuGelue ⟨128, 0⟩ 31 (.reg 31),
  .vuGelue ⟨127, 0⟩ 32 (.reg 31), .vuGelue ⟨127, 0⟩ 31 (.reg 32), .vuGelue ⟨127, 0⟩ 31 (.const 16),
  .vuSilu ⟨128, 0⟩ 31 (.reg 31)]
def illFormed4 : List Instr := [
  .vuSilu ⟨127, 0⟩ 32 (.reg 31), .vuSilu ⟨127, 0⟩ 31 (.reg 32), .vuSilu ⟨127, 0⟩ 31 (.const 16),
  .vuDgelut ⟨128, 0⟩ 31 (.reg 31) (.reg 31), .vuDgelut ⟨127, 0⟩ 32 (.reg 31) (.reg 31),
  .vuDgelut ⟨127, 0⟩ 31 (.reg 32) (.reg 31), .vuDgelut ⟨127, 0⟩ 31 (.const 16) (.reg 31),
  .vuDgelut ⟨127, 0⟩ 31 (.reg 31) (.reg 32), .vuDgelut ⟨127, 0⟩ 31 (.reg 31) (.const 16),
  .vuDgelue ⟨128, 0⟩ 31 (.reg 31) (.reg 31), .vuDgelue ⟨127, 0⟩ 32 (.reg 31) (.reg 31),
  .vuDgelue ⟨127, 0⟩ 31 (.reg 32) (.reg 31), .vuDgelue ⟨127, 0⟩ 31 (.const 16) (.reg 31),
  .vuDgelue ⟨127, 0⟩ 31 (.reg 31) (.reg 32), .vuDgelue ⟨127, 0⟩ 31 (.reg 31) (.const 16),
  .vuDsilu ⟨128, 0⟩ 31 (.reg 31) (.reg 31), .vuDsilu ⟨127, 0⟩ 32 (.reg 31) (.reg 31),
  .vuDsilu ⟨127, 0⟩ 31 (.reg 32) (.reg 31), .vuDsilu ⟨127, 0⟩ 31 (.const 16) (.reg 31),
  .vuDsilu ⟨127, 0⟩ 31 (.reg 31) (.reg 32), .vuDsilu ⟨127, 0⟩ 31 (.reg 31) (.const 16),
  .vuDrop ⟨128, 0⟩ 31 (.reg 31) (.reg 31) (.reg 31) 1023, .vuDrop ⟨127, 0⟩ 32 (.reg 31) (.reg 31) (.reg 31) 1023,
  .vuDrop ⟨127, 0⟩ 31 (.reg 32) (.reg 31) (.reg 31) 1023, .vuDrop ⟨127, 0⟩ 31 (.const 16) (.reg 31) (.reg 31) 1023,
  .vuDrop ⟨127, 0⟩ 31 (.reg 31) (.reg 32) (.reg 31) 1023, .vuDrop ⟨127, 0⟩ 31 (.reg 31) (.const 16) (.reg 31) 1023,
  .vuDrop ⟨127, 0⟩ 31 (.reg 31) (.reg 31) (.reg 32) 1023, .vuDrop ⟨127, 0⟩ 31 (.reg 31) (.reg 31) (.const 16) 1023,
  .vuDrop ⟨127, 0⟩ 31 (.reg 31) (.reg 31) (.reg 31) 1024, .vuEset ⟨128, 0⟩ 63 4294967295, .vuEset ⟨127, 0⟩ 64 4294967295,
  .vuEset ⟨127, 0⟩ 63 (2 ^ 32), .vuLd ⟨128, 0⟩ 31 63 4095 15 .none, .vuLd ⟨127, 0⟩ 32 63 4095 15 .none,
  .vuLd ⟨127, 0⟩ 31 64 4095 15 .none, .vuLd ⟨127, 0⟩ 31 63 4096 15 .none, .vuLd ⟨127, 0⟩ 31 63 4095 16 .none,
  .vuSt ⟨⟨128, 0⟩, .none⟩ 31 63 4095 15, .vuSt ⟨⟨127, 0⟩, .none⟩ 32 63 4095 15]
def illFormed5 : List Instr := [
  .vuSt ⟨⟨127, 0⟩, .none⟩ 31 64 4095 15, .vuSt ⟨⟨127, 0⟩, .none⟩ 31 63 4096 15, .vuSt ⟨⟨127, 0⟩, .none⟩ 31 63 4095 16,
  .reGo ⟨128, 0⟩ 2047 63 65535, .reGo ⟨127, 0⟩ 2048 63 65535, .reGo ⟨127, 0⟩ 2047 64 65535, .reGo ⟨127, 0⟩ 2047 63 65536,
  .xMove ⟨⟨128, 0⟩, .none⟩ ⟨63, 63, 4096, 256, some 511⟩, .xMove ⟨⟨127, 0⟩, .none⟩ ⟨64, 63, 4096, 256, some 511⟩,
  .xMove ⟨⟨127, 0⟩, .none⟩ ⟨63, 64, 4096, 256, some 511⟩, .xMove ⟨⟨127, 0⟩, .none⟩ ⟨63, 63, 4097, 256, some 511⟩,
  .xMove ⟨⟨127, 0⟩, .none⟩ ⟨63, 63, 0, 256, some 511⟩, .xMove ⟨⟨127, 0⟩, .none⟩ ⟨63, 63, 4096, 257, some 511⟩,
  .xMove ⟨⟨127, 0⟩, .none⟩ ⟨63, 63, 4096, 0, some 511⟩, .xMove ⟨⟨127, 0⟩, .none⟩ ⟨63, 63, 4096, 256, some 512⟩,
  .xTurn ⟨⟨128, 0⟩, .none⟩ 63 63 15 (some 511), .xTurn ⟨⟨127, 0⟩, .none⟩ 64 63 15 (some 511),
  .xTurn ⟨⟨127, 0⟩, .none⟩ 63 64 15 (some 511), .xTurn ⟨⟨127, 0⟩, .none⟩ 63 63 16 (some 511),
  .xTurn ⟨⟨127, 0⟩, .none⟩ 63 63 15 (some 512), .xBcast ⟨⟨128, 0⟩, .none⟩ 1 63 2048 15,
  .xBcast ⟨⟨127, 0⟩, .none⟩ 2 63 2048 15, .xBcast ⟨⟨127, 0⟩, .none⟩ 1 64 2048 15, .xBcast ⟨⟨127, 0⟩, .none⟩ 1 63 2049 15,
  .xBcast ⟨⟨127, 0⟩, .none⟩ 1 63 0 15, .xBcast ⟨⟨127, 0⟩, .none⟩ 1 63 2048 16, .sPostToken ⟨128, 0⟩ 15 511 255,
  .sPostToken ⟨127, 0⟩ 16 511 255, .sPostToken ⟨127, 0⟩ 15 512 255, .sPostToken ⟨127, 0⟩ 15 511 256,
  .sPostStash ⟨128, 0⟩ 3 255 255, .sPostStash ⟨127, 0⟩ 4 255 255, .sPostStash ⟨127, 0⟩ 3 256 255,
  .sPostStash ⟨127, 0⟩ 3 255 256, .sWait ⟨128, 0⟩ ⟨511, 255, 3, 65535⟩, .sWait ⟨127, 0⟩ ⟨512, 255, 3, 65535⟩,
  .sWait ⟨127, 0⟩ ⟨511, 256, 3, 65535⟩, .sWait ⟨127, 0⟩ ⟨511, 255, 4, 65535⟩, .sWait ⟨127, 0⟩ ⟨511, 255, 3, 65536⟩,
  .sWaitSatisfied ⟨⟨128, 0⟩, .none, .none, .none⟩]
def illFormed6 : List Instr := [
  .sLoop ⟨128, 0⟩ 3 8191 65535, .sLoop ⟨127, 0⟩ 4 8191 65535, .sLoop ⟨127, 0⟩ 3 8192 65535, .sLoop ⟨127, 0⟩ 3 8191 65536,
  .sBeat ⟨128, 0⟩ false 1 511 4294967295, .sBeat ⟨127, 0⟩ false 2 511 4294967295, .sBeat ⟨127, 0⟩ false 1 512 4294967295,
  .sBeat ⟨127, 0⟩ false 1 511 (2 ^ 32), .sFence ⟨128, 0⟩ 15, .sFence ⟨127, 0⟩ 16, .sTally ⟨128, 0⟩ 4095 63 4095,
  .sTally ⟨127, 0⟩ 4096 63 4095, .sTally ⟨127, 0⟩ 4095 64 4095, .sTally ⟨127, 0⟩ 4095 63 4096, .sHalt ⟨128, 0⟩ 65535,
  .sHalt ⟨127, 0⟩ 65536, .tokenCrossing 16 0, .offTreeToken 16 0, .tokenWaitTimeout ⟨128, 0⟩, .beatAlarmFire ⟨128, 0⟩ 1,
  .beatAlarmFire ⟨127, 0⟩ 2, .reRequestStart 16 0, .reLnFwd 16 0 .none, .reLnBwd 16 0 .none, .reRmsFwd 16 0 .none,
  .reRmsBwd 16 0 .none, .reSmaxFwd 16 0 .none, .reSmaxBlk 16 0 .none, .reSmaxFin 16 0 .none, .reSmaxBwd 16 0 .none,
  .reRowdot 16 0 .none, .reXentStat 16 0 .none, .reXentGrad 16 0 .none, .reWmax 16 0 .none, .reTopk 16 0 .none,
  .wbContributionRow 144 0, .wbEarlyRowApply 512 0, .wbSenderStallLimit 144 0, .stashClaimGrant 4, .shuttleBodyStart 28]
def illFormed7 : List Instr := [
  .descriptorStart ⟨28, .none⟩, .streamCreditTake 28, .shuttlePosition ⟨28, .none⟩, .descriptorComplete 28 0,
  .flitReceive 8 (List.replicate 256 0#8) 0 0, .flitReceive 7 (List.replicate 255 0#8) 0 0, .ackTimeoutResend 8,
  .linkFlit 8 ⟨[], 65535, 255, 255, 255, 255, 255, 255, 0⟩, .linkFlit 7 ⟨[], 65536, 255, 255, 255, 255, 255, 255, 0⟩,
  .linkFlit 7 ⟨[], 65535, 256, 255, 255, 255, 255, 255, 0⟩, .linkFlit 7 ⟨[], 65535, 255, 256, 255, 255, 255, 255, 0⟩,
  .linkFlit 7 ⟨[], 65535, 255, 255, 256, 255, 255, 255, 0⟩, .linkFlit 7 ⟨[], 65535, 255, 255, 255, 256, 255, 255, 0⟩,
  .linkFlit 7 ⟨[], 65535, 255, 255, 255, 255, 256, 255, 0⟩, .linkFlit 7 ⟨[], 65535, 255, 255, 255, 255, 255, 256, 0⟩,
  .portTrained 8, .portTrainingTimeout 8, .linkLoss 8, .portRetrain 8, .getRsp 65536 65535 (List.replicate 1024 0#8),
  .getRsp 65535 65536 (List.replicate 1024 0#8), .getRsp 65535 65535 (List.replicate 1025 0#8), .getRsp 65535 65535 [],
  .mcast 8 65535 ⟨0, 0, 0, false, 0, 0, 0, 0, 0, 0, []⟩, .mcast 7 65536 ⟨0, 0, 0, false, 0, 0, 0, 0, 0, 0, []⟩,
  .completion 8 65535 65535 255 65535, .completion 7 65536 65535 255 65535, .completion 7 65535 65536 255 65535,
  .completion 7 65535 65535 256 65535, .completion 7 65535 65535 255 65536, .requestTimeout 65536,
  .releaseWordWrite 64 65535, .releaseWordWrite 63 65536, .loomUpdateWrite 28 (List.replicate 32 0#8),
  .loomUpdateWrite 27 (List.replicate 31 0#8), .reduceData ⟨0, 0, 0, 0, 0, 0, false, 0⟩ (2 ^ 32) 0 [],
  .roundDeadline 65536 255, .roundDeadline 65535 256, .leafClose 65536 255 4294967295, .leafClose 65535 256 4294967295]
def illFormed8 : List Instr := [
  .leafClose 65535 255 (2 ^ 32), .fpOpen 256, .fpCheck 256, .voteUp 65536 [], .replicaVoid (2 ^ 32),
  .reduceReplay 65536 4294967295, .reduceReplay 65535 (2 ^ 32), .burnisherRunStart 8, .burnisherChunkCommit 8,
  .burnisherRunComplete 8, .mirrorHello 65536 255 255 65535, .mirrorHello 65535 256 255 65535,
  .mirrorHello 65535 255 256 65535, .mirrorHello 65535 255 255 65536, .helloAck 256, .voteQuery 65536,
  .voteReply (2 ^ 32) 4294967295 4294967295, .voteReply 4294967295 (2 ^ 32) 4294967295,
  .voteReply 4294967295 4294967295 (2 ^ 32), .holdRelease .host 65536, .stickyClear .host 256,
  .panelUnfence .host 256 (env none), .stepRebase .host (2 ^ 32), .runStartStep .host (2 ^ 32), .tallyClear .host (2 ^ 32),
  .faultLogClear .host 256, .faultNClear .host 256, .flashData .host (List.replicate 4097 0#8) (env none),
  .flashData .host [] (env none), .flashErase .host (2 ^ 32) (env none), .mgmtKey .host (List.replicate 31 0#8) (env none),
  .rollbackAdvance .host 256, .keyRevoke .host 256, .timeSetS .host (2 ^ 64), .ownerWrite .host 256,
  .tackWrite .host (2 ^ 24) false 4294967295 (List.replicate 2 0#8) 4294967295 (env none),
  .tackWrite .host 16777215 false (2 ^ 32) (List.replicate 2 0#8) 4294967295 (env none),
  .tackWrite .host 16777215 false 4294967295 (List.replicate 1025 0#8) 4294967295 (env none),
  .tackWrite .host 16777215 false 4294967295 (List.replicate 2 0#8) (2 ^ 32) (env none),
  .dictRead .host (2 ^ 24) 65535 4294967295 4294967295]
def illFormed9 : List Instr := [
  .dictRead .host 16777215 65536 4294967295 4294967295, .dictRead .host 16777215 65535 (2 ^ 32) 4294967295,
  .dictRead .host 16777215 65535 4294967295 (2 ^ 32), .dictNext .host (2 ^ 24) 4294967295, .dictNext .host 16777215 (2 ^ 32),
  .mbDoorbell (2 ^ 32) [], .eventCauseClear (2 ^ 32), .bridleFrame (List.replicate 65536 0#8) false [],
  .hostBar2Access ⟨.read 0 0, .none⟩, .hostBar2Access ⟨.write 0 [], .none⟩, .sampleReadWrite (2 ^ 64),
  .lqTailDoorbell (2 ^ 32), .loadEntry (List.replicate 31 0#8) ⟨[], .done⟩, .warnCondition false 65536,
  .clearCondition 65536, .stowNowCrossing 65536, .resetCrossing 65536, .vbulkOvervoltage 65536,
  .hold 8 5 65535 4294967295 18446744073709551615, .hold 7 6 65535 4294967295 18446744073709551615,
  .hold 7 0 65535 4294967295 18446744073709551615, .hold 7 5 65536 4294967295 18446744073709551615,
  .hold 7 5 65535 (2 ^ 32) 18446744073709551615, .hold 7 5 65535 4294967295 (2 ^ 64),
  .release 8 65535 4294967295 18446744073709551615 65535, .release 7 65536 4294967295 18446744073709551615 65535,
  .release 7 65535 (2 ^ 32) 18446744073709551615 65535, .release 7 65535 4294967295 (2 ^ 64) 65535,
  .release 7 65535 4294967295 18446744073709551615 65536, .stowNotice 8 65535 4294967295, .stowNotice 7 65536 4294967295,
  .stowNotice 7 65535 (2 ^ 32), .holdQuery 65536 4294967295, .holdQuery 65535 (2 ^ 32),
  .holdReply 65536 false 18446744073709551615, .holdReply 65535 false (2 ^ 64),
  .powerOnReset ⟨256, true, true, true, 65536, 2, 200, true⟩, .resetNAssert 256, .railGood 76 [23], .railGood 55 [23]]
def illFormed10 : List Instr := [
  .railGood 75 [24], .railWaitTimeout 76, .railWaitTimeout 55, .domainLoss 56, .peripheryDomainLoss 76,
  .peripheryDomainLoss 55, .coilLockLoss 17, .frameCheckFail ⟨0, List.replicate 255 0#8, 0⟩,
  .frameCheckFail ⟨0, List.replicate 257 0#8, 0⟩, .sentinelTrack 17 0, .bankGroupCopyDone 512,
  .thermalControl (List.replicate 40 0) [15], .thermalControl (List.replicate 41 0) [16], .thermalTrip 41,
  .feltScrub 8912896 [31] [(31, 0)], .feltScrub 8912895 [32] [(31, 0)], .feltScrub 8912895 [31] [(32, 0)],
  .stackNotResponding 24, .timeAnnounce 8 255 65535 255 65535 false 4294967295 18446744073709551615 18446744073709551615,
  .timeAnnounce 7 256 65535 255 65535 false 4294967295 18446744073709551615 18446744073709551615,
  .timeAnnounce 7 255 65536 255 65535 false 4294967295 18446744073709551615 18446744073709551615,
  .timeAnnounce 7 255 65535 256 65535 false 4294967295 18446744073709551615 18446744073709551615,
  .timeAnnounce 7 255 65535 255 65536 false 4294967295 18446744073709551615 18446744073709551615,
  .timeAnnounce 7 255 65535 255 65535 false (2 ^ 32) 18446744073709551615 18446744073709551615,
  .timeAnnounce 7 255 65535 255 65535 false 4294967295 (2 ^ 64) 18446744073709551615,
  .timeAnnounce 7 255 65535 255 65535 false 4294967295 18446744073709551615 (2 ^ 64), .candidateExpiry 65536,
  .timeSync 8 65535 4294967295 0 0 0 0 false, .timeSync 7 65536 4294967295 0 0 0 0 false,
  .timeSync 7 65535 (2 ^ 32) 0 0 0 0 false, .delayReq 8 4294967295 0 0, .delayReq 7 (2 ^ 32) 0 0,
  .delayResp 8 4294967295 0 0 0 false, .delayResp 7 (2 ^ 32) 0 0 0 false, .sampleComplete 128, .counterShadowRefresh 31,
  .mbRequestWrite 65536 [], .lqRingConfigWrite 4096 4294967295, .lqRingConfigWrite 4095 (2 ^ 32), .flitTransmit 8]
def illFormed11 : List Instr := [
  .frameCheckPass ⟨0, List.replicate 255 0#8, 0⟩, .frameCheckPass ⟨0, List.replicate 257 0#8, 0⟩]
/-- One operand past its field, each in turn. -/
theorem test_wf_refuses0 : illFormed0.any Instr.wf = false := by decide +kernel
theorem test_wf_refuses1 : illFormed1.any Instr.wf = false := by decide +kernel
theorem test_wf_refuses2 : illFormed2.any Instr.wf = false := by decide +kernel
theorem test_wf_refuses3 : illFormed3.any Instr.wf = false := by decide +kernel
theorem test_wf_refuses4 : illFormed4.any Instr.wf = false := by decide +kernel
theorem test_wf_refuses5 : illFormed5.any Instr.wf = false := by decide +kernel
theorem test_wf_refuses6 : illFormed6.any Instr.wf = false := by decide +kernel
theorem test_wf_refuses7 : illFormed7.any Instr.wf = false := by decide +kernel
theorem test_wf_refuses8 : illFormed8.any Instr.wf = false := by decide +kernel
theorem test_wf_refuses9 : illFormed9.any Instr.wf = false := by decide +kernel
theorem test_wf_refuses10 : illFormed10.any Instr.wf = false := by decide +kernel
theorem test_wf_refuses11 : illFormed11.any Instr.wf = false := by decide +kernel

/-! ### Number formats and digests, against published values -/

/-- One third in FP32 and the type ranges of R36. -/
theorem test_div : (f32Div 0x3F800000#32 0x40400000#32).1 = 0x3EAAAAAB#32 := by decide +kernel
/-- Halfway between 1 and the next value of FP32 goes to the even one (R14). -/
theorem test_add_even : (f32Add 0x3F800000#32 0x33800000#32).1 = 0x3F800000#32 := by decide +kernel
theorem test_round_saturates : Fmt.e4m3.roundSat (.fin false 1 9) = 0x7E := by decide +kernel
theorem test_fp32_max_bf16 : (Fmt.bf16.round (f32Num 0x3F808000#32)).1 = 0x3F80 := by decide +kernel
theorem test_exp_zero : (fnF32 .exp 0#32).1 = 0x3F800000#32 := by decide +kernel
theorem test_recip_two : (fnF32 .recip 0x40000000#32).1 = 0x3F000000#32 := by decide +kernel
/-- The check value of CRC-32C over the digits 1 to 9. -/
theorem test_crc32c : crc32c ((upTo 9).map fun i => BitVec.ofNat 8 (0x31 + i)) = 0xE3069283 := by decide +kernel
/-- SHA-256 of the empty message. -/
theorem test_sha256 : beNat (sha256 []) = 0xe3b0c44298fc1c149afbf4c8996fb92427ae41e4649b934ca495991b7852b855 := by decide +kernel

/-! ### Single steps -/

theorem test_no_word : decodeTableWord 32 0xFFFFFFFF = none := rfl
theorem test_no_fetch : State.reset.withFetchWord 32 0xFFFFFFFF = State.reset := rfl
theorem test_idle : step State.reset = .next State.reset := rfl
/-- The device that follows a command. -/
def next_ (c : Instr) (s : State) : Dev := match exec c s with
  | .next t => t.dev
  | _ => s.dev
/-- The first lane of a register after the operation's latency. -/
def lane (c : Instr) (n : Nat) : Option F32 :=
  ((next_ c (onPanel 12 (fun x => { x with vr := [(0, 0x40000000#32), (64, 0x40400000#32), (128, 0xBF800000#32)] }) ready12)).island 1).agenda.findSome?
    fun t => match t.work with
      | .vreg 12 r v => if r = n then v.head? else none
      | _ => none
/-- 2 + 3, 2 − 3, 2 × 3, 2 × 3 − 1 and the larger of 2 and −1 (R116). -/
theorem test_vuAdd : lane (.vuAdd at40 5 (.reg 0) (.reg 1)) 5 = some 0x40A00000#32 := by decide +kernel
theorem test_vuSub : lane (.vuSub at40 5 (.reg 0) (.reg 1)) 5 = some 0xBF800000#32 := by decide +kernel
theorem test_vuMul : lane (.vuMul at40 5 (.reg 0) (.reg 1)) 5 = some 0x40C00000#32 := by decide +kernel
theorem test_vuFma : lane (.vuFma at40 5 (.reg 0) (.reg 1) (.reg 2)) 5 = some 0x40A00000#32 := by decide +kernel
theorem test_vuMax : lane (.vuMax at40 5 (.reg 2) (.reg 0)) 5 = some 0x40000000#32 := by decide +kernel
/-- s.halt halts its panel (R189). -/
theorem test_sHalt : ((next_ (.sHalt at40 7) ready12).panel 12).halted = true := by decide +kernel
/-- THERM trips at once (R630). -/
theorem test_thermalTrip : (next_ (.thermalTrip 0) up).devState = St.faulted := by decide +kernel
theorem test_eventCauseClear :
    (next_ (.eventCauseClear 5) (onDev up fun d => { d with tack := { d.tack with eventCause := 7 } })).tack.eventCause = 2 := by decide +kernel
/-- A byte of BAR2 written is the byte at that address, the next one higher (R569). -/
theorem test_bar2_bytes : let d := next_ (.hostBar2Access ⟨.write (nearBase 0 + 4) [0x11#8, 0x22#8], .none⟩) (nearUp up)
    (d.byte (nearBase 0 + 4), d.byte (nearBase 0 + 5), d.byte (nearBase 0 + 6)) = (0x11#8, 0x22#8, 0#8) := by decide +kernel
/-- A rail of Billet 0 makes its stacks ready (R578). -/
theorem test_railGood : (next_ (.railGood 68 []) starting_).stackStatus 0 = 1 := by decide +kernel
theorem test_vstbyLoss : (next_ .vstbyLoss up).boot.vstby = false := by decide +kernel
theorem test_rawBoundary : (next_ .rawBoundary up).get Ent.logicalBeat = up.dev.get Ent.logicalBeat + 1 := by decide +kernel
theorem test_portTrained : (next_ (.portTrained 0) (port 0 PortSt.training up)).portState 0 = PortSt.up := by decide +kernel
/-- Panels 0 and 1 broadcast rows from lines 16, 17, 18 and, from a cycle later, from the address given (R196, R198). -/
def broadcasts (from1 : Nat) : Dev :=
  let hdr : Nat := 2 ^ 24 + 2 ^ 23
  let wait (ctr : Nat) : Nat := (2 * 2 ^ 52 + ctr * 2 ^ 43 + 2 ^ 35 + 3 * 2 ^ 33 + 2 * 2 ^ 17) * 2 ^ 200
  let row (ch : Nat) : Nat := (3 * 2 ^ 52 + ch * 2 ^ 51 + 2 * 2 ^ 34 + 2 ^ 30) * 2 ^ 144
  let entry (a : Nat) : Nat := 2 ^ 255 + a * 2 ^ 223 + 256 * 2 ^ 199
  let d : Dev := { up.dev with pat := { Pattern.none with loaded := true, panelMask := 3, panelTable := [(0, 5 * 2 ^ 32), (1, 6 * 2 ^ 32)] } }
  [(bundleBase 0, hdr + 2 ^ 22 + row 0 + wait 5), (bundleBase 0 + 32, hdr + wait 5), (bundleBase 1, hdr + wait 6),
    (bundleBase 1 + 32, 2 ^ 24 + 2 ^ 22 + row 1), (bundleBase 1 + 64, hdr + wait 6), (addrTableBase 0, entry 0x1000),
    (addrTableBase 1, entry from1)].foldl (fun d w => d.writeNat w.1 32 w.2) d
/-- In one cycle panel 0 reads line 17 and panel 1 its first: line 25 is in the bank of line 17, line 24 is not. -/
theorem test_bankCheck : [0x1900, 0x1800].map (fun a => (broadcasts a).bankCheck) = [true, false] := by decide +kernel

end Sys2Proof.Tests
end

section
/-!
PROOFS (*Number formats*). What the operations of a panel share: the frames of the device's small updates, the flags
that events leave, and vu.ld and vu.st.
-/
namespace Sys2Proof.Machine
open Sys2Proof

/-! ### Local effects -/

/-- A frame that also keeps the wide buffer and the contract: what an operation inside a panel and its island leaves. -/
structure Dev.Local (d e : Dev) (ps is ks : List Nat) : Prop where
  frame : d.Frame e ps is ks
  wide : e.wide = d.wide
  contract : e.contract = d.contract

theorem Dev.Local.trans {d e f : Dev} {ps is ks ps' is' ks' : List Nat} (h : d.Local e ps is ks)
    (k : e.Local f ps' is' ks') : d.Local f (ps ++ ps') (is ++ is') (ks ++ ks') :=
  ⟨h.frame.trans k.frame, k.wide.trans h.wide, k.contract.trans h.contract⟩

theorem Dev.Local.mono {d e : Dev} {ps is ks ps' is' ks' : List Nat} (h : d.Local e ps is ks) (hp : ps ⊆ ps')
    (hi : is ⊆ is') (hk : ks ⊆ ks') : d.Local e ps' is' ks' :=
  ⟨h.frame.mono (fun _ h => hp h) (fun _ h => hi h) (fun _ h => hk h), h.wide, h.contract⟩

theorem Dev.Local.refl (d : Dev) : d.Local d [] [] [] := ⟨.refl d, rfl, rfl⟩

theorem OnlyTally.local {d e : Dev} (h : OnlyTally d e) : d.Local e [] [] [] := by
  refine ⟨h.frame, ?_, ?_⟩ <;> (obtain ⟨t, rfl⟩ := h; rfl)

theorem OnlyTack.local {ks : List Nat} {d e : Dev} (h : OnlyTack ks d e) : d.Local e [] [] ks :=
  ⟨h.frame, by rw [h.same], by rw [h.same]⟩

theorem modPanel_local (d : Dev) (p : Nat) (f : Panel → Panel) : d.Local (d.modPanel p f) [p] [] [] := by
  refine ⟨⟨fun _ => rfl, rfl, fun q hq => ?_, fun _ _ => rfl, fun _ _ => rfl, by constructor <;> rfl⟩, rfl, rfl⟩
  rw [Dev.panel_modPanel, if_neg (by simpa using hq)]

theorem setPanel_local (d : Dev) (p : Nat) (x : Panel) : d.Local (d.setPanel p x) [p] [] [] :=
  modPanel_local d p fun _ => x

theorem modIsland_local (d : Dev) (i : Nat) (f : Island → Island) : d.Local (d.modIsland i f) [] [i] [] := by
  refine ⟨⟨fun _ => rfl, rfl, fun _ _ => rfl, fun j hj => ?_, fun _ _ => rfl, by constructor <;> rfl⟩, rfl, rfl⟩
  rw [Dev.island_modIsland, if_neg (by simpa using hj)]

theorem later_local (d : Dev) (p issue slot cycle rank : Nat) (w : Deferred) :
    d.Local (d.later p issue slot cycle rank w) [] [islandOf p] [] := by
  unfold Dev.later Dev.schedule
  exact modIsland_local d _ _

theorem flags_local (d : Dev) (f : FlagState) : d.Local { d with flags := f } [] [] [] :=
  ⟨⟨fun _ => rfl, rfl, fun _ _ => rfl, fun _ _ => rfl, fun _ _ => rfl, by constructor <;> rfl⟩, rfl, rfl⟩

theorem advance_local (d : Dev) (i c : Nat) (h : d.NoneDue i c) : d.Local (d.advance i c) [] [i] [] := by
  obtain ⟨-, hw, hc, -, -⟩ := advance_same d i c h
  exact ⟨advance_frame d i c h, hw, hc⟩

/-! ### Events of a unit -/

theorem raise_local (d : Dev) (unit tag : Nat) (f : Flags) :
    d.Local (d.raise unit tag f) [] [] [Ent.stickyLast, Ent.faultClassCounts] := by
  obtain ⟨e, he, hr⟩ := raise_shape d unit tag f
  rw [hr]
  exact (he.local.trans (flags_local e _)).mono (by simp) (by simp) (by simp)

theorem raise_panels (d : Dev) (unit tag : Nat) (f : Flags) : (d.raise unit tag f).panels = d.panels := by
  obtain ⟨e, he, hr⟩ := raise_shape d unit tag f
  rw [hr, he.same]

theorem panel_raise (d : Dev) (unit tag : Nat) (f : Flags) (q : Nat) : (d.raise unit tag f).panel q = d.panel q := by
  simp only [Dev.panel, raise_panels]

theorem island_raise (d : Dev) (unit tag : Nat) (f : Flags) (j : Nat) : (d.raise unit tag f).island j = d.island j :=
  (raise_local d unit tag f).frame.islands j (by simp)

/-- The events a unit raises change the flag sets by the sets and the contract alone. -/
theorem flags_raise_congr {d e : Dev} (hf : e.flags = d.flags) (hc : e.contract = d.contract) (unit tag : Nat)
    (f : Flags) : (e.raise unit tag f).flags = (d.raise unit tag f).flags := by
  have voted : e.votedTag tag = d.votedTag tag := by unfold Dev.votedTag; rw [hc]
  have stays (x : Dev) (k off len v code u det : Nat) : ((x.putB k off len v).fault code u det).flags = x.flags := by
    rw [(fault_onlyTack (x.putB k off len v) code u det).same]; rfl
  unfold Dev.raise
  rw [voted, hf]
  split
  · exact hf
  · split
    · simp only [stays, hf]
    · rfl

/-! ### Agendas -/

theorem adds_later {d e : Dev} {p : Nat} (h : e.island (islandOf p) = d.island (islandOf p))
    (issue slot cycle rank : Nat) (w : Deferred) :
    d.Adds (e.later p issue slot cycle rank w) (islandOf p) ⟨cycle, rank, p, issue, slot, w⟩ := by
  unfold Dev.Adds Dev.later Dev.schedule
  rw [Dev.island_modIsland_self, h]

theorem Dev.Adds.of_island {d e f : Dev} {i : Nat} {t : Item} (h : d.Adds e i t) (hf : f.island i = e.island i) :
    d.Adds f i t := by
  unfold Dev.Adds at *
  rw [hf, h]

theorem Dev.Adds.agenda {d e : Dev} {i : Nat} {t : Item} (h : d.Adds e i t) :
    (e.island i).agenda = insertItem (d.island i).agenda t := by
  unfold Dev.Adds at h
  rw [h]

/-- After an item that is due later joined an agenda with nothing due, there is still nothing due. -/
theorem Dev.Adds.noneDue {d e : Dev} {i k : Nat} {t : Item} (h : d.Adds e i t) (hn : d.NoneDue i k)
    (ht : k < t.cycle) : e.NoneDue i k := noneDue_of_adds hn h.agenda ht

/-! ### vu.ld and vu.st -/

/-- What an operation of panel p leaves that sends its result ahead as the item t: registers and everything outside the
panel and its island stay, and the flags are those of the events f of VSLOT's step. -/
structure Dev.SendsResult (d e : Dev) (p : Nat) (t : Item) (f : Flags) : Prop where
  adds : d.Adds e (islandOf p) t
  within : d.Local e [p] [islandOf p] [Ent.stickyLast, Ent.faultClassCounts]
  flags : e.flags = (d.raise (FlagUnit.panel p) (d.stepTag (d.panel p).vslot) f).flags
  vr : (e.panel p).vr = (d.panel p).vr

/-- The last advance of the operation changes none of it. -/
theorem Dev.SendsResult.advance {d e : Dev} {p k : Nat} {t : Item} {f : Flags} (h : d.SendsResult e p t f)
    (hn : d.NoneDue (islandOf p) k) (ht : k < t.cycle) : d.SendsResult (e.advance (islandOf p) k) p t f := by
  have none_ := h.adds.noneDue hn ht
  obtain ⟨hf, -⟩ := advance_same e (islandOf p) k none_
  exact ⟨h.adds.advance none_, (h.within.trans (advance_local e _ k none_)).mono (by simp) (by simp) (by simp),
    hf.trans h.flags, by rw [panel_advance_noneDue _ _ _ _ none_, h.vr]⟩

/-- What claims ports and counts: nothing but the panel's own ports and what s.fence asks about has changed. -/
structure Dev.SameButPorts (d e : Dev) (p : Nat) : Prop where
  within : d.Local e [p] [] []
  flags : e.flags = d.flags
  vr : (e.panel p).vr = (d.panel p).vr
  vslot : (e.panel p).vslot = (d.panel p).vslot

theorem Dev.SameButPorts.trans {d e f : Dev} {p : Nat} (h : d.SameButPorts e p) (k : e.SameButPorts f p) :
    d.SameButPorts f p :=
  ⟨(h.within.trans k.within).mono (by simp) (by simp) (by simp), k.flags.trans h.flags, k.vr.trans h.vr,
    k.vslot.trans h.vslot⟩

theorem OnlyTally.sameButPorts {d e : Dev} (h : OnlyTally d e) (p : Nat) : d.SameButPorts e p := by
  refine ⟨h.local.mono (by simp) (by simp) (by simp), ?_, by rw [h.panel], by rw [h.panel]⟩
  obtain ⟨t, rfl⟩ := h
  rfl

theorem setPanel_sameButPorts (d : Dev) (p : Nat) (x : Panel) (hv : x.vr = (d.panel p).vr)
    (hs : x.vslot = (d.panel p).vslot) : d.SameButPorts (d.setPanel p x) p :=
  ⟨setPanel_local d p x, rfl, by rw [Dev.panel_setPanel_self, hv], by rw [Dev.panel_setPanel_self, hs]⟩

theorem Dev.SameButPorts.stepTag {d e : Dev} {p : Nat} (h : d.SameButPorts e p) (slot : Nat) :
    e.stepTag slot = d.stepTag slot := by
  unfold Dev.stepTag Dev.step
  rw [h.within.frame.entries _ (by simp), h.within.frame.far.pat]

theorem Dev.SameButPorts.vreg {d e : Dev} {p : Nat} (h : d.SameButPorts e p) (r : Nat) :
    (e.panel p).vreg r = (d.panel p).vreg r := by
  unfold Panel.vreg
  rw [h.vr]

theorem Dev.SameButPorts.sends {d e : Dev} {p : Nat} (h : d.SameButPorts e p) (issue slot cycle rank : Nat)
    (w : Deferred) (f : Flags) :
    d.SendsResult ((e.later p issue slot cycle rank w).raise (FlagUnit.panel p) (d.stepTag (d.panel p).vslot) f) p
      ⟨cycle, rank, p, issue, slot, w⟩ f where
  adds := (adds_later (h.within.frame.islands _ (by simp)) issue slot cycle rank w).of_island (island_raise _ _ _ _ _)
  within := ((h.within.trans (later_local e p issue slot cycle rank w)).trans (raise_local _ _ _ _)).mono (by simp)
    (by simp) (by simp)
  flags := flags_raise_congr (e := e.later p issue slot cycle rank w) h.flags h.within.contract _ _ _
  vr := by rw [panel_raise]; exact h.vr

theorem Dev.SendsResult.pend {d e : Dev} {p : Nat} {t : Item} {f : Flags} (h : d.SendsResult e p t f)
    (cls v issue : Nat) : d.SendsResult (e.pend p cls v issue) p t f :=
  ⟨h.adds.of_island rfl, (h.within.trans (modPanel_local e p _)).mono (by simp) (by simp) (by simp), h.flags,
    by unfold Dev.pend; rw [Dev.panel_modPanel_self]; exact h.vr⟩

/-- Ports that are free are claimed, and the operation goes on. -/
theorem withPorts_free (d : Dev) (p issue slot first last : Nat) (q : Port) (f : Dev → Dev)
    (h : (d.panel p).portBusy q first last = false) :
    d.withPorts p issue slot [(q, first, last)] f = f (d.setPanel p ((d.panel p).claim q first last issue slot)) := by
  simp [Dev.withPorts, Panel.takePorts, h]

/-- An access that nothing disturbs goes on. -/
theorem reading_undisturbed (d : Dev) (p a : Nat) (f : Bool → Dev → Dev) : d.reading p a .none f = f false d := by
  unfold Dev.reading Dev.meetUpset
  split <;> simp_all

/-- An operand is the row of its entry, whatever has been counted. -/
theorem OnlyTally.rowOperand {d e : Dev} (h : OnlyTally d e) (p aix row n al : Nat) :
    e.rowOperand p aix row n al = d.rowOperand p aix row n al := by
  obtain ⟨t, rfl⟩ := h
  rfl

/-- What an operand's row tells of it: its entry is valid and names its space, scratch lies beyond the Felt, and a row
of at least one byte in the Felt begins in it. -/
theorem rowOperand_some {d : Dev} {p aix row n al addr : Nat} {scr : Bool} (hn : 0 < n)
    (h : d.rowOperand p aix row n al = some (scr, addr)) :
    (d.addrEntry p aix).valid = true ∧ (d.addrEntry p aix).scratch = scr ∧ (addr < feltSize ↔ scr = false) := by
  unfold Dev.rowOperand at h
  simp only [Option.ite_none_left_eq_some, Bool.or_eq_true, not_or, Bool.not_eq_true', decide_eq_true_eq,
    Option.some.injEq, Prod.mk.injEq, Bool.not_eq_false] at h
  obtain ⟨⟨⟨⟨⟨hv, -⟩, hl⟩, -⟩, -⟩, hs, ha⟩ := h
  refine ⟨hv, hs, ?_⟩
  cases scr
  · simp only [hs, Bool.false_eq_true, if_false] at hl ha
    simp only [iff_true]; omega
  · simp only [hs, if_true] at ha
    simp only [Bool.true_eq_false, iff_false, feltSize, ← ha, scratchBase]; omega

theorem read_congr {d e : Dev} (h : ∀ a, e.byte a = d.byte a) : ∀ n a, e.read a n = d.read a n
  | 0, _ => rfl
  | n + 1, a => by simp only [Dev.read, h, read_congr h n (a + 1)]

/-- The code of a TYPE that vu.ld and vu.st take gives its element type and size. -/
theorem vuElem_of_type {typ es : Nat} {t : ElemType}
    (h : (typ = 0 ∧ t = .fp32 ∧ es = 4) ∨ (typ = 1 ∧ t = .bf16 ∧ es = 2) ∨ (typ = 2 ∧ t = .fp16 ∧ es = 2)) :
    vuElem typ = some (t, es) ∧ 0 < 64 * es := by
  rcases h with ⟨rfl, rfl, rfl⟩ | ⟨rfl, rfl, rfl⟩ | ⟨rfl, rfl, rfl⟩ <;> exact ⟨rfl, by decide⟩

/-- vu.ld of a row of scratch whose port is free sends the converted elements to its register. -/
theorem opLd_sends {d D : Dev} {p c dst aix row typ es addr : Nat} {t : ElemType} (h : OnlyTally d D)
    (ht : vuElem typ = some (t, es)) (hes : 0 < 64 * es)
    (ho : d.rowOperand p aix row (64 * es) (64 * es) = some (true, addr))
    (hp : (d.panel p).portBusy .scratchRd c c = false) :
    d.SendsResult (D.opLd p c dst aix row typ .none) p
      ⟨c + 4, 0, p, c, 1, .vreg p dst (elemsOf t 64 (d.read addr (64 * es))).1⟩
      (elemsOf t 64 (d.read addr (64 * es))).2 := by
  rw [← h.rowOperand] at ho
  rw [← h.panel] at hp
  obtain ⟨-, hs, -⟩ := rowOperand_some hes ho
  have ports := (h.sameButPorts p).trans
    (setPanel_sameButPorts D p ((D.panel p).claim .scratchRd c c c 1) rfl rfl)
  unfold Dev.opLd
  simp only [ht, hs, ho, Bool.not_true, Bool.and_false, Bool.false_eq_true, if_false, withPorts_free _ _ _ _ _ _ _ _ hp,
    reading_undisturbed, read_congr ports.within.frame.bytes, Dev.vuWrite, ports.stepTag, ports.vslot]
  exact ports.sends _ _ _ _ _ _

/-- Nothing but counts comes of a crossing outside the beat pause. -/
theorem crossing_outside_pause (d : Dev) (unit : Nat) (h : d.contract.inPause = false) : d.crossing unit = d := by
  simp [Dev.crossing, h]

/-- A panel's write outside the beat pause is one item: in panel memory in its cycle, in the Felt five later. -/
theorem writeLater_eq (d : Dev) (p issue slot a len value mask v : Nat) (h : d.contract.inPause = false) :
    ∃ e, OnlyTally d e ∧ d.writeLater p issue slot a len value mask v =
      e.later p issue slot (if a < feltSize then v + 5 else v) (if a < feltSize then 2 + p % 8 else 0)
        (.bits a len value mask) := by
  unfold Dev.writeLater
  rw [crossing_outside_pause d p h]
  split
  · exact ⟨_, (feltLines_onlyTally d _ _ _).trans (ev_onlyTally _ _ _ _), rfl⟩
  · exact ⟨d, .refl d, rfl⟩

/-- vu.st of a row whose port is free, outside the beat pause, sends the converted lanes to memory. -/
theorem opSt_sends {d D : Dev} {p c src aix row typ es addr : Nat} {t : ElemType} {scr : Bool} (h : OnlyTally d D)
    (ht : vuElem typ = some (t, es)) (hes : 0 < 64 * es)
    (ho : d.rowOperand p aix row (64 * es) (64 * es) = some (scr, addr))
    (hp : (if scr = true then (d.panel p).portBusy .scratchWr (c + 1) (c + 1)
      else (d.panel p).portBusy .vertOut (c + 14) (c + 14)) = false) (hc : d.contract.inPause = false) :
    let res := Fl.mapList (fun v => convScalar .fp32 t v.toNat) ((d.panel p).vreg src)
    let bytes := res.1.flatMap (leBytes es)
    d.SendsResult (D.opSt p c src aix row typ .none) p
      ⟨if scr = true then c + 2 else c + 14 + 5, if scr = true then 0 else 2 + p % 8, p, c, 1,
        .bits addr bytes.length (leNat bytes) (allOnes bytes.length)⟩ res.2 := by
  intro res bytes
  obtain ⟨-, -, hspace⟩ := rowOperand_some hes ho
  rw [← h.rowOperand] at ho
  simp only [← h.panel] at hp
  have storePort : ∃ q n, (if scr = true then (Port.scratchWr, c + 1, c + 1) else (Port.vertOut, c + 14, c + 14)) = (q, n, n) ∧
      (D.panel p).portBusy q n n = false := by
    cases scr
    · exact ⟨_, _, rfl, hp⟩
    · exact ⟨_, _, rfl, hp⟩
  obtain ⟨q, n, hq, hfree⟩ := storePort
  have ports := (h.sameButPorts p).trans (setPanel_sameButPorts D p ((D.panel p).claim q n n c 1) rfl rfl)
  obtain ⟨e, he, hw⟩ := writeLater_eq (D.setPanel p ((D.panel p).claim q n n c 1)) p c 1 addr bytes.length (leNat bytes)
    (allOnes bytes.length) (if scr = true then c + 2 else c + 14) (by rw [ports.within.contract, hc])
  have cycle : (if addr < feltSize then (if scr = true then c + 2 else c + 14) + 5
      else if scr = true then c + 2 else c + 14) = if scr = true then c + 2 else c + 14 + 5 := by
    cases scr <;> simp [hspace]
  have rank : (if addr < feltSize then 2 + p % 8 else 0) = if scr = true then 0 else 2 + p % 8 := by
    cases scr <;> simp [hspace]
  rw [cycle, rank] at hw
  have run : D.opSt p c src aix row typ .none = ((e.later p c 1 (if scr = true then c + 2 else c + 14 + 5)
      (if scr = true then 0 else 2 + p % 8) (.bits addr bytes.length (leNat bytes) (allOnes bytes.length))).raise
        (FlagUnit.panel p) (d.stepTag (d.panel p).vslot) res.2).pend p (if scr then 1 else 0)
        (if scr = true then c + 2 else c + 14) c := by
    rw [← hw]
    unfold Dev.opSt
    simp only [ht, ho, hq, withPorts_free _ _ _ _ _ _ _ _ hfree, Dev.lateWrite, ports.stepTag, ports.vslot, ports.vreg]
    rfl
  rw [run]
  exact ((ports.trans (he.sameButPorts p)).sends _ _ _ _ _ _).pend _ _ _

end Sys2Proof.Machine

open Sys2Proof Sys2Proof.Machine

/-- Settles O10: vu.ld and vu.st send one item ahead and claim their ports (opLd_sends, opSt_sends), and the last
advance performs nothing. -/
theorem vectorLoadStore : Obligations.VectorLoadStore := by
  intro a reg aix row typ es addr scr t s k p htype hrow
  obtain ⟨hte, hes⟩ := vuElem_of_type htype
  refine ⟨fun hscr hport => ?_, fun hport hpause => ?_⟩
  · subst hscr
    refine issues_of _ a s (fun c d => (d.ev p 0x010 1).opLd p c reg aix row typ .none) _ rfl fun hn => ?_
    obtain ⟨adds, within, flags, vr⟩ :=
      (opLd_sends (ev_onlyTally _ p 0x010 1) hte hes hrow hport).advance hn (Nat.lt_add_of_pos_right (by decide))
    exact ⟨adds, flags, within.frame, vr, within.wide, within.contract⟩
  · refine issues_of _ a s (fun c d => (d.ev p 0x010 1).opSt p c reg aix row typ .none) _ rfl fun hn => ?_
    obtain ⟨adds, within, -, vr⟩ :=
      (opSt_sends (ev_onlyTally _ p 0x010 1) hte hes hrow hport hpause).advance hn (by cases scr <;> simp <;> omega)
    exact ⟨adds, within.frame, vr, within.wide, within.contract⟩
end

section
/-!
PROOFS (*Number formats*). Rows of a stream: their entry into the array, and the landing of their updates.
-/
namespace Sys2Proof.Machine
open Sys2Proof

/-! ### Events of a panel's jobs -/

/-- A command reads its effect at the present device alone. -/
theorem act_congr {f g : Dev → Dev} {s : State} (h : f s.dev = g s.dev) : act f s = act g s := by
  simp only [act, lift, State.upd, Dev.powered, h]

/-- An event of a panel that is not fenced is one of its island. -/
theorem occurs_of_job (c : Instr) (a : At) (s : State) (f : Nat → Dev → Dev) (P : Dev → Dev → Prop)
    (hc : exec c s = act (fun d => d.onJobs a f) s) (hf : s.dev.fenced a.panel = false)
    (h : (s.dev.atEvent (islandOf a.panel) a.cycle).NoneDue (islandOf a.panel)
        (s.dev.eventCycle (islandOf a.panel) a.cycle) →
      P (s.dev.atEvent (islandOf a.panel) a.cycle)
        ((f (s.dev.eventCycle (islandOf a.panel) a.cycle) (s.dev.atEvent (islandOf a.panel) a.cycle)).advance
          (islandOf a.panel) (s.dev.eventCycle (islandOf a.panel) a.cycle))) :
    Occurs c (islandOf a.panel) a.cycle s P :=
  occurs_of c _ _ s f P (hc.trans (act_congr (by simp [Dev.onJobs, hf]))) h

/-! ### A row enters -/

/-- The panel after the entry of a row of its stream j: the stream has one row less to come, and the row's touch and
tile are noted. -/
def Panel.entered (x : Panel) (j : StreamJob) (rest : List StreamJob) (t : Tile) (phys entry land : Nat) : Panel :=
  { x with
    streams := if j.next + 1 < j.rows then
      { j with next := j.next + 1, fetched := j.fetched.filter fun r => r.1 != j.next } :: rest else rest
    touches := ⟨.enter, rowKey t.mode phys, t.per, 64, entry, j.issue⟩ :: x.touches
    tileBusy := (j.tile, land) :: x.tileBusy }

/-- What the entry of a row leaves: its landing waits in the agenda, and nothing but the panel has changed. -/
structure Dev.RowEntered (d e : Dev) (p : Nat) (x : Panel) (t : Item) : Prop where
  adds : d.Adds e (islandOf p) t
  panel : e.panel p = x
  within : d.Local e [p] [islandOf p] []
  flags : e.flags = d.flags

theorem Dev.RowEntered.advance {d e : Dev} {p k : Nat} {x : Panel} {t : Item} (h : d.RowEntered e p x t)
    (hn : d.NoneDue (islandOf p) k) (ht : k < t.cycle) : d.RowEntered (e.advance (islandOf p) k) p x t := by
  have none_ := h.adds.noneDue hn ht
  obtain ⟨hf, -⟩ := advance_same e (islandOf p) k none_
  exact ⟨h.adds.advance none_, by rw [panel_advance_noneDue _ _ _ _ none_, h.panel],
    (h.within.trans (advance_local e _ k none_)).mono (by simp) (by simp) (by simp), hf.trans h.flags⟩

/-- A panel's registers change, counters count, and an item joins the agenda. -/
theorem rowEntered_later {d e : Dev} {p : Nat} {f : Panel → Panel} (h : OnlyTally (d.modPanel p f) e)
    (issue slot cycle rank : Nat) (w : Deferred) :
    d.RowEntered (e.later p issue slot cycle rank w) p (f (d.panel p)) ⟨cycle, rank, p, issue, slot, w⟩ where
  adds := adds_later (by rw [h.island]; rfl) issue slot cycle rank w
  panel := by
    show e.panel p = _
    rw [h.panel, Dev.panel_modPanel_self]
  within := (((modPanel_local d p f).trans h.local).trans (later_local e p issue slot cycle rank w)).mono (by simp)
    (by simp) (by simp)
  flags := by
    obtain ⟨t, rfl⟩ := h
    rfl

/-- A row that breaks no rule of entry claims its array row and waits for its latency. -/
theorem enterRow_enters (d : Dev) (p : Nat) (j : StreamJob) (row entry : Nat) (bs : List Byte) (wt xt : ElemType)
    (hr : let l := (d.panel p).latchFor entry; streamRefusal j.strict l.typ l.term j.typ j.term = none)
    (hw : ElemType.ofCode ((d.panel p).latchFor entry).typ = some wt) (hx : ElemType.ofCode j.typ = some xt)
    (hk : j.op ≠ .add → j.kBase + (kRow wt xt).getD 96 ≤ 65536)
    (hs : let t := d.tile p j.tile
      (d.panel p).entersTooSoon (rowKey t.mode (d.tileBase p t + (j.first + row) * t.per)) t.mode entry = false) :
    let t := d.tile p j.tile
    let phys := d.tileBase p t + (j.first + row) * t.per
    let land := entry + updateLatency t.mode j.strict (wt.isMx || xt.isMx)
    ∃ e, OnlyTally (d.modPanel p fun x =>
        { x.addTouch ⟨.enter, rowKey t.mode phys, t.per, 64, entry, j.issue⟩ with tileBusy := (j.tile, land) :: x.tileBusy }) e ∧
      d.enterRow p j row entry bs = e.later p j.issue 0 (land + if t.mode = 3 then 1 else 0) 1
        (.landRow p ⟨j, t.mode, t.sense, phys, (d.panel p).latchFor entry, bs, land⟩) := by
  intro t phys land
  have small : (j.op != .add && decide (65535 < j.kBase + (kRow wt xt).getD 96 - 1)) = false := by
    by_cases ho : j.op = .add
    · simp [ho]
    · have := hk ho
      simp only [Bool.and_eq_false_iff, decide_eq_false_iff_not]
      right; omega
  have visible : bitNat (t.mode == 3) = if t.mode = 3 then 1 else 0 := by
    by_cases h : t.mode = 3 <;> simp [h, bitNat]
  have counted (c : Bool) (d : Dev) (code : Nat) : OnlyTally d (if c = true then d.ev p code 1 else d) := by
    split
    · exact ev_onlyTally _ _ _ _
    · exact .refl d
  unfold Dev.enterRow
  simp only [hr, hw, hx, small, hs, Bool.false_eq_true, if_false, ← visible]
  exact ⟨_, (((((ev_onlyTally _ _ _ _).trans (count_onlyTally _ _ _)).trans (counted _ _ _)).trans (counted _ _ _)).trans
    (count_onlyTally _ _ _)), rfl⟩

theorem Dev.RowEntered.of_modPanel {d e : Dev} {p : Nat} {f : Panel → Panel} {x : Panel} {t : Item}
    (h : (d.modPanel p f).RowEntered e p x t) : d.RowEntered e p x t :=
  ⟨h.adds, h.panel, ((modPanel_local d p f).trans h.within).mono (by simp) (by simp) (by simp), h.flags⟩

/-- A stream row that is due, whose bytes have come, takes them into the array. -/
theorem evStreamRow_undisturbed (d : Dev) (p c : Nat) (j : StreamJob) (rest : List StreamJob) (bs : List Byte)
    (hj : (d.panel p).streams = j :: rest)
    (hc : j.issue + (if j.src = 3 then 4 else 14) + j.next * j.spacing ≤ c)
    (hb : (if j.src = 1 ∨ j.src = 2 then
        d.busRow (islandOf p) (j.src - 1) (j.issue + (if j.src = 3 then 4 else 14) + j.next * j.spacing)
      else (j.fetched.find? fun r => r.1 == j.next).map Prod.snd) = some bs) :
    d.evStreamRow p c .none = (d.modPanel p fun x => { x with streams := if j.next + 1 < j.rows then
      { j with next := j.next + 1, fetched := j.fetched.filter fun r => r.1 != j.next } :: rest else rest }).enterRow p j
        j.next (j.issue + (if j.src = 3 then 4 else 14) + j.next * j.spacing) bs := by
  have bus : (j.src == 1 || j.src == 2) = decide (j.src = 1 ∨ j.src = 2) :=
    Bool.eq_iff_iff.mpr (by simp only [Bool.or_eq_true, beq_iff_eq, decide_eq_true_eq])
  have source (d : Dev) (a : Nat) : d.rowSource p a bs .none = (d, bs) := by
    unfold Dev.rowSource Dev.meetUpset
    split <;> simp_all
  unfold Dev.evStreamRow
  simp only [hj, Nat.not_lt.mpr hc, if_false, bus, decide_eq_true_eq, hb, source, ite_self]
  simp

/-- The row's entry at its panel: evStreamRow meets enterRow. -/
theorem evStreamRow_enters (d : Dev) (p c : Nat) (j : StreamJob) (rest : List StreamJob) (bs : List Byte)
    (wt xt : ElemType) :
    let x := d.panel p
    let t := d.tile p j.tile
    let entry := j.issue + (if j.src = 3 then 4 else 14) + j.next * j.spacing
    let l := x.latchFor entry
    let phys := d.tileBase p t + (j.first + j.next) * t.per
    let land := entry + updateLatency t.mode j.strict (wt.isMx || xt.isMx)
    x.streams = j :: rest → entry ≤ c →
    (if j.src = 1 ∨ j.src = 2 then d.busRow (islandOf p) (j.src - 1) entry
      else (j.fetched.find? fun r => r.1 == j.next).map Prod.snd) = some bs →
    streamRefusal j.strict l.typ l.term j.typ j.term = none →
    ElemType.ofCode l.typ = some wt → ElemType.ofCode j.typ = some xt →
    (j.op ≠ .add → j.kBase + (kRow wt xt).getD 96 ≤ 65536) →
    x.entersTooSoon (rowKey t.mode phys) t.mode entry = false →
    d.RowEntered (d.evStreamRow p c .none) p (x.entered j rest t phys entry land)
      ⟨land + (if t.mode = 3 then 1 else 0), 1, p, j.issue, 0, .landRow p ⟨j, t.mode, t.sense, phys, l, bs, land⟩⟩ := by
  intro x t entry l phys land hj hc hb hr hw hx hk hs
  rw [evStreamRow_undisturbed d p c j rest bs hj hc hb]
  have now := enterRow_enters (d.modPanel p fun x => { x with streams := if j.next + 1 < j.rows then
      { j with next := j.next + 1, fetched := j.fetched.filter fun r => r.1 != j.next } :: rest else rest }) p j j.next entry
      bs wt xt
  simp only [Dev.tile, Dev.tileBase, Dev.panel_modPanel_self] at now
  obtain ⟨e, he, hw⟩ := now hr hw hx hk hs
  rw [hw]
  have := (rowEntered_later he j.issue 0 (land + if t.mode = 3 then 1 else 0) 1
    (.landRow p ⟨j, t.mode, t.sense, phys, l, bs, land⟩)).of_modPanel
  rw [Dev.panel_modPanel_self] at this
  exact this

/-! ### A row lands -/

/-- The first item is performed when its cycle has come; where nothing else is due by then, only counters and the
island's time change beside what it does. -/
theorem advance_performs (d : Dev) (i c : Nat) {t : Item} {rest : List Item} (ha : (d.island i).agenda = t :: rest)
    (ht : t.cycle ≤ c) (hn : ((d.modIsland i fun s => { s with agenda := rest }).runItem i t).NoneDue i c) :
    OnlyTally (((d.modIsland i fun s => { s with agenda := rest }).runItem i t).modIsland i fun s =>
      { s with cycle := max c s.cycle }) (d.advance i c) := by
  have once (k : Nat) : Dev.advanceGo i c (k + 1) d = (d.modIsland i fun s => { s with agenda := rest }).runItem i t := by
    rw [Dev.advanceGo, ha]
    simp only [Nat.not_lt.mpr ht, if_false]
    exact advanceGo_noneDue i c _ _ hn
  unfold Dev.advance
  rw [once 999999]
  exact passCycles_onlyTally _ _ _ _

theorem noteItem_onlyTally (d : Dev) (t : Item) : OnlyTally d (d.noteItem t) := by
  unfold Dev.noteItem Dev.noteEffect
  split
  · split
    · exact .refl d
    · exact ⟨_, rfl⟩
  · exact .refl d

/-- The words a row's update leaves: one physical row, or two. -/
def Dev.withRow (d : Dev) (p : Nat) (r : ArrayRow) (ws : List F32 × List F32) : Dev :=
  let d := d.write (rowAddr p r.mode r.phys) (wordBytes ws.1)
  if rowsPer r.mode = 2 then d.write (rowAddr p r.mode (r.phys + 1)) (wordBytes ws.2) else d

theorem withRow_byte (d : Dev) (p : Nat) (r : ArrayRow) (ws : List F32 × List F32) (y : Nat) :
    (d.withRow p r ws).byte y = sget 0#8 (if rowsPer r.mode = 2 then
        memWrite (memWrite d.mem (rowAddr p r.mode r.phys) (wordBytes ws.1)) (rowAddr p r.mode (r.phys + 1)) (wordBytes ws.2)
      else memWrite d.mem (rowAddr p r.mode r.phys) (wordBytes ws.1)) y := by
  unfold Dev.withRow
  split <;> rfl

theorem withRow_same (d : Dev) (p : Nat) (r : ArrayRow) (ws : List F32 × List F32) :
    d.withRow p r ws = { d with mem := (d.withRow p r ws).mem, tier := (d.withRow p r ws).tier } := by
  unfold Dev.withRow
  split <;> rfl

/-- What the update of a logical row makes of the words that stand there (R28, R33, R36, R70, R72). -/
def Dev.rowResult (d : Dev) (p : Nat) (r : ArrayRow) (wt xt : ElemType) : Fl (List F32 × List F32) :=
  applyRow r.mode r.sense r.job.kBase ((groupSize r.job.group).getD 16) r.job.strict r.latch wt xt r.job.term
    ((kRow wt xt).getD 96) r.bytes (d.rowAt p r.mode r.phys)
    (if rowsPer r.mode = 2 then d.rowAt p r.mode (r.phys + 1) else [])

/-- The update of a row that breaks no hazard. -/
theorem landRow_applies (d : Dev) (p : Nat) (r : ArrayRow) (wt xt : ElemType)
    (hw : ElemType.ofCode r.latch.typ = some wt) (hx : ElemType.ofCode r.job.typ = some xt)
    (h0 : (d.panel p).landHazard (rowKey r.mode r.phys) r.job.issue r.land = false)
    (h1 : rowsPer r.mode = 2 → (d.panel p).landHazard (rowKey r.mode r.phys + 1) r.job.issue r.land = false) :
    d.landRow p r = (d.withRow p r (d.rowResult p r wt xt).1).raise (FlagUnit.panel p) r.job.stepTag
      (d.rowResult p r wt xt).2 := by
  have clean : ((d.panel p).landHazard (rowKey r.mode r.phys) r.job.issue r.land ||
      (rowsPer r.mode == 2 && (d.panel p).landHazard (rowKey r.mode r.phys + 1) r.job.issue r.land)) = false := by
    by_cases h : rowsPer r.mode = 2
    · simp [h0, h1 h]
    · simp [h0, h]
  unfold Dev.landRow
  simp only [clean, hw, hx, Bool.false_eq_true, if_false]
  rfl

theorem Dev.Around.trans {d e f : Dev} {ps is ks ps' is' ks' : List Nat} (h : d.Around e ps is ks)
    (k : e.Around f ps' is' ks') : d.Around f (ps ++ ps') (is ++ is') (ks ++ ks') := by
  refine ⟨fun q hq => ?_, fun q hq => ?_, fun q hq => ?_, h.far.trans k.far⟩ <;>
    (simp only [List.mem_append, not_or] at hq)
  · rw [k.panels q hq.2, h.panels q hq.1]
  · rw [k.islands q hq.2, h.islands q hq.1]
  · rw [k.entries q hq.2, h.entries q hq.1]

theorem Dev.Around.mono {d e : Dev} {ps is ks ps' is' ks' : List Nat} (h : d.Around e ps is ks) (hp : ps ⊆ ps')
    (hi : is ⊆ is') (hk : ks ⊆ ks') : d.Around e ps' is' ks' :=
  ⟨fun q hq => h.panels q fun h' => hq (hp h'), fun q hq => h.islands q fun h' => hq (hi h'),
    fun q hq => h.entries q fun h' => hq (hk h'), h.far⟩

theorem withRow_around (d : Dev) (p : Nat) (r : ArrayRow) (ws : List F32 × List F32) :
    d.Around (d.withRow p r ws) [] [] [] := by
  rw [withRow_same]
  exact ⟨fun _ _ => rfl, fun _ _ => rfl, fun _ _ => rfl, by constructor <;> rfl⟩

/-- What the landing of a row changes: the words of its logical row, and the flags of its stream's step. -/
structure Dev.RowLanded (d e : Dev) (p i : Nat) (r : ArrayRow) (res : Fl (List F32 × List F32)) : Prop where
  bytes : ∀ y, e.byte y = (d.withRow p r res.1).byte y
  flags : e.flags = (d.raise (FlagUnit.panel p) r.job.stepTag res.2).flags
  around : d.Around e [] [i] [Ent.stickyLast, Ent.faultClassCounts]
  wide : e.wide = d.wide
  contract : e.contract = d.contract

/-- An update that breaks no hazard, of a device whose items and counters may have changed since d. -/
theorem rowLanded_landRow {d D : Dev} {p i : Nat} {r : ArrayRow} {wt xt : ElemType} {f : Island → Island}
    (h : OnlyTally (d.modIsland i f) D)
    (hw : ElemType.ofCode r.latch.typ = some wt) (hx : ElemType.ofCode r.job.typ = some xt)
    (h0 : (d.panel p).landHazard (rowKey r.mode r.phys) r.job.issue r.land = false)
    (h1 : rowsPer r.mode = 2 → (d.panel p).landHazard (rowKey r.mode r.phys + 1) r.job.issue r.land = false) :
    d.RowLanded (D.landRow p r) p i r (d.rowResult p r wt xt) ∧
      ∀ j, (D.landRow p r).island j = (d.modIsland i f).island j := by
  rw [← Dev.panel_modIsland d i f, ← h.panel] at h0 h1
  have before := (modIsland_local d i f).trans h.local
  have same : D.rowResult p r wt xt = d.rowResult p r wt xt := by
    simp only [Dev.rowResult, Dev.rowAt, read_congr before.frame.bytes]
  obtain ⟨mem, flags⟩ : D.mem = d.mem ∧ D.flags = d.flags := by
    obtain ⟨y, rfl⟩ := h
    exact ⟨rfl, rfl⟩
  have land := landRow_applies D p r wt xt hw hx h0 h1
  rw [same] at land
  generalize d.rowResult p r wt xt = res at land
  have written := withRow_around D p r res.1
  have raised := raise_local (D.withRow p r res.1) (FlagUnit.panel p) r.job.stepTag res.2
  rw [← land] at raised
  obtain ⟨hf, hwide, hc⟩ : (D.withRow p r res.1).flags = D.flags ∧ (D.withRow p r res.1).wide = D.wide ∧
      (D.withRow p r res.1).contract = D.contract := by
    rw [withRow_same]
    exact ⟨rfl, rfl, rfl⟩
  refine ⟨⟨fun y => ?_, ?_, ?_, ?_, ?_⟩, fun j => ?_⟩
  · rw [raised.frame.bytes, withRow_byte, withRow_byte, mem]
  · rw [land]
    exact flags_raise_congr (hf.trans flags) (hc.trans before.contract) _ _ _
  · exact ((before.frame.around.trans written).trans raised.frame.around).mono (by simp) (by simp) (by simp)
  · rw [raised.wide, hwide, before.wide]
  · rw [raised.contract, hc, before.contract]
  · rw [raised.frame.islands j (by simp), written.islands j (by simp), h.island]

theorem Dev.RowLanded.of_onlyTally {d e E : Dev} {p i : Nat} {r : ArrayRow} {res : Fl (List F32 × List F32)}
    {f : Island → Island} (h : d.RowLanded e p i r res) (hE : OnlyTally (e.modIsland i f) E) :
    d.RowLanded E p i r res := by
  have moved := (modIsland_local e i f).trans hE.local
  obtain ⟨t, rfl⟩ := hE
  exact ⟨fun y => h.bytes y, h.flags, (h.around.trans moved.frame.around).mono (by simp) (by simp) (by simp), h.wide,
    h.contract⟩

end Sys2Proof.Machine

open Sys2Proof Sys2Proof.Machine

theorem streamRowEnters : Certificates.StreamRowEnters := by
  intro a s j rest bs wt xt i p d x t entry l phys land hf hj hc hland hb hr hw hx hk hs
  refine occurs_of_job _ a s (fun c d => d.evStreamRow a.panel c .none) _ rfl hf fun hn => ?_
  have entered := (evStreamRow_enters d p _ j rest bs wt xt hj hc hb hr hw hx hk hs).advance hn
    (Nat.lt_of_lt_of_le hland (Nat.le_add_right _ _))
  exact ⟨entered.adds, entered.panel, entered.within.frame, entered.flags, entered.within.wide, entered.within.contract⟩

theorem streamRowLands : Certificates.StreamRowLands := by
  intro d i c p r t rest wt xt key two k r0 r1 res ha hwork hrest hw hx h0 h1
  refine ⟨fun hc y => ?_, fun hc => ?_⟩
  · have none_ : d.NoneDue i c := by
      intro u hu
      rw [ha] at hu
      rcases List.mem_cons.mp hu with rfl | hu
      · exact hc
      · exact hrest u hu
    exact (advance_frame d i c none_).bytes y
  · obtain ⟨landed, island⟩ := rowLanded_landRow
      (noteItem_onlyTally (d.modIsland i fun s => { s with agenda := rest }) t) hw hx h0 h1
    have run : (d.modIsland i fun s => { s with agenda := rest }).runItem i t =
        ((d.modIsland i fun s => { s with agenda := rest }).noteItem t).landRow p r := by
      simp only [Dev.runItem, hwork]
    have none_ : ((d.modIsland i fun s => { s with agenda := rest }).runItem i t).NoneDue i c := by
      intro u hu
      rw [run, island, Dev.island_modIsland_self] at hu
      exact hrest u hu
    have done := advance_performs d i c ha hc none_
    rw [run] at done
    obtain ⟨bytes, flags, around, wide, contract⟩ := landed.of_onlyTally done
    exact ⟨fun y => (bytes y).trans (withRow_byte d p r res.1 y), flags, around, wide, contract⟩

/-- Settles O15: a row's entry changes its panel and leaves its landing in the agenda (evStreamRow_enters); the landing
is performed in its cycle and writes the words of rowResult (rowLanded_landRow). -/
theorem streamRowApplies : Obligations.StreamRowApplies := ⟨streamRowEnters, streamRowLands⟩

end

section
/-!
PROOFS (*Number formats*). Writes of command entries: what a write that passes its checks does, and the entries of
ownership, the clears, steps and time, and PANEL_UNFENCE.
-/
namespace Sys2Proof.Machine
open Sys2Proof

/-! ### A write that passes its checks -/

/-- No check of a row reads what a path has staged. -/
theorem rowOk_setPath (d : Dev) (p : TackPath) (x : Path) (row : EntRow) (v : Nat) :
    (d.setPath p x).rowOk row v = d.rowOk row v := by
  have limits : rowLimits.map (fun q => q.2 (d.setPath p x) v) = rowLimits.map (fun q => q.2 d v) := by
    cases p <;> rfl
  rw [List.map_inj_left] at limits
  unfold Dev.rowOk
  split
  · next q hq => rw [limits q (List.mem_of_find?_eq_some hq)]
  · rfl

theorem writeStatus_setPath (d : Dev) (q p : TackPath) (x : Path) (row : EntRow) (bs : List Byte) :
    (d.setPath q x).writeStatus p row bs = d.writeStatus p row bs := by
  have access : (d.setPath q x).accessStatus row = d.accessStatus row := by cases q <;> rfl
  have may : (d.setPath q x).mayWrite p row.key (leNat bs) = d.mayWrite p row.key (leNat bs) := by cases q <;> rfl
  simp only [Dev.writeStatus, access, may, rowOk_setPath]

/-! ### Numbers as bytes -/

theorem leNat_leBytes (k n : Nat) : leNat (leBytes k n) = n % 256 ^ k := by
  induction k generalizing n with
  | zero => simp [leBytes, leNat, Nat.mod_one]
  | succ k ih =>
    rw [leBytes, leNat, ih, Nat.pow_succ', Nat.mod_mul, BitVec.toNat_ofNat]

theorem leNat_leBytes_of_lt {k n : Nat} (h : n < 2 ^ (8 * k)) : leNat (leBytes k n) = n := by
  rw [leNat_leBytes, Nat.mod_eq_of_lt]
  rwa [show (256 : Nat) = 2 ^ 8 from rfl, ← Nat.pow_mul]

/-! ### The effect of an accepted write -/

/-- The device with nothing staged on a path: what a write that comes as one command meets. -/
def Dev.unstaged (d : Dev) (p : TackPath) : Dev := d.setPath p { d.path p with stage := none }

/-- The device that shows the response to a write. -/
def Dev.responded (d : Dev) (st k : Nat) : Dev :=
  { d with tack := { d.tack with lastResponse := response 2 st k 0 0 (entryTotal k) [] } }

theorem unstaged_onlyTack (d : Dev) (p : TackPath) : OnlyTack [] d (d.unstaged p) := by
  cases p <;> exact ⟨rfl, fun _ _ => rfl⟩

theorem responded_onlyTack (d : Dev) (st k : Nat) : OnlyTack [] d (d.responded st k) := ⟨rfl, fun _ _ => rfl⟩

theorem unstaged_stage (d : Dev) (p : TackPath) : ((d.unstaged p).path p).stage = none := by
  cases p <;> rfl

/-- A write of a whole value, one that burns no fuse: where it passes every check of its row, the command entry's own
effect f of the unstaged device is what completes. -/
theorem completes_of_accepted {c : Instr} {p : TackPath} {env : TackEnv} {k st : Nat} {bs : List Byte} {s : State}
    {E : Dev} {P : Dev → Dev → Prop} (hc : exec c s = tackCommand p env k bs s) (hk : k ≠ Ent.rollbackAdvance)
    (hk' : k ≠ Ent.keyRevoke) (ha : Certificates.Accepts s.dev p k bs)
    (he : (s.dev.unstaged p).applyEntry s.fuses p env k bs = (E, st)) (hs : (E.path p).stage = none)
    (hp : P s.dev (E.responded st k)) :
    Completes c s fun d e =>
      e.tack.lastResponse = response 2 st k 0 0 (entryTotal k) [] ∧ (e.path p).stage = none ∧ P d e := by
  intro hv
  obtain ⟨hr, row, hrow, hok⟩ := ha
  refine ⟨E.responded st k, ?_, rfl, ?_, hp⟩
  · have ok : (s.dev.unstaged p).writeStatus p row bs = Status.ok := (writeStatus_setPath _ _ _ _ _ _).trans hok
    have write : writeEntry (s.dev.unstaged p, s.fuses) p env k bs = ((E, s.fuses), st) := by
      simp only [writeEntry, hrow, ok, if_true, applyWrite, hk, hk', if_false, he]
    have on : onChip (fun t => if !t.1.reaches p then t else
          let r := writeEntry (t.1.unstaged p, t.2) p env k bs
          (r.1.1.responded r.2 k, r.1.2)) s = .next (s.after (E.responded st k)) := by
      simp only [onChip, hv, hr, write, Bool.not_true, Bool.false_eq_true, if_false, if_true]
      rfl
    rw [hc]
    exact on
  · cases p <;> exact hs

theorem writesNat_of {c : Instr} {p : TackPath} {env : TackEnv} {k v st : Nat} {s : State} {P : Dev → Dev → Prop}
    (hc : exec c s = tackByte p env k v s) (hk : k ≠ Ent.rollbackAdvance) (hk' : k ≠ Ent.keyRevoke)
    (h : Certificates.Accepts s.dev p k (leBytes (entSize k) v) → ∃ E,
      (s.dev.unstaged p).applyEntry s.fuses p env k (leBytes (entSize k) v) = (E, st) ∧ (E.path p).stage = none ∧
      P s.dev (E.responded st k)) :
    Certificates.WritesNat c p k v s st P := by
  intro ha
  obtain ⟨E, he, hs, hp⟩ := h ha
  exact completes_of_accepted hc hk hk' ha he hs hp

/-! ### Fields of an entry -/

theorem testBit_putField (n lo w v i : Nat) : (putField n lo w v).testBit i =
    if i < lo then n.testBit i else if i < lo + w then v.testBit (i - lo) else n.testBit i := by
  have shape : putField n lo w v = 2 ^ lo * (2 ^ w * (n >>> (lo + w)) + v % 2 ^ w) + n % 2 ^ lo := by
    simp only [putField, Nat.shiftLeft_eq, Nat.pow_add]
    rw [Nat.mul_add, Nat.mul_left_comm, Nat.mul_comm (n >>> (lo + w)), Nat.mul_comm (v % 2 ^ w)]
  rw [shape, Nat.testBit_two_pow_mul_add _ (Nat.mod_lt _ (Nat.two_pow_pos lo)),
    Nat.testBit_two_pow_mul_add _ (Nat.mod_lt _ (Nat.two_pow_pos w))]
  by_cases h1 : i < lo
  · simp [h1]
  · by_cases h2 : i < lo + w
    · have : i - lo < w := by omega
      simp [h1, h2, this]
    · have h3 : ¬ i - lo < w := by omega
      have h4 : lo + w + (i - lo - w) = i := by omega
      simp [h1, h2, h3, h4]

/-- Reading a bit after writing one. -/
theorem bitOf_setBit (n i : Nat) (b : Bool) (j : Nat) : bitOf (setBit n i b) j = if j = i then b else bitOf n j := by
  simp only [bitOf, setBit, testBit_putField]
  by_cases h : j = i
  · subst h
    cases b <;> simp [bitNat]
  · by_cases h1 : j < i
    · simp [h, h1]
    · simp [h, h1, show ¬ j < i + 1 by omega]

/-- A bit within an entry's size reads as it was written. -/
theorem bitOf_get_put (d : Dev) {k q : Nat} (n : Nat) (hq : q < 8 * entSize k) :
    bitOf ((d.put k n).get k) q = bitOf n q := by
  rw [Dev.get_put_self]
  simp only [bitOf, Nat.testBit_mod_two_pow, hq, decide_true, Bool.true_and]

theorem testBit_getBytes (n off len i : Nat) :
    (getBytes n off len).testBit i = (decide (i < 8 * len) && n.testBit (8 * off + i)) := by
  simp [getBytes, Nat.testBit_mod_two_pow, Nat.testBit_shiftRight]

/-- A field of an entry after a write of that field: the value written, cut to the field. -/
theorem getB_putB_self (d : Dev) (k off len v : Nat) (h : off + len ≤ entSize k) :
    (d.putB k off len v).getB k off len = v % 2 ^ (8 * len) := by
  refine Nat.eq_of_testBit_eq fun i => ?_
  simp only [Dev.getB, Dev.putB, Dev.get_put_self, testBit_getBytes, Nat.testBit_mod_two_pow, putBytes, testBit_putField]
  by_cases hi : i < 8 * len
  · have h1 : 8 * off + i < 8 * entSize k := by omega
    have h2 : ¬ 8 * off + i < 8 * off := by omega
    simp [hi, h1, h2]
  · simp [hi]

/-- A field after a write of a field that does not meet it. -/
theorem getB_putB_disjoint (d : Dev) (k off len v off' len' : Nat) (h : off' + len' ≤ entSize k)
    (hd : off + len ≤ off' ∨ off' + len' ≤ off) : (d.putB k off len v).getB k off' len' = d.getB k off' len' := by
  refine Nat.eq_of_testBit_eq fun i => ?_
  simp only [Dev.getB, Dev.putB, Dev.get_put_self, testBit_getBytes, Nat.testBit_mod_two_pow, putBytes, testBit_putField]
  by_cases hi : i < 8 * len'
  · have h1 : 8 * off' + i < 8 * entSize k := by omega
    rcases hd with hd | hd
    · simp [hi, h1, show ¬ 8 * off' + i < 8 * off by omega, show ¬ 8 * off' + i < 8 * off + 8 * len by omega]
    · simp [hi, h1, show 8 * off' + i < 8 * off by omega]
  · simp [hi]

theorem getB_bump_self (d : Dev) (k off len n : Nat) (h : off + len ≤ entSize k) :
    (d.bump k off len n).getB k off len = satAdd (2 ^ (8 * len) - 1) (d.getB k off len) n := by
  unfold Dev.bump
  rw [getB_putB_self _ _ _ _ _ h, Nat.mod_eq_of_lt]
  have := Nat.two_pow_pos (8 * len)
  unfold satAdd
  omega

theorem getB_bump_disjoint (d : Dev) (k off len n off' len' : Nat) (h : off' + len' ≤ entSize k)
    (hd : off + len ≤ off' ∨ off' + len' ≤ off) : (d.bump k off len n).getB k off' len' = d.getB k off' len' :=
  getB_putB_disjoint d k off len _ off' len' h hd

theorem OnlyTack.getB {ks : List Nat} {d e : Dev} (h : OnlyTack ks d e) {k : Nat} (hk : k ∉ ks) (off len : Nat) :
    e.getB k off len = d.getB k off len := by
  unfold Dev.getB
  rw [h.entries k hk]

/-! ### What records and events leave of the Tack -/

/-- Nothing staged or shown on a path changes. -/
structure Dev.SamePaths (d e : Dev) : Prop where
  host : e.tack.host = d.tack.host
  bridle : e.tack.bridle = d.tack.bridle

theorem Dev.SamePaths.trans {d e f : Dev} (h : d.SamePaths e) (k : e.SamePaths f) : d.SamePaths f :=
  ⟨k.host.trans h.host, k.bridle.trans h.bridle⟩

theorem Dev.SamePaths.stage {d e : Dev} {p : TackPath} (h : (d.unstaged p).SamePaths e) : (e.path p).stage = none := by
  cases p with
  | host => exact (congrArg Path.stage h.host).trans rfl
  | bridle => exact (congrArg Path.stage h.bridle).trans rfl

theorem bridleEvent_tack (d : Dev) (kind code seq : Nat) :
    d.SamePaths (d.bridleEvent kind code seq) ∧ (d.bridleEvent kind code seq).tack.eventCause = d.tack.eventCause ∧
      (d.bridleEvent kind code seq).tack.newestRec = d.tack.newestRec := by
  unfold Dev.bridleEvent
  dsimp only
  repeat' split
  all_goals exact ⟨⟨rfl, rfl⟩, rfl, rfl⟩

theorem hostEvent_tack (d : Dev) (b : Nat) :
    d.SamePaths (d.hostEvent b) ∧ bitOf (d.hostEvent b).tack.eventCause b = true ∧
      (d.hostEvent b).tack.newestRec = d.tack.newestRec := by
  have cause (n : Nat) : bitOf (setBit n b true) b = true := by rw [bitOf_setBit, if_pos rfl]
  unfold Dev.hostEvent Dev.msix
  dsimp only
  repeat' split
  all_goals exact ⟨⟨rfl, rfl⟩, cause _, rfl⟩

/-- A fault is recorded, new or as a repetition, as the newest record (R546), and no path changes. -/
theorem fault_tack (d : Dev) (code unit detail : Nat) :
    d.SamePaths (d.fault code unit detail) ∧ Certificates.Recorded (d.fault code unit detail) code unit := by
  unfold Dev.fault
  dsimp only
  generalize hd1 : (if bitOf ((d.bump Ent.faultClassCounts (4 * (code / 256 - 1)) 4 1).get Ent.faultNMask) (code / 256) = true
    then _ else d.bump Ent.faultClassCounts (4 * (code / 256 - 1)) 4 1) = d1
  have h1 : d.SamePaths d1 := by
    subst hd1
    split <;> exact ⟨rfl, rfl⟩
  have enter (x : Dev) (r : FaultRec) (n : Nat) (hx : d1.SamePaths x) (hr : x.tack.newestRec = some r) (hc : r.code = code)
      (hu : r.unit = unit) : d.SamePaths (((x.hostEvent 1).bridleEvent 1 code n).count 0x409 1) ∧
        Certificates.Recorded (((x.hostEvent 1).bridleEvent 1 code n).count 0x409 1) code unit := by
    obtain ⟨hp, -, hn⟩ := hostEvent_tack x 1
    obtain ⟨bp, -, bn⟩ := bridleEvent_tack (x.hostEvent 1) 1 code n
    exact ⟨((h1.trans hx).trans hp).trans ⟨bp.host, bp.bridle⟩, r, (bn.trans hn).trans hr, hc, hu⟩
  split
  · next r rs _ =>
    split
    · next same => exact ⟨⟨h1.host, h1.bridle⟩, _, rfl, same.1, same.2.1⟩
    · exact enter _ _ _ ⟨rfl, rfl⟩ rfl rfl rfl
  · exact enter _ _ _ ⟨rfl, rfl⟩ rfl rfl rfl

/-! ### Ownership -/

theorem timeNow_lt (d : Dev) : d.timeNow < 2 ^ (8 * 12) := by
  have h : d.time.clock % clockSecond < 2 ^ 48 :=
    Nat.lt_trans (Nat.mod_lt _ (by decide)) (by decide)
  simp only [Dev.timeNow, timeWord, Nat.shiftLeft_eq]
  omega

/-- OWNER with the counts, the time and the path in OWNER_LOG, before the events of the change. -/
def Dev.ownerLogged (d : Dev) (p : TackPath) (v : Nat) : Dev :=
  (((d.put Ent.owner v).bump Ent.ownerLog 0 4 1).putB Ent.ownerLog 8 12 d.timeNow).putB Ent.ownerLog 20 1
    (match p with | .host => 1 | .bridle => 2)

/-- A seizure: counted, what the host had staged is discarded, and 0x0930 is recorded (R530). -/
def Dev.seized (d : Dev) : Dev := ((d.bump Ent.ownerLog 4 4 1).dropStage).fault 0x0930 Unit.bridle 0

theorem writeOwner_eq (d : Dev) (p : TackPath) (v : Nat) : d.writeOwner p v = if v = d.get Ent.owner then d
    else ((if v = 2 then (d.ownerLogged p v).seized else d.ownerLogged p v).hostEvent 3).bridleEvent 3 0 0 := rfl

theorem ownerLogged_onlyTack (d : Dev) (p : TackPath) (v : Nat) :
    OnlyTack [Ent.owner, Ent.ownerLog] d (d.ownerLogged p v) :=
  ((((put_onlyTack d Ent.owner v).trans (bump_onlyTack _ Ent.ownerLog 0 4 1)).trans (putB_onlyTack _ _ _ _ _)).trans
    (putB_onlyTack _ _ _ _ _)).mono (by simp)

theorem dropStage_onlyTack (d : Dev) : OnlyTack [] d d.dropStage := ⟨rfl, fun _ _ => rfl⟩

theorem seized_onlyTack (d : Dev) : OnlyTack [Ent.ownerLog, Ent.faultClassCounts] d d.seized :=
  (((bump_onlyTack d Ent.ownerLog 4 4 1).trans (dropStage_onlyTack _)).trans (fault_onlyTack _ _ _ _)).mono (by simp)

theorem size_ownerLog : entSize Ent.ownerLog = 32 := by decide

theorem ownerLogged_log (d : Dev) (p : TackPath) (v : Nat) :
    (d.ownerLogged p v).getB Ent.ownerLog 0 4 = satAdd (2 ^ 32 - 1) (d.getB Ent.ownerLog 0 4) 1 ∧
      (d.ownerLogged p v).getB Ent.ownerLog 8 12 = d.timeNow ∧
      (d.ownerLogged p v).getB Ent.ownerLog 20 1 = (match p with | .host => 1 | .bridle => 2) := by
  have hs := size_ownerLog
  unfold Dev.ownerLogged
  refine ⟨?_, ?_, ?_⟩
  · rw [getB_putB_disjoint _ _ _ _ _ _ _ (by omega) (by omega), getB_putB_disjoint _ _ _ _ _ _ _ (by omega) (by omega),
      getB_bump_self _ _ _ _ _ (by omega), (put_onlyTack d Ent.owner v).getB (by decide)]
  · rw [getB_putB_disjoint _ _ _ _ _ _ _ (by omega) (by omega), getB_putB_self _ _ _ _ _ (by omega),
      Nat.mod_eq_of_lt (timeNow_lt d)]
  · rw [getB_putB_self _ _ _ _ _ (by omega)]
    cases p <;> rfl

/-- A seizure leaves what OWNER_LOG shows of the change. -/
theorem seized_log (d : Dev) {off len : Nat} (h : off + len ≤ 32) (hd : off + len ≤ 4 ∨ 8 ≤ off) :
    d.seized.getB Ent.ownerLog off len = d.getB Ent.ownerLog off len := by
  have hs := size_ownerLog
  unfold Dev.seized
  rw [(fault_onlyTack _ _ _ _).getB (by decide), (dropStage_onlyTack _).getB (by simp),
    getB_bump_disjoint _ _ _ _ _ _ _ (by omega) (by omega)]

theorem seized_tack (d : Dev) : Certificates.Recorded d.seized 0x0930 Unit.bridle ∧
    d.seized.tack.host = d.dropStage.tack.host ∧ d.seized.tack.bridle = d.tack.bridle := by
  obtain ⟨⟨hh, hb⟩, hr⟩ := fault_tack ((d.bump Ent.ownerLog 4 4 1).dropStage) 0x0930 Unit.bridle 0
  exact ⟨hr, hh, hb⟩

/-- What a change of OWNER leaves (R528, R530): the owner, OWNER_LOG, host event 3, and of a seizure its record and the
discarded stage. -/
structure Dev.OwnerChanged (d e : Dev) (p : TackPath) (v : Nat) : Prop where
  only : OnlyTack [Ent.owner, Ent.ownerLog, Ent.faultClassCounts] d e
  owner : e.get Ent.owner = v
  changes : e.getB Ent.ownerLog 0 4 = satAdd (2 ^ 32 - 1) (d.getB Ent.ownerLog 0 4) 1
  time : e.getB Ent.ownerLog 8 12 = d.timeNow
  path : e.getB Ent.ownerLog 20 1 = (match p with | .host => 1 | .bridle => 2)
  event : bitOf e.tack.eventCause 3 = true
  seizure : v = 2 → Certificates.Recorded e 0x0930 Unit.bridle ∧ e.tack.host = d.dropStage.tack.host
  bridle : e.tack.bridle = d.tack.bridle
  host : v ≠ 2 → e.tack.host = d.tack.host

theorem Dev.OwnerChanged.responded {d e : Dev} {p : TackPath} {v : Nat} (h : d.OwnerChanged e p v) (st k : Nat) :
    d.OwnerChanged (e.responded st k) p v := by
  have r := responded_onlyTack e st k
  refine ⟨(h.only.trans r).mono (by simp), ?_, ?_, ?_, ?_, h.event, fun h2 => ⟨?_, ?_⟩, h.bridle, h.host⟩
  · rw [r.entries _ (by simp), h.owner]
  · rw [r.getB (by simp), h.changes]
  · rw [r.getB (by simp), h.time]
  · rw [r.getB (by simp), h.path]
  · exact (h.seizure h2).1
  · exact (h.seizure h2).2

/-- The events of the change, after OWNER and its log have been written, with or without a seizure. -/
theorem ownerChanged_events (d : Dev) (p : TackPath) (v : Nat) (hv : v < 256) :
    d.OwnerChanged (((if v = 2 then (d.ownerLogged p v).seized else d.ownerLogged p v).hostEvent 3).bridleEvent 3 0 0)
      p v := by
  obtain ⟨changes, time, path⟩ := ownerLogged_log d p v
  have logged := ownerLogged_onlyTack d p v
  have size : entSize Ent.owner = 1 := by decide
  have owner : (d.ownerLogged p v).get Ent.owner = v := by
    unfold Dev.ownerLogged
    rw [Dev.get_putB_ne _ _ _ _ _ (by decide), Dev.get_putB_ne _ _ _ _ _ (by decide),
      Dev.get_bump_ne _ _ _ _ _ (by decide), Dev.get_put_self, size]
    exact Nat.mod_eq_of_lt hv
  generalize hm : (if v = 2 then (d.ownerLogged p v).seized else d.ownerLogged p v) = m
  have mid : OnlyTack [Ent.ownerLog, Ent.faultClassCounts] (d.ownerLogged p v) m ∧
      (∀ off len, off + len ≤ 32 → off + len ≤ 4 ∨ 8 ≤ off →
        m.getB Ent.ownerLog off len = (d.ownerLogged p v).getB Ent.ownerLog off len) ∧
      (v = 2 → Certificates.Recorded m 0x0930 Unit.bridle ∧ m.tack.host = d.dropStage.tack.host) ∧
      m.tack.bridle = d.tack.bridle ∧ (v ≠ 2 → m.tack.host = d.tack.host) := by
    subst hm
    by_cases h2 : v = 2
    · obtain ⟨hr, hh, hb⟩ := seized_tack (d.ownerLogged p v)
      rw [if_pos h2]
      exact ⟨seized_onlyTack _, fun off len h hd => seized_log _ h hd, fun _ => ⟨hr, hh⟩, hb, fun h => absurd h2 h⟩
    · rw [if_neg h2]
      exact ⟨(OnlyTack.refl _).mono (by simp), fun _ _ _ _ => rfl, fun h => absurd h h2, rfl, fun _ => rfl⟩
  obtain ⟨only, log, seizure, bridle, host⟩ := mid
  have events := (hostEvent_onlyTack m 3).trans (bridleEvent_onlyTack (m.hostEvent 3) 3 0 0)
  obtain ⟨hp, hc, hn⟩ := hostEvent_tack m 3
  obtain ⟨bp, bc, bn⟩ := bridleEvent_tack (m.hostEvent 3) 3 0 0
  have paths := hp.trans bp
  refine ⟨((logged.trans only).trans events).mono (by simp), ?_, ?_, ?_, ?_, by rw [bc, hc], fun h2 => ?_,
    paths.bridle.trans bridle, fun h2 => paths.host.trans (host h2)⟩
  · rw [events.entries _ (by simp), only.entries _ (by decide), owner]
  · rw [events.getB (by simp), log _ _ (by decide) (by decide), changes]
  · rw [events.getB (by simp), log _ _ (by decide) (by decide), time]
  · rw [events.getB (by simp), log _ _ (by decide) (by decide), path]
  · obtain ⟨⟨r, hr, hcode⟩, hh⟩ := seizure h2
    exact ⟨⟨r, (bn.trans hn).trans hr, hcode⟩, paths.host.trans hh⟩

/-- Only the Bridle may seize: the host's own write of 2 is not accepted (R529). -/
theorem bridle_of_accepted_seizure {d : Dev} {p : TackPath} (h : Certificates.Accepts d p Ent.owner (leBytes 1 2)) :
    p = .bridle := by
  obtain ⟨-, row, hrow, hok⟩ := h
  cases p with
  | bridle => rfl
  | host =>
    have key : row.key = Ent.owner := by
      have := List.find?_some hrow
      simpa using this
    have may : d.mayWrite .host row.key (leNat (leBytes 1 2)) = false := by
      rw [key]
      simp [Dev.mayWrite, leNat_leBytes]
    unfold Dev.writeStatus at hok
    simp only [may, Bool.not_false, if_true] at hok
    split at hok
    · next ha => simp [hok] at ha
    · exact absurd hok (by decide)

theorem applyEntry_owner (d : Dev) (f : Fuses) (p : TackPath) (env : TackEnv) (bs : List Byte) :
    d.applyEntry f p env Ent.owner bs = (d.writeOwner p (leNat bs), Status.ok) := rfl

end Sys2Proof.Machine

open Sys2Proof Sys2Proof.Machine

theorem ownerChanges : Certificates.OwnerChanges := by
  intro p v s hv
  refine writesNat_of (env := TackEnv.plain) rfl (by decide) (by decide) fun ha => ?_
  have size : entSize Ent.owner = 1 := by decide
  rw [size] at ha ⊢
  rw [applyEntry_owner, leNat_leBytes_of_lt (by simpa using hv), writeOwner_eq]
  have start := unstaged_onlyTack s.dev p
  have same : (s.dev.unstaged p).get Ent.owner = s.dev.get Ent.owner := start.entries _ (by simp)
  have time : (s.dev.unstaged p).timeNow = s.dev.timeNow := by cases p <;> rfl
  rw [same]
  by_cases hsame : v = s.dev.get Ent.owner
  · rw [if_pos hsame]
    have none_ := (start.trans (responded_onlyTack _ Status.ok Ent.owner)).mono (ls := []) (by simp)
    exact ⟨_, rfl, unstaged_stage _ _, none_.mono (by simp), (none_.entries _ (by simp)).trans hsame.symm,
      fun _ => none_, fun h => absurd hsame h⟩
  · rw [if_neg hsame]
    have changed := ownerChanged_events (s.dev.unstaged p) p v hv
    generalize (((if v = 2 then ((s.dev.unstaged p).ownerLogged p v).seized
      else (s.dev.unstaged p).ownerLogged p v).hostEvent 3).bridleEvent 3 0 0) = E at changed
    have bridle : v = 2 → p = .bridle := fun h => bridle_of_accepted_seizure (h ▸ ha)
    have staged : (E.path p).stage = none := by
      cases p with
      | bridle => exact (congrArg Path.stage changed.bridle).trans rfl
      | host => exact (congrArg Path.stage (changed.host fun h => by simpa using bridle h)).trans rfl
    obtain ⟨only, owner, changes, htime, path, event, seizure, -, -⟩ := changed.responded Status.ok Ent.owner
    refine ⟨E, rfl, staged, (start.trans only).mono (by simp), owner, fun h => absurd h hsame, fun _ =>
      ⟨?_, htime.trans time, path, event, fun h => ⟨(seizure h).1, fun x hx => ?_⟩⟩⟩
    · rw [changes, start.getB (by simp)]
    · obtain rfl := bridle h
      have dropped : (s.dev.unstaged .bridle).dropStage.tack.host.stage = some { x with data := [], dropped := true } := by
        simp only [Dev.dropStage, Dev.unstaged, Dev.setPath, hx, Option.map_some]
      exact (congrArg Path.stage (seizure h).2).trans dropped

end

section
/-!
PROOFS (*Number formats*). The clears, and the step and time entries.
-/
namespace Sys2Proof.Machine
open Sys2Proof

/-- A change beside the Tack and the Tally meets the same frame before and after. -/
theorem OnlyTack.map {ks : List Nat} {d e : Dev} (h : OnlyTack ks d e) (f : Dev → Dev)
    (hf : ∀ (d : Dev) t u, f { d with tack := t, tally := u } = { f d with tack := t, tally := u }) :
    OnlyTack ks (f d) (f e) := by
  have tack (x : Dev) : (f x).tack = x.tack ∧ (f x).tally = x.tally := by
    have := hf x x.tack x.tally
    rw [this]
    exact ⟨rfl, rfl⟩
  have get (x : Dev) (k : Nat) : (f x).get k = x.get k := by unfold Dev.get; rw [(tack x).1]
  refine ⟨?_, fun k hk => by rw [get, get, h.entries k hk]⟩
  rw [(tack e).1, (tack e).2, ← hf, ← h.same]

/-! ### The clears -/

/-- A command entry's value reaches its effect as it was written. -/
theorem writesNat_value {c : Instr} {p : TackPath} {env : TackEnv} {k v size : Nat} {s : State}
    {P : Dev → Dev → Prop} {act : Dev → Nat → Dev} (hc : exec c s = tackByte p env k v s) (hsize : entSize k = size)
    (hv : v < 2 ^ (8 * size)) (hk : k ≠ Ent.rollbackAdvance) (hk' : k ≠ Ent.keyRevoke)
    (ha : ∀ bs, (s.dev.unstaged p).applyEntry s.fuses p env k bs = (act (s.dev.unstaged p) (leNat bs), Status.ok))
    (hs : (s.dev.unstaged p).SamePaths (act (s.dev.unstaged p) v))
    (hp : P s.dev ((act (s.dev.unstaged p) v).responded Status.ok k)) :
    Certificates.WritesNat c p k v s Status.ok P := by
  refine writesNat_of hc hk hk' fun _ => ⟨act (s.dev.unstaged p) v, ?_, hs.stage, hp⟩
  rw [ha, hsize, leNat_leBytes_of_lt hv]

/-- A table after a filter by key. -/
theorem sget_filter_key {α : Type} (z : α) (q : Nat → Bool) (m : Sparse α) (j : Nat) :
    sget z (m.filter fun e => q e.1) j = if q j = true then sget z m j else z := by
  induction m with
  | nil => simp
  | cons e m ih =>
    obtain ⟨k, v⟩ := e
    by_cases hk : q k = true
    · simp only [List.filter_cons, hk, if_true, sget, ih]
      by_cases hj : j = k
      · subst hj; simp [hk]
      · simp [hj]
    · rw [Bool.not_eq_true] at hk
      simp only [List.filter_cons, hk, Bool.false_eq_true, if_false, ih, sget]
      by_cases hj : j = k
      · subst hj; simp [hk]
      · simp [hj]

theorem clearTally_onlyTack (d : Dev) (v : Nat) : OnlyTack [] d (d.clearTally v) := ⟨rfl, fun _ _ => rfl⟩

/-- TALLY_CLEAR zeroes the counters of the groups it names, and no other (R601). -/
theorem clearTally_counters (d : Dev) (v n g : Nat) (h : tallyGroup n = some g) :
    sget 0 (d.clearTally v).tally.counters n = if bitOf v g then 0 else sget 0 d.tally.counters n := by
  have := sget_filter_key 0 (fun n => match tallyGroup n with | some g => !bitOf v g | none => true) d.tally.counters n
  simp only [h] at this
  refine this.trans ?_
  cases bitOf v g <;> rfl

theorem stickyClear_onlyTack (d : Dev) :
    OnlyTack [Ent.stickyLast] { d with flags := { d.flags with sets := [] } } d.stickyClear := put_onlyTack _ _ _

theorem put_samePaths (d : Dev) (k v : Nat) : d.SamePaths (d.put k v) := ⟨rfl, rfl⟩

theorem stickyClear_samePaths (d : Dev) : d.SamePaths d.stickyClear := by
  unfold Dev.stickyClear
  exact ⟨(put_samePaths _ _ _).host, (put_samePaths _ _ _).bridle⟩

theorem stickyClear_stickyLast (d : Dev) : d.stickyClear.get Ent.stickyLast = 0 := by
  unfold Dev.stickyClear
  rw [Dev.get_put_self]
  exact Nat.zero_mod _

theorem logClear_onlyTack (d : Dev) : OnlyTack [] d d.logClear := ⟨rfl, fun _ _ => rfl⟩

theorem faultNClear_onlyTack (d : Dev) : OnlyTack [] d d.faultNClear := ⟨rfl, fun _ _ => rfl⟩

/-! ### Steps and time -/

theorem stepRebase_onlyTack (d : Dev) (v : Nat) : OnlyTack [Ent.stepCounter]
    { d with pat := (d.stepRebase v).pat, contract := (d.stepRebase v).contract } (d.stepRebase v) :=
  ⟨rfl, fun _ hk => Dev.get_put_ne d Ent.stepCounter (d.get Ent.stepCounter - v) (by simpa using hk)⟩

theorem stepRebase_samePaths (d : Dev) (v : Nat) : d.SamePaths (d.stepRebase v) := ⟨rfl, rfl⟩

theorem stepRebase_stepCounter (d : Dev) (v : Nat) :
    (d.stepRebase v).get Ent.stepCounter = (d.get Ent.stepCounter - v) % 2 ^ 32 :=
  Dev.get_put_self d Ent.stepCounter _

/-- Every start beat stays where it was: what the step number loses is kept beside FIRST_STEP once that is 0 (R211). -/
theorem stepRebase_startBeatOf (d : Dev) (v k : Nat) (h : v ≤ k) :
    (d.stepRebase v).startBeatOf (k - v) = d.startBeatOf k := by
  have steps : k - v + (d.pat.rebased + (v - d.pat.firstStep)) - (d.pat.firstStep - v) =
      k + d.pat.rebased - d.pat.firstStep := by omega
  show d.pat.startBeat + (k - v + (d.pat.rebased + (v - d.pat.firstStep)) - (d.pat.firstStep - v)) * d.pat.stepBeats = _
  rw [steps]
  rfl

theorem timeSet_onlyTack (d : Dev) (v : Nat) : OnlyTack [] { d with time := (d.timeSet v).time } (d.timeSet v) := by
  unfold Dev.timeSet
  split <;> exact ⟨rfl, fun _ _ => rfl⟩

theorem timeSet_samePaths (d : Dev) (v : Nat) : d.SamePaths (d.timeSet v) := by
  unfold Dev.timeSet
  split <;> exact ⟨rfl, rfl⟩

theorem timeSet_time (d : Dev) (v : Nat) : (d.timeSet v).time = if d.timeSource = 3 then
      { d.time with clock := v * clockSecond + d.time.clock % clockSecond, setPending := none }
    else { d.time with setPending := some v } := by
  unfold Dev.timeSet
  split <;> rfl

/-- The start beat of a step is over with no run begun at it: only the contract and the step's entries move (R228). -/
theorem passStep_onlyTack (d : Dev) (n : Nat) : OnlyTack [Ent.stepCounter, Ent.faultStep]
    { d with contract := (d.passStep n).contract } (d.passStep n) := by
  unfold Dev.passStep
  split
  · have moved := (put_onlyTack d Ent.stepCounter n).trans (bump_onlyTack _ Ent.faultStep 0 4 1)
    exact (moved.map (fun x => { x with contract := { d.contract with nextStep := n + 1 } }) fun _ _ _ => rfl).mono
      (by simp)
  · exact (OnlyTack.refl d).mono (by simp)

theorem passStep_tack (d : Dev) (n : Nat) :
    d.SamePaths (d.passStep n) ∧ (d.passStep n).tack.newestRec = d.tack.newestRec := by
  unfold Dev.passStep
  split <;> exact ⟨⟨rfl, rfl⟩, rfl⟩

/-- RUN_START_STEP written, and what follows where the device is loaded. -/
def Dev.writeRunStart (d : Dev) (v : Nat) : Dev := (d.put Ent.runStartStep v).afterWrite Ent.runStartStep

/-- The start beat of the step that a value of RUN_START_STEP names is past on a loaded device (R228). -/
def Dev.StartPast (d : Dev) (v : Nat) : Prop :=
  d.inState [St.loaded, St.adopting] = true ∧ d.pat.loaded = true ∧
    d.startBeat (if v = 0 then d.pat.firstStep else v) ≤ ((d.get Ent.logicalBeat : Nat) : Int)

theorem runStartStep_put (d : Dev) (v : Nat) (hv : v < 2 ^ 32) :
    (d.put Ent.runStartStep v).get Ent.runStartStep = v := by
  rw [Dev.get_put_self, show entSize Ent.runStartStep = 4 by decide]
  exact Nat.mod_eq_of_lt hv

theorem writeRunStart_eq (d : Dev) (v : Nat) (hv : v < 2 ^ 32) [Decidable (d.StartPast v)] :
    d.writeRunStart v = if d.StartPast v then
      ((d.put Ent.runStartStep v).fault 0x0508 Unit.device (if v = 0 then d.pat.firstStep else v)).passStep
        (if v = 0 then d.pat.firstStep else v)
    else d.put Ent.runStartStep v := by
  have value := runStartStep_put d v hv
  have state : (d.put Ent.runStartStep v).inState [St.loaded, St.adopting] = d.inState [St.loaded, St.adopting] := by
    simp only [Dev.inState, Dev.devState, Dev.get_put_ne d _ v (show Ent.deviceState ≠ Ent.runStartStep by decide)]
  have beat : (d.put Ent.runStartStep v).beat = d.get Ent.logicalBeat := Dev.get_put_ne d _ v (by decide)
  have step : (d.put Ent.runStartStep v).runStep = if v = 0 then d.pat.firstStep else v := by
    simp only [Dev.runStep, value]
    rfl
  have start (n : Nat) : (d.put Ent.runStartStep v).startBeat n = d.startBeat n := rfl
  have after : d.writeRunStart v = if (d.put Ent.runStartStep v).inState [St.loaded, St.adopting] = true then
      (d.put Ent.runStartStep v).checkRunStep else d.put Ent.runStartStep v := rfl
  rw [after, state]
  unfold Dev.checkRunStep
  rw [step, beat, start]
  unfold Dev.StartPast
  by_cases h1 : d.inState [St.loaded, St.adopting] = true <;> by_cases h2 : d.pat.loaded = true <;>
    simp [h1, h2]

theorem writeRunStart_ahead (d : Dev) (v : Nat) (hv : v < 2 ^ 32) (h : ¬ d.StartPast v) :
    d.writeRunStart v = d.put Ent.runStartStep v := by
  classical
  rw [writeRunStart_eq d v hv, if_neg h]

/-- A start step whose start beat is past is recorded and passed. -/
theorem writeRunStart_past (d : Dev) (v : Nat) (hv : v < 2 ^ 32) (h : d.StartPast v) :
    OnlyTack [Ent.runStartStep, Ent.faultClassCounts, Ent.stepCounter, Ent.faultStep]
        { d with contract := (d.writeRunStart v).contract } (d.writeRunStart v) ∧
      (d.writeRunStart v).get Ent.runStartStep = v ∧ d.SamePaths (d.writeRunStart v) ∧
      Certificates.Recorded (d.writeRunStart v) 0x0508 Unit.device := by
  classical
  rw [writeRunStart_eq d v hv, if_pos h]
  generalize (if v = 0 then d.pat.firstStep else v) = n
  have written := put_onlyTack d Ent.runStartStep v
  have recorded := fault_onlyTack (d.put Ent.runStartStep v) 0x0508 Unit.device n
  obtain ⟨hp, r, hr, hc⟩ := fault_tack (d.put Ent.runStartStep v) 0x0508 Unit.device n
  obtain ⟨pp, pn⟩ := passStep_tack ((d.put Ent.runStartStep v).fault 0x0508 Unit.device n) n
  have passed := passStep_onlyTack ((d.put Ent.runStartStep v).fault 0x0508 Unit.device n) n
  refine ⟨?_, ?_, ((put_samePaths d _ v).trans hp).trans pp, r, pn.trans hr, hc⟩
  · exact (((written.trans recorded).map (fun x => { x with contract := _ }) fun _ _ _ => rfl).trans passed).mono
      (by simp)
  · rw [passed.entries _ (by decide)]
    exact (recorded.entries _ (by decide)).trans (runStartStep_put d v hv)

end Sys2Proof.Machine

open Sys2Proof Sys2Proof.Machine

theorem clearsClear : Certificates.ClearsClear := by
  intro p s
  have start := unstaged_onlyTack s.dev p
  refine ⟨?_, ?_, ?_, ?_, fun v hv => ?_⟩
  · refine writesNat_value (act := fun d v => if v = 1 then d.stickyClear else d) (env := TackEnv.plain) rfl
      (show entSize Ent.stickyClear = 1 by decide) (by decide) (by decide) (by decide) (fun _ => rfl)
      (stickyClear_samePaths _) ?_
    have before := start.map (fun d => { d with flags := { d.flags with sets := [] } }) fun _ _ _ => rfl
    exact ⟨((before.trans (stickyClear_onlyTack _)).trans (responded_onlyTack _ _ _)).mono (by simp),
      ((responded_onlyTack _ _ _).entries Ent.stickyLast (by simp)).trans (stickyClear_stickyLast _)⟩
  · exact writesNat_value (act := fun d v => if v = 1 then d.stickyClear else d) (env := TackEnv.plain) rfl
      (show entSize Ent.stickyClear = 1 by decide) (by decide) (by decide) (by decide) (fun _ => rfl) ⟨rfl, rfl⟩
      ((start.trans (responded_onlyTack _ _ _)).mono (by simp))
  · exact writesNat_value (act := fun d v => if v = 1 then d.logClear else d) (env := TackEnv.plain) rfl
      (show entSize Ent.faultLogClear = 1 by decide) (by decide) (by decide) (by decide) (fun _ => rfl) ⟨rfl, rfl⟩
      ⟨((start.trans (logClear_onlyTack _)).trans (responded_onlyTack _ _ _)).mono (by simp), rfl, by cases p <;> rfl, by cases p <;> rfl,
        by cases p <;> rfl⟩
  · exact writesNat_value (act := fun d v => if v = 1 then d.faultNClear else d) (env := TackEnv.plain) rfl
      (show entSize Ent.faultNClear = 1 by decide) (by decide) (by decide) (by decide) (fun _ => rfl) ⟨rfl, rfl⟩
      ⟨((start.trans (faultNClear_onlyTack _)).trans (responded_onlyTack _ _ _)).mono (by simp), rfl, by cases p <;> rfl⟩
  · refine writesNat_value (act := Dev.clearTally) (env := TackEnv.plain) rfl
      (show entSize Ent.tallyClear = 4 by decide) hv (by decide) (by decide) (fun _ => rfl) ⟨rfl, rfl⟩
      ⟨((start.trans (clearTally_onlyTack _ v)).trans (responded_onlyTack _ _ _)).mono (by simp), fun n g h => ?_, ?_⟩
    · exact (clearTally_counters (s.dev.unstaged p) v n g h).trans (by cases p <;> rfl)
    · cases p <;> exact ⟨rfl, rfl, rfl⟩

theorem stepsAndSeconds : Certificates.StepsAndSeconds := by
  intro p v s
  have start := unstaged_onlyTack s.dev p
  refine ⟨fun hv => ?_, fun hv => ?_, fun hv => ?_⟩
  · refine writesNat_value (act := Dev.stepRebase) (env := TackEnv.plain) rfl (show entSize Ent.stepRebase = 4 by decide)
      hv (by decide) (by decide) (fun _ => rfl) (stepRebase_samePaths _ v) ⟨?_, ?_, ?_, ?_, fun k hk => ?_⟩
    · have before := start.map (fun x => { x with
        pat := ((s.dev.unstaged p).stepRebase v).pat, contract := ((s.dev.unstaged p).stepRebase v).contract })
        fun _ _ _ => rfl
      exact ((before.trans (stepRebase_onlyTack _ v)).trans (responded_onlyTack _ _ _)).mono (by simp)
    · rw [(responded_onlyTack _ _ _).entries _ (by simp), stepRebase_stepCounter, start.entries _ (by simp)]
    · cases p <;> rfl
    · cases p <;> rfl
    · exact (stepRebase_startBeatOf (s.dev.unstaged p) v k hk).trans (by cases p <;> rfl)
  · refine writesNat_value (act := Dev.writeRunStart) (env := TackEnv.plain) rfl
      (show entSize Ent.runStartStep = 4 by decide) hv (by decide) (by decide) (fun _ => rfl) ?_ ?_
    · by_cases h : (s.dev.unstaged p).StartPast v
      · exact (writeRunStart_past _ v hv h).2.2.1
      · exact writeRunStart_ahead _ v hv h ▸ put_samePaths _ _ v
    · have past : (s.dev.unstaged p).StartPast v ↔ s.dev.StartPast v := by cases p <;> rfl
      refine ⟨?_, fun h => ?_, fun h => ?_⟩
      · rw [(responded_onlyTack _ _ _).entries _ (by simp)]
        by_cases h : (s.dev.unstaged p).StartPast v
        · exact (writeRunStart_past _ v hv h).2.1
        · rw [writeRunStart_ahead _ v hv h, runStartStep_put _ v hv]
      · rw [writeRunStart_ahead _ v hv fun h' => h (past.mp h')]
        exact ((start.trans (put_onlyTack _ _ v)).trans (responded_onlyTack _ _ _)).mono (by simp)
      · obtain ⟨only, -, -, r, hr, hc⟩ := writeRunStart_past _ v hv (past.mpr h)
        have before := start.map (fun x => { x with contract := ((s.dev.unstaged p).writeRunStart v).contract })
          fun _ _ _ => rfl
        exact ⟨⟨r, hr, hc⟩, ((before.trans only).trans (responded_onlyTack _ _ _)).mono (by simp)⟩
  · have source : (s.dev.unstaged p).timeSource = s.dev.timeSource := by cases p <;> rfl
    have time : (s.dev.unstaged p).time = s.dev.time := by cases p <;> rfl
    refine writesNat_value (act := Dev.timeSet) (env := TackEnv.plain) rfl (show entSize Ent.timeSetS = 8 by decide)
      (Nat.lt_trans hv (by decide)) (by decide) (by decide) (fun _ => rfl) (timeSet_samePaths _ v) ⟨?_, fun h => ?_, fun h => ?_⟩
    · have before := start.map (fun x => { x with time := ((s.dev.unstaged p).timeSet v).time }) fun _ _ _ => rfl
      exact ((before.trans (timeSet_onlyTack _ v)).trans (responded_onlyTack _ _ _)).mono (by simp)
    · have clock := timeSet_time (s.dev.unstaged p) v
      rw [source, if_pos h, time] at clock
      exact ⟨congrArg TimeState.clock clock, congrArg TimeState.setPending clock⟩
    · have pending := timeSet_time (s.dev.unstaged p) v
      rw [source, if_neg h, time] at pending
      exact pending

end

section
/-!
PROOFS (*Number formats*). PANEL_UNFENCE, and the statement about the command entries.
-/
namespace Sys2Proof.Machine
open Sys2Proof

/-! ### PANEL_UNFENCE -/

/-- What the reset of a panel leaves (R86): it is not halted, frozen or held, no other panel, no byte and nothing far
changes, and no dictionary entry but the panel's halt code. -/
structure Dev.PanelReset (d e : Dev) (p : Nat) : Prop where
  halted : (e.panel p).halted = false
  frozen : (e.panel p).frozen = false
  held : (e.panel p).held = none
  panels : ∀ q, q ≠ p → e.panel q = d.panel q
  bytes : ∀ a, e.byte a = d.byte a
  far : d.SameFar e
  paths : d.SamePaths e

/-- A panel's registers after a reset. -/
def Panel.afterReset (x : Panel) : Panel :=
  { Panel.reset with
    vconst := x.vconst, pairMode := x.pairMode, fillB := x.fillB, lastErrorStep := x.lastErrorStep, accTest := x.accTest,
    alarm0 := x.alarm0, alarm1 := x.alarm1, lastIssue := x.lastIssue }

theorem panelReset_panel (d : Dev) (p : Nat) : (d.panelReset p).panel p = (d.panel p).afterReset :=
  Dev.panel_modPanel_self d p Panel.afterReset

/-- A reset reaches the panel, its island and, of the dictionary, the panel's halt code. -/
theorem panelReset_local (d : Dev) (p : Nat) : d.Local (d.panelReset p) [p] [islandOf p] [Ent.panelHaltCode] := by
  unfold Dev.panelReset
  extract_lets _ cleared idle coded
  exact ((((modPanel_local d p _).trans (modIsland_local cleared (islandOf p) _)).trans
    (putB_onlyTack idle Ent.panelHaltCode (2 * p) 2 0).local).trans (flags_local coded _)).mono (by simp) (by simp) (by simp)

theorem panelReset_get (d : Dev) (p : Nat) {k : Nat} (hk : k ≠ Ent.panelHaltCode) : (d.panelReset p).get k = d.get k :=
  (panelReset_local d p).frame.entries k (by simpa using hk)

theorem panelReset_reset (d : Dev) (p : Nat) : d.PanelReset (d.panelReset p) p := by
  have self := panelReset_panel d p
  have frame := (panelReset_local d p).frame
  exact ⟨by rw [self]; rfl, by rw [self]; rfl, by rw [self]; rfl, fun q hq => frame.panels q (by simpa using hq),
    frame.bytes, frame.far, ⟨rfl, rfl⟩⟩

/-- What only writes the Tack leaves the panel as it was reset. -/
theorem Dev.PanelReset.onlyTack {d e f : Dev} {p : Nat} {ks : List Nat} (h : d.PanelReset e p) (k : OnlyTack ks e f)
    (hp : e.SamePaths f) : d.PanelReset f p :=
  ⟨by rw [k.panel, h.halted], by rw [k.panel, h.frozen], by rw [k.panel, h.held],
    fun q hq => by rw [k.panel, h.panels q hq], fun a => by rw [k.byte, h.bytes], h.far.trans k.frame.far, h.paths.trans hp⟩

theorem size_panelFenced : entSize Ent.panelFenced = 16 := by decide
theorem size_panelMask : entSize Ent.panelMask = 16 := by decide

/-- The fences after one panel's bit of PANEL_FENCED is written. -/
theorem fenced_put (d : Dev) (p : Nat) (b : Bool) {q : Nat} (hq : q < 128) :
    (d.put Ent.panelFenced (setBit (d.get Ent.panelFenced) p b)).fenced q = if q = p then b else d.fenced q := by
  unfold Dev.fenced
  rw [bitOf_get_put d _ (by rw [size_panelFenced]; exact hq), bitOf_setBit]

theorem fenceBits_onlyTack (d : Dev) (p : Nat) : OnlyTack [Ent.panelFenced, Ent.panelMask] d (d.fenceBits p) :=
  (put_onlyTack d Ent.panelFenced _).trans (put_onlyTack _ Ent.panelMask _)

theorem fenceBits_samePaths (d : Dev) (p : Nat) : d.SamePaths (d.fenceBits p) :=
  (put_samePaths d Ent.panelFenced _).trans (put_samePaths _ Ent.panelMask _)

theorem fenceBits_newestRec (d : Dev) (p : Nat) : (d.fenceBits p).tack.newestRec = d.tack.newestRec := rfl

theorem fenced_fenceBits (d : Dev) (p : Nat) {q : Nat} (hq : q < 128) :
    (d.fenceBits p).fenced q = if q = p then true else d.fenced q := by
  rw [← fenced_put d p true hq]
  unfold Dev.fenced Dev.fenceBits
  rw [Dev.get_put_ne _ _ _ (show Ent.panelFenced ≠ Ent.panelMask by decide)]

theorem panelMask_fenceBits (d : Dev) {p : Nat} (hp : p < 128) :
    bitOf ((d.fenceBits p).get Ent.panelMask) p = false := by
  unfold Dev.fenceBits
  rw [bitOf_get_put _ _ (by rw [size_panelMask]; exact hp), bitOf_setBit, if_pos rfl]

/-- What PANEL_UNFENCE leaves: the panel reset, its fence as the test decides, and of a panel that fails unfenced its
record and its bit of the mask (R83, R86). -/
structure Dev.Unfenced (d e : Dev) (p : Nat) (passes : Bool) : Prop where
  reset : d.PanelReset e p
  own : e.fenced p = !passes
  others : ∀ q, q < 128 → q ≠ p → e.fenced q = d.fenced q
  failed : passes = false → d.fenced p = false →
    Certificates.Recorded e 0x0210 p ∧ bitOf (e.get Ent.panelMask) p = false

theorem panelUnfence_unfenced (d : Dev) {p : Nat} (hp : p < 128) (passes : Bool) :
    d.Unfenced (d.panelUnfence p passes) p passes := by
  have reset := panelReset_reset d p
  have fences (q : Nat) : (d.panelReset p).fenced q = d.fenced q := by
    unfold Dev.fenced
    rw [panelReset_get d p (by decide)]
  cases passes with
  | true =>
    have e : d.panelUnfence p true =
      (d.panelReset p).put Ent.panelFenced (setBit ((d.panelReset p).get Ent.panelFenced) p false) := rfl
    rw [e]
    refine ⟨reset.onlyTack (put_onlyTack _ _ _) (put_samePaths _ _ _), ?_, fun q hq hne => ?_, fun h => by simp at h⟩
    · rw [fenced_put _ _ _ hp, if_pos rfl]; rfl
    · rw [fenced_put _ _ _ hq, if_neg hne, fences]
  | false =>
    have e : d.panelUnfence p false = if (d.panelReset p).fenced p = true then d.panelReset p
      else ((d.panelReset p).fault 0x0210 p 0).fenceBits p := rfl
    rw [e, fences]
    by_cases hf : d.fenced p = true
    · rw [if_pos hf]
      exact ⟨reset, (fences p).trans hf, fun q _ _ => fences q, fun _ h => by simp [hf] at h⟩
    · rw [if_neg hf]
      have recorded := fault_onlyTack (d.panelReset p) 0x0210 p 0
      obtain ⟨paths, r, hr, hc⟩ := fault_tack (d.panelReset p) 0x0210 p 0
      refine ⟨(reset.onlyTack recorded paths).onlyTack (fenceBits_onlyTack _ p) (fenceBits_samePaths _ p), ?_,
        fun q hq hne => ?_, fun _ _ => ⟨⟨r, (fenceBits_newestRec _ p).trans hr, hc⟩, panelMask_fenceBits _ hp⟩⟩
      · rw [fenced_fenceBits _ _ hp, if_pos rfl]; rfl
      · rw [fenced_fenceBits _ _ hq, if_neg hne, ← fences q]
        unfold Dev.fenced
        rw [recorded.entries _ (by decide)]

end Sys2Proof.Machine

open Sys2Proof Sys2Proof.Machine

theorem panelUnfenced : Certificates.PanelUnfenced := by
  intro p v env s hv
  have start := unstaged_onlyTack s.dev p
  have unfenced := panelUnfence_unfenced (s.dev.unstaged p) hv env.panelPasses
  refine writesNat_value (act := fun d v => d.panelUnfence v env.panelPasses) rfl
    (show entSize Ent.panelUnfence = 1 by decide) (Nat.lt_trans hv (by decide)) (by decide) (by decide) (fun _ => rfl)
    unfenced.reset.paths ?_
  have fences (q : Nat) : (s.dev.unstaged p).fenced q = s.dev.fenced q := by
    unfold Dev.fenced
    rw [start.entries _ (by simp)]
  generalize (s.dev.unstaged p).panelUnfence v env.panelPasses = E at unfenced
  obtain ⟨⟨halted, frozen, held, panels, bytes, far, -⟩, own, others, failed⟩ := unfenced
  have shown := responded_onlyTack E Status.ok Ent.panelUnfence
  exact ⟨own, fun q hq hne => (others q hq hne).trans (fences q), halted, frozen, held,
    fun q hq => (panels q hq).trans (start.panel q), fun a => (bytes a).trans (start.byte a),
    (start.frame.far.trans far).trans shown.frame.far,
    fun hpass hfen => failed hpass ((fences v).trans hfen)⟩

/-- Settles O43: an accepted write's effect is that of its entry on the device with nothing staged on the path
(completes_of_accepted); each entry's effect is then a lemma of its own. -/
theorem commandEntriesAct : Obligations.CommandEntriesAct :=
  ⟨ownerChanges, clearsClear, stepsAndSeconds, panelUnfenced⟩

end

section
/-!
PROOFS (*Number formats*). Fingerprint sets, and the vote on its way up with the capture of the step's flags (R42).
-/
namespace Sys2Proof.Machine
open Sys2Proof

/-! ### Commands that change the device at once -/

/-- A command of the form act f completes with f's device. -/
theorem completes_act {c : Instr} {s : State} {f : Dev → Dev} {P : Dev → Dev → Prop} (hc : exec c s = act f s)
    (h : P s.dev (f s.dev)) : Completes c s P :=
  fun hv => ⟨f s.dev, hc.trans (act_on f s hv), h⟩

/-! ### Late mode and withholding -/

theorem withhold_bits (d : Dev) : d.withhold.withheld = true ∧ d.withhold.lateMode = true := by
  have size : entSize Ent.lateStatus = 2 := by decide
  unfold Dev.withheld Dev.lateMode Dev.withhold
  rw [bitOf_get_put _ _ (by omega), bitOf_get_put _ _ (by omega)]
  simp [bitOf_setBit]

/-- Withholding leaves the collective units, the records and every entry but LATE_STATUS. -/
theorem withhold_same (d : Dev) : d.withhold.coll = d.coll ∧ d.withhold.tack.newestRec = d.tack.newestRec ∧
    ∀ k, k ≠ Ent.lateStatus → d.withhold.get k = d.get k := by
  have mark : d.markLate.coll = d.coll ∧ d.markLate.tack = d.tack := by
    unfold Dev.markLate
    split <;> exact ⟨rfl, rfl⟩
  obtain ⟨hc, ht⟩ := mark
  refine ⟨hc, ?_, fun k hk => ?_⟩
  · show d.markLate.tack.newestRec = _
    rw [ht]
  · unfold Dev.withhold
    rw [Dev.get_put_ne _ _ _ hk]
    simp only [Dev.get, ht]

/-! ### Fingerprint sets (R357–R360) -/

theorem fpSet_modFp (d : Dev) (i : Nat) (f : FpSet → FpSet) (j : Nat) :
    (d.modFp i f).fpSet j = if j = i then f (d.fpSet i) else d.fpSet j := sget_sset _ _ _ _ _

theorem fpOpen_fpSet (d : Dev) (tag j : Nat) : (d.fpOpen tag).fpSet j =
    if j = tag % 4 then { FpSet.reset with tag := tag, opened := some d.step } else d.fpSet j :=
  fpSet_modFp d (tag % 4) (fun _ => { FpSet.reset with tag := tag, opened := some d.step }) j

/-- A set's check passes: every copy seen agrees with its reference and with copy 0 (R359). -/
def FpSet.agrees (set : FpSet) : Bool :=
  !set.failed && (nth 0 set.refs 0 != 0 || set.sealed0) && (upTo 4).all fun c =>
    !bitOf set.seen c || (nth 0 set.copies c == nth 0 set.refs c && nth 0 set.refs c == nth 0 set.refs 0)

/-- The set of a tag after its check. -/
def Dev.fpChecked (d : Dev) (i : Nat) (ok : Bool) : Dev :=
  let d := d.modFp i fun s => { s with checked := true, passed := ok }
  { d with coll := { d.coll with heldCloses := [] } }

theorem fpChecked_fpSet (d : Dev) (i : Nat) (ok : Bool) (j : Nat) : (d.fpChecked i ok).fpSet j =
    if j = i then { d.fpSet i with checked := true, passed := ok } else d.fpSet j :=
  fpSet_modFp d i (fun s => { s with checked := true, passed := ok }) j

/-- The count, the step and the record of a check that failed. -/
def Dev.fpRecorded (d : Dev) (tag : Nat) : Dev :=
  ((d.bump Ent.fpStatus 0 4 1).putB Ent.fpStatus 4 4 d.step).fault 0x0710 Unit.device tag

/-- The fault step of the last failure is kept. -/
def Dev.fpFailedNow (d : Dev) : Dev := { d with coll := { d.coll with lastFpFail := some d.faultStep } }

/-- FP_CHECK of a set: what passes lets the held closes go, and what fails withholds, a second failure within 1,000
steps being recorded as well. -/
theorem fpCheck_eq (d : Dev) (tag : Nat) : d.fpCheck tag =
    if (d.fpSet (tag % 4)).agrees = true then
      d.coll.heldCloses.foldl (fun d c => d.leafNow c.1 c.2 d.step) (d.fpChecked (tag % 4) (d.fpSet (tag % 4)).agrees)
    else
      let failed := (d.fpChecked (tag % 4) (d.fpSet (tag % 4)).agrees).fpFailedNow.fpRecorded tag
      (if within1000 d.coll.lastFpFail d.faultStep = true then
        (failed.putB Ent.fpStatus 8 1 1).fault 0x0711 Unit.device tag else failed).withhold := rfl

/-- What a failed check shows in FP_STATUS and the log (R360); the collective units are not part of it. -/
theorem fpRecorded_shows (d : Dev) (tag : Nat) :
    (d.fpRecorded tag).getB Ent.fpStatus 0 4 = satAdd (2 ^ 32 - 1) (d.getB Ent.fpStatus 0 4) 1 ∧
      (d.fpRecorded tag).getB Ent.fpStatus 4 4 = d.step % 2 ^ 32 ∧ (d.fpRecorded tag).coll = d.coll ∧
      Certificates.Recorded (d.fpRecorded tag) 0x0710 Unit.device := by
  have size : entSize Ent.fpStatus = 16 := by decide
  have recorded := fault_onlyTack ((d.bump Ent.fpStatus 0 4 1).putB Ent.fpStatus 4 4 d.step) 0x0710 Unit.device tag
  unfold Dev.fpRecorded
  refine ⟨?_, ?_, by rw [recorded.same]; rfl, (fault_tack _ _ _ _).2⟩
  · rw [recorded.getB (by decide), getB_putB_disjoint _ _ _ _ _ _ _ (by omega) (by omega),
      getB_bump_self _ _ _ _ _ (by omega)]
  · rw [recorded.getB (by decide), getB_putB_self _ _ _ _ _ (by omega)]

/-- What withholding leaves of it. -/
theorem withhold_shows (d : Dev) (off len : Nat) : d.withhold.getB Ent.fpStatus off len = d.getB Ent.fpStatus off len := by
  unfold Dev.getB
  rw [(withhold_same d).2.2 _ (by decide)]

end Sys2Proof.Machine

open Sys2Proof Sys2Proof.Machine

theorem fingerprintSets : Certificates.FingerprintSets := by
  intro tag s d set r0 ok hw
  have outside (f : Dev → Dev) : act (fun d => d.outsideWitness f) s = act f s :=
    act_congr (by simp only [Dev.outsideWitness, show s.dev.resil.witnessFrom = none from hw, Option.isSome_none,
      Bool.false_eq_true, if_false])
  refine ⟨?_, fun hheld => ⟨fun hok => ?_, fun hok hlast => ?_⟩⟩
  · exact completes_act (f := fun d => d.fpOpen tag) (outside _) ⟨(fpOpen_fpSet _ _ _).trans (if_pos rfl), rfl,
      fun j hj => (fpOpen_fpSet _ _ _).trans (if_neg hj), rfl, rfl, rfl⟩
  · refine completes_act (f := fun d => d.fpCheck tag) (outside _) ?_
    have agrees : (s.dev.fpSet (tag % 4)).agrees = true := hok
    rw [fpCheck_eq, if_pos agrees, show s.dev.coll.heldCloses = [] from hheld, agrees]
    exact ⟨(fpChecked_fpSet _ _ _ _).trans (if_pos rfl), fun j hj => (fpChecked_fpSet _ _ _ _).trans (if_neg hj), rfl⟩
  · refine completes_act (f := fun d => d.fpCheck tag) (outside _) ?_
    have agrees : (s.dev.fpSet (tag % 4)).agrees = false := hok
    have once : within1000 s.dev.coll.lastFpFail s.dev.faultStep = false := hlast
    rw [fpCheck_eq]
    simp only [agrees, once, Bool.false_eq_true, if_false]
    obtain ⟨count, step, coll, r, hr, hc⟩ := fpRecorded_shows (s.dev.fpChecked (tag % 4) false).fpFailedNow tag
    obtain ⟨hget, hstep⟩ : (s.dev.fpChecked (tag % 4) false).fpFailedNow.get = s.dev.get ∧
        (s.dev.fpChecked (tag % 4) false).fpFailedNow.step = s.dev.step := ⟨rfl, rfl⟩
    rw [Dev.getB, Dev.getB, hget] at count
    rw [hstep] at step
    generalize (s.dev.fpChecked (tag % 4) false).fpFailedNow.fpRecorded tag = e at count step coll hr
    obtain ⟨hcoll, hrec, -⟩ := withhold_same e
    obtain ⟨withheld, late⟩ := withhold_bits e
    have sets : e.withhold.fpSet (tag % 4) = (s.dev.fpChecked (tag % 4) false).fpSet (tag % 4) := by
      simp only [Dev.fpSet, hcoll, coll]
      rfl
    exact ⟨sets.trans ((fpChecked_fpSet _ _ _ _).trans (if_pos rfl)), ⟨r, hrec.trans hr, hc⟩, withheld, late,
      (withhold_shows e 4 4).trans step, by rw [hcoll, coll]; rfl, (withhold_shows e 0 4).trans count⟩

end

section
/-!
PROOFS (*Number formats*). The vote on its way up: the capture of a step's flags (R42), the message that joins the
children's entries, and its sending (R363).
-/
namespace Sys2Proof.Machine
open Sys2Proof

/-! ### Routed messages -/

theorem link_modLink (d : Dev) (i : Nat) (f : Link → Link) (j : Nat) :
    (d.modLink i f).link j = if j = i then f (d.link i) else d.link j := sget_sset _ _ _ _ _

/-- A routed message changes the ports' queues and, where its port is not up, records the loss; no other part. -/
theorem sendRouted_onlyTack (d : Dev) (type cls tag dest : Nat) (late : Bool) (payload : List Byte) :
    OnlyTack [Ent.faultClassCounts] { d with weave := (d.sendRouted type cls tag dest late payload).weave }
      (d.sendRouted type cls tag dest late payload) := by
  unfold Dev.sendRouted Dev.enqueue
  split
  · exact (OnlyTack.refl d).mono (by simp)
  · dsimp only
    split
    · exact ⟨rfl, fun _ _ => rfl⟩
    · have weave : ∀ e, OnlyTack [Ent.faultClassCounts] d e → OnlyTack [Ent.faultClassCounts] { d with weave := e.weave } e :=
        fun e he => ⟨by rw [he.same], he.entries⟩
      exact weave _ (faultOnce_onlyTack d 0x040C _ 0)

/-- It stands last in the queue of the port that its route takes (R307). -/
theorem sendRouted_sends (d : Dev) (type cls tag dest : Nat) (late : Bool) (payload : List Byte) :
    Certificates.Sends d (d.sendRouted type cls tag dest late payload) type cls tag dest late payload := by
  unfold Certificates.Sends Dev.sendRouted
  cases d.direction d.coord (Coord.ofId dest) cls with
  | none => rfl
  | some dir =>
    intro hup
    simp only [Dev.enqueue, hup, if_true, link_modLink]

/-- A message's route reads the dictionary, and no flag set or step of it. -/
theorem sendRouted_sends_as {d e : Dev} (h : ∀ k, k ≠ Ent.stickyLast → e.get k = d.get k) (hw : e.weave = d.weave)
    (type cls tag dest : Nat) (late : Bool) (payload : List Byte) :
    Certificates.Sends d (e.sendRouted type cls tag dest late payload) type cls tag dest late payload := by
  have coord : e.coord = d.coord := by simp only [Dev.coord, h Ent.coordinate (by decide)]
  have size : e.dimSize = d.dimSize := by
    funext k; simp only [Dev.dimSize, Dev.getB, h Ent.domainShape (by decide)]
  have wrap : e.dimWrap = d.dimWrap := by funext k; simp only [Dev.dimWrap, h Ent.domainShape (by decide)]
  have route : e.direction e.coord (Coord.ofId dest) cls = d.direction d.coord (Coord.ofId dest) cls := by
    unfold Dev.direction Dev.orderFor Dev.tieMinus
    rw [h Ent.routeOverride (by decide), size, wrap, coord]
  have port : e.portOf = d.portOf := by funext k; simp only [Dev.portOf, h Ent.portMap (by decide)]
  have up : e.portUp = d.portUp := by
    funext k; simp only [Dev.portUp, Dev.portState, Dev.getB, h Ent.portState (by decide)]
  have vc (dir : Nat) : e.vcFor dir none = d.vcFor dir none := by
    unfold Dev.vcFor Dev.dateline
    rw [coord, size, wrap]
  have link : e.link = d.link := by funext k; simp only [Dev.link, hw]
  have device : e.deviceId = d.deviceId := by simp only [Dev.deviceId, coord]
  have hs := sendRouted_sends e type cls tag dest late payload
  unfold Certificates.Sends at hs ⊢
  rw [route] at hs
  simp only [port, up, vc, link, device, hw] at hs
  exact hs

/-! ### The capture of a step's flags (R42) -/

theorem leNat_lt_two_pow (bs : List Byte) : leNat bs < 2 ^ (8 * bs.length) := by
  induction bs with
  | nil => simp [leNat]
  | cons b bs ih =>
    have hb := b.isLt
    rw [List.length_cons, Nat.mul_succ, Nat.pow_add, leNat]
    omega

theorem flagBlob_lt (d : Dev) (set : Nat) : d.flagBlob set < 2 ^ (8 * entSize Ent.stickyLast) := by
  have units : ((upTo 188).map fun u => BitVec.ofNat 8 (d.flagByte set u)).length = entSize Ent.stickyLast := by
    rw [List.length_map, upTo, List.length_range]
    decide
  have := leNat_lt_two_pow ((upTo 188).map fun u => BitVec.ofNat 8 (d.flagByte set u))
  rw [units] at this
  exact this

theorem captureFlags_get_put (d : Dev) (n k : Nat) :
    (d.captureFlags n).get k = (d.put Ent.stickyLast (d.flagBlob (n % 4))).get k := by
  unfold Dev.captureFlags Dev.get
  rfl

theorem captureFlags_stickyLast (d : Dev) (n : Nat) : (d.captureFlags n).get Ent.stickyLast = d.flagBlob (n % 4) := by
  rw [captureFlags_get_put, Dev.get_put_self, Nat.mod_eq_of_lt (flagBlob_lt d (n % 4))]

theorem captureFlags_get (d : Dev) (n : Nat) {k : Nat} (hk : k ≠ Ent.stickyLast) :
    (d.captureFlags n).get k = d.get k := by
  rw [captureFlags_get_put, Dev.get_put_ne _ _ _ hk]

/-- The capture changes no other part of the device. -/
theorem captureFlags_same (d : Dev) (n : Nat) : (d.captureFlags n).coll = d.coll ∧ (d.captureFlags n).weave = d.weave ∧
    (d.captureFlags n).panels = d.panels ∧ (d.captureFlags n).islands = d.islands ∧
    (d.captureFlags n).measured = d.measured := by
  unfold Dev.captureFlags Dev.put Dev.measured Dev.frozenTime
  exact ⟨rfl, rfl, rfl, rfl, rfl⟩

/-- The step's own set is cleared, the other three stay. -/
theorem captureFlags_flagByte (d : Dev) (n q u : Nat) (hu : u < 188) :
    (d.captureFlags n).flagByte q u = if q = n % 4 then 0 else d.flagByte q u := by
  have cleared : (d.captureFlags n).flagByte q u =
      sget 0 (sclear d.flags.sets (n % 4 * 188) (n % 4 * 188 + 188)) (q * 188 + u) := rfl
  rw [cleared, sget_sclear]
  by_cases h : q = n % 4
  · rw [if_pos h, if_pos (by omega)]
  · rw [if_neg h, if_neg (by omega)]
    rfl

/-! ### The message (R363) -/

/-- The children's entries for a step. -/
def Dev.childVotes (d : Dev) (n : Nat) : List (Nat × List Byte) :=
  d.coll.ups.filter fun u => (VoteMsg.ofBytes u.2).step == n

/-- Each child's entry has come. -/
def Dev.votesComplete (d : Dev) (n : Nat) : Bool :=
  d.collHead.voteChildren.all fun c => (d.childVotes n).any fun u => u.1 == c

/-- The own entry joined with those of the children. -/
def joinVotes (own : VoteMsg) (us : List (Nat × List Byte)) : VoteMsg :=
  us.foldl (fun m u => m.join (VoteMsg.ofBytes u.2)) own

/-- The message of a step that goes up. -/
def Dev.voteOf (d : Dev) (n : Nat) : VoteMsg :=
  let m := joinVotes (d.ownVote n) (d.childVotes n)
  { m with incomplete := m.incomplete || !d.votesComplete n }

/-- A joined message keeps its kind and its step, and counts the devices that reported. -/
theorem joinVotes_fields (us : List (Nat × List Byte)) : ∀ own : VoteMsg,
    (joinVotes own us).sub = own.sub ∧ (joinVotes own us).step = own.step ∧
      (joinVotes own us).reported = us.foldl (fun k u => k + (VoteMsg.ofBytes u.2).reported) own.reported := by
  induction us with
  | nil => exact fun _ => ⟨rfl, rfl, rfl⟩
  | cons u us ih => exact fun own => ih (own.join (VoteMsg.ofBytes u.2))

theorem voteOf_fields (d : Dev) (n : Nat) : (d.voteOf n).sub = 0x20 ∧ (d.voteOf n).step = n ∧
    (d.voteOf n).reported = (d.childVotes n).foldl (fun k u => k + (VoteMsg.ofBytes u.2).reported) 1 :=
  joinVotes_fields (d.childVotes n) (d.ownVote n)

/-- A child without an entry leaves the vote incomplete. -/
theorem votesComplete_false {d : Dev} {n : Nat}
    (h : ∃ c ∈ d.collHead.voteChildren, ∀ u ∈ d.childVotes n, u.1 ≠ c) : d.votesComplete n = false := by
  obtain ⟨c, hc, hu⟩ := h
  unfold Dev.votesComplete
  rw [List.all_eq_false]
  refine ⟨c, hc, ?_⟩
  rw [Bool.not_eq_true, List.any_eq_false]
  exact fun u hm => by simpa using hu u hm

theorem voteOf_incomplete {d : Dev} {n : Nat}
    (h : ∃ c ∈ d.collHead.voteChildren, ∀ u ∈ d.childVotes n, u.1 ≠ c) : (d.voteOf n).incomplete = true := by
  simp [Dev.voteOf, votesComplete_false h]

/-- The vote of a step has been taken: its flags are captured, and its message is kept until its VOTE_DOWN. -/
def Dev.voteTaken (d : Dev) (n : Nat) : Dev :=
  let m := d.voteOf n
  let d := d.captureFlags n
  { d with coll := { d.coll with
    voteStep := n + 1, ups := d.coll.ups.filter fun u => decide (n < (VoteMsg.ofBytes u.2).step)
    upsSent := ⟨n, m.toBytes, d.get Ent.shardFp, d.withheld, d.measured⟩ :: d.coll.upsSent
    overflow := false, deadlineSeen := false } }

theorem tryVote_eq (d : Dev) : d.tryVote =
    if !d.hasColl || !d.inRun || d.frozen || decide (d.step < d.coll.voteStep) then d
    else if !d.rootRounds.all (fun x => decide (d.coll.voteStep < x.expected)) ||
        !(d.votesComplete d.coll.voteStep || d.coll.deadlineSeen) then d
    else if d.collHead.voteParent = 0xFFFF then
      (d.voteTaken d.coll.voteStep).rootVote (d.voteOf d.coll.voteStep)
    else (d.voteTaken d.coll.voteStep).sendControl d.collHead.voteParent (d.voteOf d.coll.voteStep).toBytes := rfl

/-- A vote that is due goes to the parent (R363). -/
theorem tryVote_sends (d : Dev) (hcoll : d.hasColl = true) (hrun : d.inRun = true) (hfrozen : d.frozen = false)
    (hstep : d.coll.voteStep ≤ d.step) (hroots : ∀ x ∈ d.rootRounds, d.coll.voteStep < x.expected)
    (hseen : d.coll.deadlineSeen = true) (hparent : d.collHead.voteParent ≠ 0xFFFF) :
    d.tryVote =
      (d.voteTaken d.coll.voteStep).sendControl d.collHead.voteParent (d.voteOf d.coll.voteStep).toBytes := by
  have roots : d.rootRounds.all (fun x => decide (d.coll.voteStep < x.expected)) = true := by
    rw [List.all_eq_true]
    exact fun x hx => decide_eq_true (hroots x hx)
  rw [tryVote_eq]
  simp only [hcoll, hrun, hfrozen, hseen, roots, hparent, Nat.not_lt.mpr hstep, decide_false, Bool.not_true,
    Bool.or_true, Bool.or_false, Bool.false_eq_true, if_false]

/-- Without an entry of each child and before the deadline, the vote waits. -/
theorem tryVote_waits (d : Dev) (hseen : d.coll.deadlineSeen = false)
    (h : ∃ c ∈ d.collHead.voteChildren, ∀ u ∈ d.childVotes d.coll.voteStep, u.1 ≠ c) : d.tryVote = d := by
  rw [tryVote_eq]
  simp only [votesComplete_false h, hseen, Bool.or_false, Bool.not_false, Bool.or_true, if_true, ite_self]

theorem voteTaken_get_capture (d : Dev) (n k : Nat) : (d.voteTaken n).get k = (d.captureFlags n).get k := by
  have tack : (d.voteTaken n).tack = (d.captureFlags n).tack := rfl
  unfold Dev.get
  rw [tack]

theorem voteTaken_get (d : Dev) (n : Nat) {k : Nat} (hk : k ≠ Ent.stickyLast) : (d.voteTaken n).get k = d.get k := by
  rw [voteTaken_get_capture, captureFlags_get d n hk]

/-- What the taking of a vote keeps for its VOTE_DOWN. -/
theorem voteTaken_upsSent (d : Dev) (n : Nat) : (d.voteTaken n).coll.upsSent =
    ⟨n, (d.voteOf n).toBytes, d.get Ent.shardFp, d.withheld, d.measured⟩ :: d.coll.upsSent := by
  obtain ⟨coll, -, -, -, measured⟩ := captureFlags_same d n
  have withheld : (d.captureFlags n).withheld = d.withheld := by
    unfold Dev.withheld
    rw [captureFlags_get d n (show Ent.lateStatus ≠ Ent.stickyLast by decide)]
  unfold Dev.voteTaken
  simp only [captureFlags_get d n (show Ent.shardFp ≠ Ent.stickyLast by decide), withheld, measured, coll]

theorem voteTaken_weave (d : Dev) (n : Nat) : (d.voteTaken n).weave = d.weave := by
  obtain ⟨-, weave, -⟩ := captureFlags_same d n
  exact (show (d.voteTaken n).weave = (d.captureFlags n).weave by unfold Dev.voteTaken; dsimp only).trans weave

/-- What a vote that has been sent leaves (R42, R363). -/
structure Dev.VoteSent (d e : Dev) (n : Nat) : Prop where
  step : e.coll.voteStep = n + 1
  captured : e.get Ent.stickyLast = d.flagBlob (n % 4)
  flags : ∀ q u, u < 188 → e.flagByte q u = if q = n % 4 then 0 else d.flagByte q u
  rounds : e.coll.rounds = d.coll.rounds
  panels : ∀ p, e.panel p = d.panel p
  islands : ∀ i, e.island i = d.island i
  overflow : e.coll.overflow = false
  kept : e.coll.upsSent =
    ⟨n, (d.voteOf n).toBytes, d.get Ent.shardFp, d.withheld, d.measured⟩ :: d.coll.upsSent

theorem voteSent_taken (d : Dev) (n : Nat) : d.VoteSent (d.voteTaken n) n := by
  obtain ⟨coll, -, panels, islands, -⟩ := captureFlags_same d n
  have same : (d.voteTaken n).coll.rounds = (d.captureFlags n).coll.rounds ∧
      (d.voteTaken n).panels = (d.captureFlags n).panels ∧ (d.voteTaken n).islands = (d.captureFlags n).islands ∧
      (d.voteTaken n).flags = (d.captureFlags n).flags := by
    unfold Dev.voteTaken
    dsimp only
    exact ⟨rfl, rfl, rfl, rfl⟩
  obtain ⟨hr, hp, hi, hf⟩ := same
  refine ⟨rfl, ?_, fun q u hu => ?_, by rw [hr, coll], fun p => ?_, fun i => ?_, rfl, voteTaken_upsSent d n⟩
  · rw [voteTaken_get_capture, captureFlags_stickyLast]
  · rw [← captureFlags_flagByte d n q u hu]
    unfold Dev.flagByte
    rw [hf]
  · unfold Dev.panel
    rw [hp, panels]
  · unfold Dev.island
    rw [hi, islands]

/-- The message itself changes none of it. -/
theorem Dev.VoteSent.sendControl {d e : Dev} {n : Nat} (h : d.VoteSent e n) (dest : Nat) (payload : List Byte) :
    d.VoteSent (e.sendControl dest payload) n := by
  have sent := sendRouted_onlyTack e FlitType.control 3 0 dest false payload
  have send : e.sendControl dest payload = e.sendRouted FlitType.control 3 0 dest false payload := rfl
  rw [send]
  generalize e.sendRouted FlitType.control 3 0 dest false payload = E at sent
  have coll : E.coll = e.coll := by rw [sent.same]
  have flags : E.flags = e.flags := by rw [sent.same]
  refine ⟨by rw [coll, h.step], ?_, fun q u hu => ?_, by rw [coll, h.rounds], fun p => (sent.panel p).trans (h.panels p),
    fun i => (sent.island i).trans (h.islands i), by rw [coll, h.overflow], by rw [coll, h.kept]⟩
  · exact (sent.entries _ (by decide)).trans h.captured
  · rw [← h.flags q u hu]
    unfold Dev.flagByte
    rw [flags]

/-- The vote deadline has been observed. -/
def Dev.deadlinePassed (d : Dev) : Dev := { d with coll := { d.coll with deadlineSeen := true } }

theorem voteDeadline_due (d : Dev) (hcoll : d.hasColl = true) (hrun : d.inRun = true) (hfrozen : d.frozen = false)
    (hdue : d.startBeatOf d.coll.voteStep + d.collHead.voteDeadline ≤ d.get Ent.logicalBeat) :
    d.voteDeadline = d.deadlinePassed.tryVote := by
  unfold Dev.voteDeadline
  rw [hcoll, hrun, hfrozen, decide_eq_true hdue]
  rfl

end Sys2Proof.Machine

open Sys2Proof Sys2Proof.Machine

theorem voteUpArrives : Certificates.VoteUpArrives := by
  intro src bs s d m hcoll
  have way : s.dev.voteUp src bs = if m.step != s.dev.coll.voteStep || !s.dev.collHead.voteChildren.contains src then
        s.dev.fault 0x0713 Unit.device m.step
      else ({ s.dev with coll := { s.dev.coll with ups := (src, bs) :: s.dev.coll.ups.filter fun u =>
        !(u.1 == src && (VoteMsg.ofBytes u.2).step == m.step) } } : Dev).tryVote := by
    unfold Dev.voteUp
    rw [show s.dev.hasColl = true from hcoll]
    rfl
  refine ⟨fun h => ?_, fun hstep hchild hseen hother => ?_⟩
  · refine completes_act (f := fun d => d.voteUp src bs) rfl ?_
    have late : (m.step != s.dev.coll.voteStep || !s.dev.collHead.voteChildren.contains src) = true := by
      rcases h with h | h
      · simp [show m.step ≠ s.dev.coll.voteStep from h]
      · simp [show src ∉ s.dev.collHead.voteChildren from h]
    rw [way, if_pos late]
    have recorded := fault_onlyTack s.dev 0x0713 Unit.device m.step
    exact ⟨(fault_tack _ _ _ _).2, by rw [recorded.same], by rw [recorded.same], by rw [recorded.same]⟩
  · refine completes_act (f := fun d => d.voteUp src bs) rfl ?_
    have kept : (m.step != s.dev.coll.voteStep || !s.dev.collHead.voteChildren.contains src) = false := by
      simp [show m.step = s.dev.coll.voteStep from hstep, show src ∈ s.dev.collHead.voteChildren from hchild]
    rw [way, if_neg (by rw [kept]; exact Bool.false_ne_true)]
    refine tryVote_waits _ hseen ?_
    obtain ⟨c, hc, hne, hmissing⟩ := hother
    refine ⟨c, hc, fun u hu => ?_⟩
    rcases List.mem_cons.mp (List.mem_filter.mp hu).1 with rfl | hold
    · exact fun h => hne h.symm
    · exact hmissing u (List.mem_filter.mp hold).1

theorem voteGoesUp : Certificates.VoteGoesUp := by
  intro s d n h mine hcoll hrun hfrozen hstep hroots hdue hparent
  refine completes_act (f := Dev.voteDeadline) rfl ?_
  have sent := tryVote_sends s.dev.deadlinePassed hcoll hrun hfrozen hstep hroots rfl hparent
  have taken := (voteSent_taken s.dev.deadlinePassed n).sendControl h.voteParent (s.dev.voteOf n).toBytes
  have run : s.dev.voteDeadline =
      (s.dev.deadlinePassed.voteTaken n).sendControl h.voteParent (s.dev.voteOf n).toBytes := by
    rw [voteDeadline_due s.dev hcoll hrun hfrozen hdue, sent]
    rfl
  rw [← run] at taken
  have sends : Certificates.Sends s.dev s.dev.voteDeadline FlitType.control 3 0 h.voteParent false
      (s.dev.voteOf n).toBytes := by
    rw [run]
    apply sendRouted_sends_as
    · exact fun k hk => voteTaken_get s.dev.deadlinePassed n hk
    · exact voteTaken_weave s.dev.deadlinePassed n
  generalize s.dev.voteDeadline = e at taken sends
  obtain ⟨sub, step, reported⟩ := voteOf_fields s.dev n
  obtain ⟨next, captured, flags, rounds, panels, islands, overflow, kept⟩ := taken
  exact ⟨next, captured, fun u hu => (flags _ u hu).trans (if_pos rfl),
    fun q _ hq u hu => (flags q u hu).trans (if_neg hq), rounds, panels, islands, overflow, s.dev.voteOf n, kept, sub, step,
    reported, voteOf_incomplete, sends⟩

/-- Settles O39: the sets by fpCheck_eq; the vote of a due step by tryVote_sends, its message by joinVotes_fields and its
flags by captureFlags_flagByte; a child's entry by tryVote_waits. -/
theorem fingerprintsAndVotesUp : Obligations.FingerprintsAndVotesUp := ⟨fingerprintSets, voteGoesUp, voteUpArrives⟩

end

section
/-!
PROOFS (*The backward pass*). Contract faults: what their records and responses leave, shared by tokens, waits and
stalls.
-/
namespace Sys2Proof.Machine
open Sys2Proof

/-! ### What a fault's record and response leave (R216–R219) -/

/-- What records of faults and the responses to them leave: the Tack, the halt marks of the panels ps and the marks of
late mode change. -/
structure Dev.Reported (d e : Dev) (ps ks : List Nat) : Prop where
  frame : d.Frame e ps [] ks
  held : ∀ q, (e.panel q).held = (d.panel q).held
  flags : e.flags = d.flags
  wide : e.wide = d.wide
  transit : e.contract.transit = d.contract.transit

theorem Dev.Reported.trans {d e f : Dev} {ps ks ps' ks' : List Nat} (h : d.Reported e ps ks)
    (k : e.Reported f ps' ks') : d.Reported f (ps ++ ps') (ks ++ ks') :=
  ⟨h.frame.trans k.frame, fun q => (k.held q).trans (h.held q), k.flags.trans h.flags, k.wide.trans h.wide,
    k.transit.trans h.transit⟩

theorem Dev.Reported.mono {d e : Dev} {ps ks ps' ks' : List Nat} (h : d.Reported e ps ks) (hp : ps ⊆ ps')
    (hk : ks ⊆ ks') : d.Reported e ps' ks' :=
  ⟨h.frame.mono (fun _ h => hp h) (fun _ h => h) (fun _ h => hk h), h.held, h.flags, h.wide, h.transit⟩

theorem Dev.Reported.island {d e : Dev} {ps ks : List Nat} (h : d.Reported e ps ks) (i : Nat) : e.island i = d.island i :=
  h.frame.islands i (by simp)

theorem OnlyTack.reported {ks : List Nat} {d e : Dev} (h : OnlyTack ks d e) : d.Reported e [] ks :=
  ⟨h.frame, fun q => by rw [h.panel], by rw [h.same], by rw [h.same], by rw [h.same]⟩

/-- Late mode keeps its step beside the contract's other values. -/
theorem markLate_reported (d : Dev) : d.Reported d.markLate [] [] := by
  refine ⟨markLate_frame d, fun q => ?_, ?_, ?_, ?_⟩ <;> (unfold Dev.markLate; split <;> rfl)

theorem enterLate_reported (d : Dev) : d.Reported d.enterLate [] [Ent.lateStatus] :=
  (markLate_reported d).trans (enterLate_onlyTack d).reported

theorem withhold_reported (d : Dev) : d.Reported d.withhold [] [Ent.lateStatus] :=
  (markLate_reported d).trans (withhold_onlyTack d).reported

theorem enterLate_newestRec (d : Dev) : d.enterLate.tack.newestRec = d.tack.newestRec := by
  unfold Dev.enterLate Dev.markLate
  split <;> rfl

/-- A panel's halt marks are no part of its wait, of the Tack or of any other panel. -/
theorem haltPanels_reported (ps : List Nat) : ∀ d : Dev,
    d.Reported (d.haltPanels ps) ps [] ∧ (d.haltPanels ps).tack = d.tack := by
  induction ps with
  | nil => exact fun d => ⟨(OnlyTack.refl d).reported, rfl⟩
  | cons p ps ih =>
    intro d
    have one : d.Reported (d.modPanel p fun x => { x with haltAtBoundary := true, haltedByFault := true }) [p] [] := by
      refine ⟨(modPanel_local d p _).frame.mono (by simp) (by simp) (by simp), fun q => ?_, rfl, rfl, rfl⟩
      rw [Dev.panel_modPanel]
      split
      · next h => rw [h]
      · rfl
    obtain ⟨rest, tack⟩ := ih (d.modPanel p fun x => { x with haltAtBoundary := true, haltedByFault := true })
    exact ⟨(one.trans rest).mono (by simp) (by simp), tack⟩

/-! ### A contract fault -/

/-- The counts of a contract fault. -/
def Dev.faultCounted (d : Dev) (code : Nat) (who : Culprit) : Dev :=
  who.counted ((d.bump Ent.contractFaultCount (4 * contractClass code) 4 1).count 0x407 1)

/-- The response to a contract fault, by its class. -/
def Dev.answerFault (d : Dev) (code : Nat) (who : Culprit) : Dev :=
  let cls := contractClass code
  let resp := if alwaysHalts code then 1 else fieldOf (d.get Ent.contractResponse) (2 * cls + 1) (2 * cls)
  if resp = 1 then
    match who with
    | .offTree => d.enterLate
    | _ => (d.haltPanels who.panels).withhold
  else if resp = 2 then d.enterLate
  else d

theorem faultCounted_onlyTack (d : Dev) (code : Nat) (who : Culprit) :
    OnlyTack [Ent.contractFaultCount] d (d.faultCounted code who) := by
  have bumped := ((bump_onlyTack d Ent.contractFaultCount (4 * contractClass code) 4 1).trans
    (count_onlyTally _ 0x407 1).tack)
  cases who with
  | panel p => exact (bumped.trans (evI_onlyTally _ (islandOf p) 0x039 1).tack).mono (by simp)
  | island i => exact (bumped.trans (evI_onlyTally _ i 0x039 1).tack).mono (by simp)
  | offTree => exact bumped.mono (by simp)

/-- The response halts at most the culprit's panels, and keeps the newest record. -/
theorem answerFault_reported (d : Dev) (code : Nat) (who : Culprit) :
    d.Reported (d.answerFault code who) who.panels [Ent.lateStatus] ∧
      (d.answerFault code who).tack.newestRec = d.tack.newestRec := by
  have late : d.Reported d.enterLate who.panels [Ent.lateStatus] := (enterLate_reported d).mono (by simp) (by simp)
  obtain ⟨halted, tack⟩ := haltPanels_reported who.panels d
  have halt : d.Reported (d.haltPanels who.panels).withhold who.panels [Ent.lateStatus] ∧
      (d.haltPanels who.panels).withhold.tack.newestRec = d.tack.newestRec :=
    ⟨(halted.trans (withhold_reported _)).mono (by simp) (by simp), by rw [(withhold_same _).2.1, tack]⟩
  unfold Dev.answerFault
  dsimp only
  generalize (if alwaysHalts code = true then 1 else _) = resp
  by_cases h1 : resp = 1
  · rw [if_pos h1]
    cases who with
    | panel p => exact halt
    | island i => exact halt
    | offTree => exact ⟨late, enterLate_newestRec d⟩
  · rw [if_neg h1]
    by_cases h2 : resp = 2
    · rw [if_pos h2]
      exact ⟨late, enterLate_newestRec d⟩
    · rw [if_neg h2]
      exact ⟨(OnlyTack.refl d).reported.mono (by simp) (by simp), rfl⟩

/-- A contract fault that late mode does not pass over is counted, recorded and answered. -/
theorem contractFault_eq (d : Dev) (code unit detail : Nat) (who : Culprit) (beatWait : Bool)
    (h : d.lateMode = false ∨ code ≠ 0x0510 ∧ code ≠ 0x0583) :
    d.contractFault code unit detail who beatWait =
      ((d.faultCounted code who).fault code unit detail).answerFault code who := by
  have mode : (d.faultCounted code who).lateMode = d.lateMode := by
    unfold Dev.lateMode
    rw [(faultCounted_onlyTack d code who).entries _ (by decide)]
  have loud : ((d.faultCounted code who).lateMode && (code = 0x0510 && beatWait || code = 0x0583 : Bool)) = false := by
    rw [mode]
    rcases h with h | ⟨h1, h2⟩
    · simp [h]
    · simp [h1, h2]
  have shape : d.contractFault code unit detail who beatWait =
      if ((d.faultCounted code who).lateMode && (code = 0x0510 && beatWait || code = 0x0583 : Bool)) = true
      then d.faultCounted code who
      else ((d.faultCounted code who).fault code unit detail).answerFault code who := by
    cases who <;> rfl
  rw [shape, loud]
  exact if_neg Bool.false_ne_true

/-- It is the newest record afterwards, and nothing but records, halt marks and late mode changes. -/
theorem contractFault_reported (d : Dev) (code unit detail : Nat) (who : Culprit) (beatWait : Bool)
    (h : d.lateMode = false ∨ code ≠ 0x0510 ∧ code ≠ 0x0583) :
    d.Reported (d.contractFault code unit detail who beatWait) who.panels
        [Ent.contractFaultCount, Ent.faultClassCounts, Ent.lateStatus] ∧
      Certificates.Recorded (d.contractFault code unit detail who beatWait) code unit := by
  rw [contractFault_eq d code unit detail who beatWait h]
  have counted := (faultCounted_onlyTack d code who).trans (fault_onlyTack _ code unit detail)
  obtain ⟨-, r, hr, hrec⟩ := fault_tack (d.faultCounted code who) code unit detail
  obtain ⟨answered, kept⟩ := answerFault_reported ((d.faultCounted code who).fault code unit detail) code who
  exact ⟨(counted.reported.trans answered).mono (by simp) (by simp), r, kept.trans hr, hrec⟩

end Sys2Proof.Machine
end

section
/-!
PROOFS (*The backward pass*). Tokens: posts on their way, and their arrival in a counter.
-/
namespace Sys2Proof.Machine
open Sys2Proof

/-! ### Posts -/

theorem later_panelBecomes (d : Dev) (p issue slot cycle rank : Nat) (w : Deferred) :
    d.PanelBecomes (d.later p issue slot cycle rank w) p (d.panel p) [] :=
  ⟨rfl, (later_local d p issue slot cycle rank w).frame.mono (by simp) (by simp) (by simp), rfl, rfl, rfl⟩

/-- A post of a panel's own island waits in the agenda for two cycles. -/
theorem later_posted (d : Dev) (p k : Nat) (w : Deferred) (hn : d.NoneDue (islandOf p) k) :
    let e := (d.later p k 3 (k + 2) 0 w).advance (islandOf p) k
    d.PanelBecomes e p (d.panel p) [] ∧ d.Adds e (islandOf p) ⟨k + 2, 0, p, k, 3, w⟩ ∧ e.tack = d.tack := by
  have adds := adds_later (d := d) (p := p) rfl k 3 (k + 2) 0 w
  have none_ := adds.noneDue hn (Nat.lt_add_of_pos_right (by decide))
  obtain ⟨-, -, -, tack, -⟩ := advance_same _ _ _ none_
  exact ⟨(later_panelBecomes d p k 3 (k + 2) 0 w).advance none_, adds.advance none_, tack⟩

theorem noteEffect_onlyTally (d : Dev) (p issue slot v : Nat) : OnlyTally d (d.noteEffect p issue slot v) := by
  unfold Dev.noteEffect
  split
  · exact .refl d
  · exact ⟨_, rfl⟩

/-- A change of the contract is none of memory, panels, islands and the dictionary. -/
theorem contract_frame (d : Dev) (c : ContractState) : d.Frame { d with contract := c } [] [] [] :=
  ⟨fun _ => rfl, rfl, fun _ _ => rfl, fun _ _ => rfl, fun _ _ => rfl, by constructor <;> rfl⟩

theorem Dev.SameIsland.of_eq {d e : Dev} {i : Nat} (h : e.island i = d.island i) : d.SameIsland e i := by
  unfold Dev.SameIsland
  rw [h]

/-- A post to another island joins the tokens on their way, and nothing else comes of it. -/
theorem sendToken_sent {d D : Dev} {p k i ctr n : Nat} (h : OnlyTally d D) (hn : d.NoneDue (islandOf p) k) :
    let e := (D.sendToken false i ctr n (some p)).advance (islandOf p) k
    e.contract = { d.contract with transit := d.contract.transit ++ [⟨false, i, ctr, n, p + 1⟩] } ∧
      d.Frame e [] [islandOf p] [] ∧ d.SameIsland e (islandOf p) ∧ e.tack = d.tack ∧ e.flags = d.flags ∧
      e.wide = d.wide := by
  have island : (D.sendToken false i ctr n (some p)).island (islandOf p) = d.island (islandOf p) := h.island _
  have none_ := noneDue_of_same hn (congrArg Island.agenda island)
  have sent : D.Frame (D.sendToken false i ctr n (some p)) [] [] [] := contract_frame D _
  have frame : d.Frame _ [] [islandOf p] [] :=
    ((h.frame.trans sent).trans (advance_frame _ _ _ none_)).mono (by simp) (by simp) (by simp)
  obtain ⟨flags, wide, contract, tack, -⟩ := advance_same _ _ _ none_
  obtain ⟨t, rfl⟩ := h
  exact ⟨contract, frame, (Dev.SameIsland.of_eq island).advance none_, tack, flags, wide⟩

/-! ### Arrivals -/

/-- A token's counter after it: at most 0xFFFF (R180). -/
def Island.receive (x : Island) (ctr amount : Nat) : Island :=
  { x with tokens := sset 0 x.tokens ctr (min (sget 0 x.tokens ctr + amount) 0xFFFF) }

/-- The counter and the count of its event (R584), before a fault that an overflow is. -/
def Dev.tokenCounted (d : Dev) (i ctr amount : Nat) : Dev :=
  (d.modIsland i fun x => x.receive ctr amount).evI i 0x038 1

theorem addTokens_eq (d : Dev) (i ctr amount : Nat) (poster : Option Nat) :
    d.addTokens i ctr amount poster = if 0xFFFF < d.tokens i ctr + amount then
      match poster with
      | some p => (d.tokenCounted i ctr amount).contractFault 0x0584 p ctr (.panel p)
      | none => (d.tokenCounted i ctr amount).contractFault 0x0584 (Unit.island i) ctr (.island i)
    else d.tokenCounted i ctr amount := by
  cases poster <;> rfl

theorem tokenCounted_onlyTally (d : Dev) (i ctr amount : Nat) :
    OnlyTally (d.modIsland i fun x => x.receive ctr amount) (d.tokenCounted i ctr amount) := evI_onlyTally _ _ _ _

/-- An amount beyond 0xFFFF is a contract fault of the poster, or of the island. -/
theorem addTokens_overflow (d : Dev) (i ctr amount : Nat) (poster : Option Nat) (h : 0xFFFF < d.tokens i ctr + amount) :
    ∃ ps ks, (d.tokenCounted i ctr amount).Reported (d.addTokens i ctr amount poster) ps ks ∧
      ∃ r, (d.addTokens i ctr amount poster).tack.newestRec = some r ∧ r.code = 0x0584 := by
  have fault (unit : Nat) (who : Culprit) : ∃ ps ks, (d.tokenCounted i ctr amount).Reported
      ((d.tokenCounted i ctr amount).contractFault 0x0584 unit ctr who) ps ks ∧
      ∃ r, ((d.tokenCounted i ctr amount).contractFault 0x0584 unit ctr who).tack.newestRec = some r ∧ r.code = 0x0584 := by
    obtain ⟨reported, r, hr, hcode, -⟩ :=
      contractFault_reported (d.tokenCounted i ctr amount) 0x0584 unit ctr who false (.inr (by decide))
    exact ⟨_, _, reported, r, hr, hcode⟩
  rw [addTokens_eq, if_pos h]
  cases poster with
  | some p => exact fault p (.panel p)
  | none => exact fault (Unit.island i) (.island i)

theorem addTokens_within (d : Dev) (i ctr amount : Nat) (poster : Option Nat) (h : d.tokens i ctr + amount ≤ 0xFFFF) :
    d.addTokens i ctr amount poster = d.tokenCounted i ctr amount := by
  rw [addTokens_eq, if_neg (Nat.not_lt.mpr h)]

/-- Whatever becomes of an overflow, the island has its token and the tokens on their way stay. -/
theorem addTokens_island (d : Dev) (i ctr amount : Nat) (poster : Option Nat) :
    (d.addTokens i ctr amount poster).island i = (d.island i).receive ctr amount ∧
      (d.addTokens i ctr amount poster).contract.transit = d.contract.transit := by
  have counted := tokenCounted_onlyTally d i ctr amount
  have island : (d.tokenCounted i ctr amount).island i = (d.island i).receive ctr amount := by
    rw [counted.island, Dev.island_modIsland_self]
  have contract : (d.tokenCounted i ctr amount).contract = d.contract := counted.local.contract
  by_cases h : d.tokens i ctr + amount ≤ 0xFFFF
  · rw [addTokens_within d i ctr amount poster h]
    exact ⟨island, by rw [contract]⟩
  · obtain ⟨ps, ks, reported, -⟩ := addTokens_overflow d i ctr amount poster (Nat.lt_of_not_le h)
    exact ⟨(reported.island i).trans island, by rw [reported.transit, contract]⟩

/-- The tokens on their way without one that arrives. -/
def Dev.landed (d : Dev) (t : Transit) : Dev :=
  { d with contract := { d.contract with transit := d.contract.transit.erase t } }

/-- The arrival of the oldest token on its way to an island, of one of the two kinds. -/
theorem occurs_tokenArrives {offTree : Bool} {i cycle : Nat} {t : Transit} {s : State} {P : Dev → Dev → Prop}
    (hfind : (s.dev.atEvent i cycle).contract.transit.find? (fun t => t.offTree == offTree && t.island == i) = some t)
    (h : (s.dev.atEvent i cycle).NoneDue i (s.dev.eventCycle i cycle) → P (s.dev.atEvent i cycle)
      ((((s.dev.atEvent i cycle).landed t).addTokens i t.ctr t.amount
        (if t.poster = 0 then none else some (t.poster - 1))).advance i (s.dev.eventCycle i cycle))) :
    Occurs (if offTree = true then .offTreeToken i cycle else .tokenCrossing i cycle) i cycle s P := by
  refine occurs_of _ i cycle s (fun _ d =>
    match d.contract.transit.find? fun t => t.offTree == offTree && t.island == i with
    | none => d
    | some t => (d.landed t).addTokens i t.ctr t.amount (if t.poster = 0 then none else some (t.poster - 1))) P ?_ ?_
  · cases offTree <;> rfl
  · simp only [hfind]
    exact h

end Sys2Proof.Machine

open Sys2Proof Sys2Proof.Machine

theorem postsLeave : Certificates.PostsLeave := by
  intro a s p k
  refine ⟨fun ctr n hn0 => ?_, fun i ctr n hn0 hi => ?_, fun entry tag => ?_⟩
  · refine issues_of _ a s (fun c d => d.opPostToken a.panel c (islandOf a.panel) ctr n) _ rfl fun hn => ?_
    unfold Dev.opPostToken
    rw [if_neg hn0, if_pos rfl]
    exact later_posted _ p k _ hn
  · refine issues_of _ a s (fun c d => d.opPostToken a.panel c i ctr n) _ rfl fun hn => ?_
    unfold Dev.opPostToken
    rw [if_neg hn0, if_neg hi]
    exact sendToken_sent (noteEffect_onlyTally _ _ _ _ _) hn
  · exact issues_of _ a s (fun c d => d.opPostStash a.panel c entry tag 1) _ rfl fun hn => later_posted _ p k _ hn

theorem tokensArrive : Certificates.TokensArrive := by
  intro offTree i cycle t s hfind
  refine occurs_tokenArrives hfind fun hn => ?_
  generalize s.dev.atEvent i cycle = d at hn ⊢
  generalize (if t.poster = 0 then none else some (t.poster - 1)) = poster
  obtain ⟨island, transit⟩ := addTokens_island (d.landed t) i t.ctr t.amount poster
  have none_ : ((d.landed t).addTokens i t.ctr t.amount poster).NoneDue i _ :=
    noneDue_of_same hn (by rw [island]; rfl)
  obtain ⟨flags, wide, contract, tack, -⟩ := advance_same _ _ _ none_
  refine ⟨by rw [contract, transit]; rfl, ?_, fun hle => ?_, fun hgt => ?_⟩
  · rw [island_advance_noneDue _ _ _ _ none_, if_pos rfl, island]
    rfl
  · rw [flags, wide, tack]
    have frame := advance_frame _ _ _ none_
    rw [addTokens_within (d.landed t) i t.ctr t.amount poster hle] at frame ⊢
    have counted := tokenCounted_onlyTally (d.landed t) i t.ctr t.amount
    refine ⟨((((contract_frame d _).trans (modIsland_local (d.landed t) i _).frame).trans counted.frame).trans frame).mono
      (by simp) (by simp) (by simp), ?_⟩
    obtain ⟨y, hy⟩ := counted
    rw [hy]
    exact ⟨rfl, rfl, rfl⟩
  · rw [tack]
    obtain ⟨_, _, -, recorded⟩ := addTokens_overflow (d.landed t) i t.ctr t.amount poster hgt
    exact recorded

/-- Settles O18: an own post waits in the agenda (later_posted), another island's joins the tokens on their way
(sendToken_sent); an arrival leaves the counter of addTokens_island, and beyond 0xFFFF its record
(addTokens_overflow). -/
theorem tokensTravel : Obligations.TokensTravel := ⟨postsLeave, tokensArrive⟩

end

section
/-!
PROOFS (*The backward pass*). Waits: served at once or later, held, and marked when they pass their maximum.
-/
namespace Sys2Proof.Machine
open Sys2Proof

/-- A command of the form act g that an island meets. -/
theorem occurs_act {c : Instr} {i cycle : Nat} {s : State} {g : Dev → Dev} {P : Dev → Dev → Prop}
    (hc : exec c s = act g s)
    (h : i < 16 → s.dev.clocked = true → (s.dev.atEvent i cycle).NoneDue i (s.dev.eventCycle i cycle) →
      P (s.dev.atEvent i cycle) (g s.dev)) : Occurs c i cycle s P :=
  fun hv hi hk hn => ⟨g s.dev, hc.trans (act_on g s hv), h hi hk hn⟩

/-! ### A wait that is served -/

/-- The contract's slack after a wait counted in beats (R215). -/
def ContractState.serve (c : ContractState) (unit maxWait beats : Nat) : ContractState :=
  if unit = 3 then
    { c with slack := some (match c.slack with
        | some o => min o ((maxWait : Int) - beats)
        | none => (maxWait : Int) - beats) }
  else c

/-- The counter after a wait has taken its tokens (R182). -/
def Island.spend (x : Island) (ctr n : Nat) : Island :=
  { x with tokens := sset 0 x.tokens ctr (sget 0 x.tokens ctr - n) }

/-- A service takes its tokens and keeps its slack; its latency is a count. -/
theorem serveWait_shape (d : Dev) (p c due base : Nat) (f : WaitF) (beats : Nat) :
    ∃ e, OnlyTally (d.modIsland (islandOf p) fun x => x.spend f.ctr f.n) e ∧
      d.serveWait p c due base f beats = { e with contract := d.contract.serve f.unit f.maxWait beats } := by
  unfold Dev.serveWait ContractState.serve
  dsimp only
  split <;> exact ⟨_, hist_onlyTally _ _ _, rfl⟩

/-- What a service leaves (R182, R215). -/
theorem serveWait_served (d : Dev) (p c due base : Nat) (f : WaitF) (beats : Nat) :
    Certificates.WaitServed p f.ctr f.n f.unit f.maxWait beats (d.panel p) d (d.serveWait p c due base f beats) := by
  obtain ⟨e, he, hs⟩ := serveWait_shape d p c due base f beats
  rw [hs]
  have island : e.island (islandOf p) = (d.island (islandOf p)).spend f.ctr f.n := by
    rw [he.island, Dev.island_modIsland_self]
  have frame : d.Frame { e with contract := d.contract.serve f.unit f.maxWait beats } [p] [islandOf p] [] :=
    (((modIsland_local d (islandOf p) fun x => x.spend f.ctr f.n).frame.trans he.frame).trans (contract_frame e _)).mono
      (by simp) (by simp) (by simp)
  have spent : e.island (islandOf p) = { (d.island (islandOf p)).spend f.ctr f.n with
      cycle := (e.island (islandOf p)).cycle } := by
    rw [island]
  obtain ⟨t, rfl⟩ := he
  exact ⟨spent, rfl, rfl, frame, rfl, rfl, rfl⟩

/-- The panel of a served wait goes on as g says. -/
theorem waitServed_modPanel {p ctr n unit maxWait beats : Nat} {x : Panel} {d e : Dev} (g : Panel → Panel)
    (h : Certificates.WaitServed p ctr n unit maxWait beats x d e) :
    Certificates.WaitServed p ctr n unit maxWait beats (g x) d (e.modPanel p g) := by
  obtain ⟨island, panel, contract, frame, tack, flags, wide⟩ := h
  exact ⟨island, by rw [Dev.panel_modPanel_self, panel], contract,
    (frame.trans (modPanel_local e p g).frame).mono (by simp) (by simp) (by simp), tack, flags, wide⟩

/-- The last advance of a service finds nothing due. -/
theorem waitServed_advance {p ctr n unit maxWait beats k : Nat} {x : Panel} {d e : Dev} (hn : d.NoneDue (islandOf p) k)
    (h : Certificates.WaitServed p ctr n unit maxWait beats x d e) :
    Certificates.WaitServed p ctr n unit maxWait beats x d (e.advance (islandOf p) k) := by
  obtain ⟨island, panel, contract, frame, tack, flags, wide⟩ := h
  have none_ : e.NoneDue (islandOf p) k := noneDue_of_same hn (by rw [island])
  obtain ⟨sf, sw, sc, st, -⟩ := advance_same e _ _ none_
  refine ⟨?_, (panel_advance_noneDue _ _ _ _ none_).trans panel, sc.trans contract,
    (frame.trans (advance_frame e _ _ none_)).mono (by simp) (by simp) (by simp), st.trans tack, sf.trans flags,
    sw.trans wide⟩
  rw [island_advance_noneDue _ _ _ _ none_, if_pos rfl, island]

/-- A held wait that is covered, of a panel that can go on, is served (R182, R183). -/
theorem evWaitSatisfied_takes {d : Dev} {a : At} {h : Held} {slots : SlotUpsets} (hi : islandOf a.panel < 16)
    (hk : d.clocked = true) (hissue : (d.atEvent (islandOf a.panel) a.cycle).canIssue a.panel = true)
    (hstall : (d.atEvent (islandOf a.panel) a.cycle).stalled a.panel = false)
    (hheld : ((d.atEvent (islandOf a.panel) a.cycle).panel a.panel).held = some h)
    (hhalt : ((d.atEvent (islandOf a.panel) a.cycle).panel a.panel).haltAtBoundary = false) (hbundle : h.bundle = none)
    (hcovered : h.n ≤ (d.atEvent (islandOf a.panel) a.cycle).leftFor a.panel h.ctr) :
    d.evWaitSatisfied a slots = (((d.atEvent (islandOf a.panel) a.cycle).serveWait a.panel
        (d.eventCycle (islandOf a.panel) a.cycle) h.due h.base ⟨h.ctr, h.n, h.unit, h.maxWait⟩ h.beats).modPanel a.panel
          fun y => { y with held := none }).advance (islandOf a.panel) (d.eventCycle (islandOf a.panel) a.cycle) := by
  unfold Dev.evWaitSatisfied
  rw [onIsland_event _ _ _ _ hi hk]
  simp only [hissue, hstall, hheld, hhalt, hbundle, Nat.not_lt.mpr hcovered, Bool.not_true, Bool.or_false,
    Bool.false_eq_true, if_false]

/-! ### A wait that is held -/

/-- The panel keeps its wait; its island and the Tack stay (R183). -/
theorem holdWait_holds (d : Dev) (p c k : Nat) (f : WaitF) (hn : d.NoneDue (islandOf p) k) :
    let e := (d.holdWait p c f none).advance (islandOf p) k
    d.PanelBecomes e p { d.panel p with held := some ⟨c, f.ctr, f.n, f.unit, f.maxWait, 0, none, false, d.frozenTime⟩ } [] ∧
      d.SameIsland e (islandOf p) ∧ e.tack = d.tack := by
  have none_ : (d.holdWait p c f none).NoneDue (islandOf p) k := hn
  have becomes : d.PanelBecomes (d.holdWait p c f none) p
      { d.panel p with held := some ⟨c, f.ctr, f.n, f.unit, f.maxWait, 0, none, false, d.frozenTime⟩ } [] :=
    ⟨Dev.panel_modPanel_self d p _, (modPanel_local d p _).frame.mono (by simp) (by simp) (by simp), rfl, rfl, rfl⟩
  obtain ⟨-, -, -, tack, -⟩ := advance_same _ _ _ none_
  exact ⟨becomes.advance none_, Dev.SameIsland.advance (.of_eq rfl) none_, tack⟩

/-! ### A wait that passes its maximum -/

/-- The panel's held wait is marked, and counted (R182). -/
def Dev.waitMarked (d : Dev) (p : Nat) (h : Held) : Dev :=
  (d.modPanel p fun x => { x with held := some { h with late := true } }).count (64 * islandOf p + 28) 1

theorem addLateness_reported (d : Dev) (n : Nat) : d.Reported (d.addLateness n) [] [Ent.lateStatus] := by
  have put := put_onlyTack d Ent.lateStatus
    (putField (d.get Ent.lateStatus) 8 8 (max (fieldOf (d.get Ent.lateStatus) 15 8) (min n 255)))
  exact ⟨(put.frame.trans (contract_frame _ _)).mono (by simp) (by simp) (by simp), fun _ => rfl, rfl, rfl, rfl⟩

/-- Lateness is no part of the bit that tells late mode. -/
theorem addLateness_lateMode (d : Dev) (n : Nat) : (d.addLateness n).lateMode = d.lateMode := by
  have size : entSize Ent.lateStatus = 2 := by decide
  have bit := bitOf_get_put d (k := Ent.lateStatus) (q := 0)
    (putField (d.get Ent.lateStatus) 8 8 (max (fieldOf (d.get Ent.lateStatus) 15 8) (min n 255))) (by omega)
  refine bit.trans ?_
  rw [bitOf, testBit_putField, if_pos (by decide)]
  rfl

/-- The marked wait with the lateness of a wait counted in beats. -/
def Dev.waitLate (d : Dev) (p : Nat) (h : Held) : Dev :=
  if h.unit = 3 then (d.waitMarked p h).addLateness (h.beats - h.maxWait) else d.waitMarked p h

/-- A held wait past its maximum, not covered and not marked yet, is marked and a contract fault (R182, R207). -/
theorem evWaitTimeout_marks {d : Dev} {a : At} {h : Held} (hi : islandOf a.panel < 16) (hk : d.clocked = true)
    (hheld : ((d.atEvent (islandOf a.panel) a.cycle).panel a.panel).held = some h) (hlate : h.late = false)
    (hshort : (d.atEvent (islandOf a.panel) a.cycle).leftFor a.panel h.ctr < h.n)
    (hpast : if h.unit = 3 then h.maxWait < h.beats
      else h.due + h.maxWait * (if h.unit = 0 then 1 else if h.unit = 1 then 64 else 4096) <
        d.eventCycle (islandOf a.panel) a.cycle) :
    d.evWaitTimeout a = (((d.atEvent (islandOf a.panel) a.cycle).waitLate a.panel h).contractFault 0x0510 a.panel h.ctr
      (.panel a.panel) (h.unit == 3)).advance (islandOf a.panel) (d.eventCycle (islandOf a.panel) a.cycle) := by
  unfold Dev.evWaitTimeout
  rw [onIsland_event _ _ _ _ hi hk]
  have past : (if h.unit = 3 then decide (h.maxWait < h.beats)
      else decide (h.due + h.maxWait * (if h.unit = 0 then 1 else if h.unit = 1 then 64 else 4096) <
        d.eventCycle (islandOf a.panel) a.cycle)) = true := by
    split at hpast
    · next h3 => rw [if_pos h3]; exact decide_eq_true hpast
    · next h3 => rw [if_neg h3]; exact decide_eq_true hpast
  simp only [hheld, hlate, past, decide_eq_false (Nat.not_le.mpr hshort), Bool.not_true, Bool.or_false,
    Bool.false_eq_true, if_false]
  rfl

/-- What the mark leaves: the panel's wait is late, and its island is as it was. -/
theorem waitLate_marks (d : Dev) (p : Nat) (h : Held) :
    ((d.waitLate p h).panel p).held = some { h with late := true } ∧ d.Frame (d.waitLate p h) [p] [] [Ent.lateStatus] ∧
      (d.waitLate p h).flags = d.flags ∧ (d.waitLate p h).wide = d.wide ∧ (d.waitLate p h).lateMode = d.lateMode := by
  have marked : ((d.waitMarked p h).panel p).held = some { h with late := true } := by
    unfold Dev.waitMarked
    rw [Dev.panel_count, Dev.panel_modPanel_self]
  have frame : d.Frame (d.waitMarked p h) [p] [] [] :=
    ((modPanel_local d p _).frame.trans (count_onlyTally _ (64 * islandOf p + 28) 1).frame).mono (by simp) (by simp)
      (by simp)
  unfold Dev.waitLate
  split
  · have late := addLateness_reported (d.waitMarked p h) (h.beats - h.maxWait)
    exact ⟨(late.held p).trans marked, (frame.trans late.frame).mono (by simp) (by simp) (by simp), late.flags, late.wide,
      addLateness_lateMode _ _⟩
  · exact ⟨marked, frame.mono (by simp) (by simp) (by simp), rfl, rfl, rfl⟩

end Sys2Proof.Machine

open Sys2Proof Sys2Proof.Machine

theorem waitTakesOrHolds : Certificates.WaitTakesOrHolds := by
  intro a f s hn0 p k
  refine ⟨fun hcovered => ?_, fun hshort => ?_⟩
  · refine issues_of _ a s (fun c d => d.opWait a.panel c f) _ rfl fun hn => ?_
    unfold Dev.opWait
    rw [if_neg hn0, if_pos hcovered]
    exact waitServed_advance hn (serveWait_served _ p k k _ f 0)
  · refine issues_of _ a s (fun c d => d.opWait a.panel c f) _ rfl fun hn => ?_
    unfold Dev.opWait
    rw [if_neg hn0, if_neg (Nat.not_le.mpr hshort)]
    exact holdWait_holds _ p k k f hn

theorem heldWaitEnds : Certificates.HeldWaitEnds := by
  intro a h slots s p i d hissue hstall hheld hhalt hbundle hcovered
  refine occurs_act (g := fun d => d.evWaitSatisfied a slots) rfl fun hi hk hn => ?_
  rw [evWaitSatisfied_takes hi hk hissue hstall hheld hhalt hbundle hcovered]
  exact waitServed_advance hn (waitServed_modPanel _ (serveWait_served d p _ h.due h.base ⟨h.ctr, h.n, h.unit, h.maxWait⟩
    h.beats))

theorem waitTimesOut : Certificates.WaitTimesOut := by
  intro a h s p i d hheld hlate hmode hshort hpast
  refine occurs_act (g := fun d => d.evWaitTimeout a) rfl fun hi hk hn => ?_
  rw [evWaitTimeout_marks hi hk hheld hlate hshort hpast]
  obtain ⟨held, frame, flags, wide, mode⟩ := waitLate_marks d p h
  obtain ⟨reported, r, hr, hcode, hunit⟩ :=
    contractFault_reported (d.waitLate p h) 0x0510 p h.ctr (.panel p) (h.unit == 3) (.inl (mode.trans hmode))
  change d.NoneDue i _ at hn
  generalize (d.waitLate p h).contractFault 0x0510 p h.ctr (.panel p) (h.unit == 3) = e at reported hr
  have island : e.island i = d.island i := (reported.island i).trans (frame.islands i (by simp))
  have none_ : e.NoneDue i (s.dev.eventCycle i a.cycle) := noneDue_of_same hn (congrArg Island.agenda island)
  obtain ⟨sf, sw, -, st, -⟩ := advance_same e i _ none_
  refine ⟨?_, ⟨r, by rw [st, hr], hcode, hunit⟩, ?_, (Dev.SameIsland.of_eq island).advance none_, ?_, ?_⟩
  · rw [panel_advance_noneDue _ _ _ _ none_, reported.held, held]
  · exact ((frame.trans reported.frame).trans (advance_frame e i _ none_)).mono (by simp [Culprit.panels]) (by simp)
      (by simp)
  · rw [sf, reported.flags, flags]
  · rw [sw, reported.wide, wide]

/-- Settles O19: a covered wait leaves WaitServed (serveWait_served), also when its panel goes on later
(evWaitSatisfied_takes); a short one is held; one past its maximum is marked and recorded (waitLate_marks). -/
theorem waitsHoldPanels : Obligations.WaitsHoldPanels := ⟨waitTakesOrHolds, heldWaitEnds, waitTimesOut⟩

end

section
/-!
PROOFS (*The backward pass*). Wide-buffer rows: a row's application to its tile, and what the tile's list and token
become of it.
-/
namespace Sys2Proof.Machine
open Sys2Proof

/-! ### Lengths -/

@[simp] theorem leBytes_length (k n : Nat) : (leBytes k n).length = k := by
  induction k generalizing n with
  | zero => rfl
  | succ k ih => rw [leBytes, List.length_cons, ih]

theorem wordBytes_length (ws : List F32) : (wordBytes ws).length = 4 * ws.length := by
  unfold wordBytes
  induction ws with
  | nil => rfl
  | cons w ws ih => rw [List.flatMap_cons, List.length_append, ih, leBytes_length, List.length_cons]; omega

theorem mapList_length {α β : Type} (f : α → Fl β) (l : List α) : (Fl.mapList f l).1.length = l.length := by
  induction l with
  | nil => rfl
  | cons a as ih => exact congrArg (· + 1) ih

/-! ### The tile of a row (R131) -/

/-- A row's tile is one of the 512 of the row's own region. -/
theorem wbFind_some {d : Dev} {a region k : Nat} (h : d.wbFind a = some (region, k)) :
    region = a / regionBytes ∧ k < 512 := by
  unfold Dev.wbFind at h
  obtain ⟨j, hj, hjk⟩ := Option.map_eq_some_iff.mp h
  obtain ⟨rfl, rfl⟩ := Prod.mk.inj hjk
  exact ⟨rfl, List.mem_range.mp (List.mem_of_find?_eq_some hj)⟩

/-- The table entry of a Felt row's tile lies in the tables, beyond every Felt row. -/
theorem wbEntAddr_bounds {d : Dev} {a region k : Nat} (h : d.wbFind a = some (region, k)) (ha : a < feltSize) :
    wideTableBase 0 ≤ wbEntAddr region k ∧ wbEntAddr region k + 32 ≤ stashBase := by
  obtain ⟨hr, hk⟩ := wbFind_some h
  have : region < 16 := by
    rw [hr]
    exact Nat.div_lt_of_lt_mul ha
  unfold wbEntAddr wideTableBase stashBase
  omega

/-! ### The tile's list and token (R137) -/

/-- What a tile's step in its list leaves: bytes beside its entry, the rows of the wide buffer and the flags, and an
agenda with nothing due, for its token comes to the region's own island two cycles later. -/
structure Dev.EntryMoved (d e : Dev) (region k now : Nat) : Prop where
  bytes : ∀ y, y < wbEntAddr region k ∨ wbEntAddr region k + 32 ≤ y → e.byte y = d.byte y
  wide : e.wide = d.wide
  flags : e.flags = d.flags
  due : ∀ i c, (i = region → c < now + 2) → d.NoneDue i c → e.NoneDue i c

theorem Dev.EntryMoved.trans {d e f : Dev} {region k now : Nat} (h : d.EntryMoved e region k now)
    (g : e.EntryMoved f region k now) : d.EntryMoved f region k now :=
  ⟨fun y hy => (g.bytes y hy).trans (h.bytes y hy), g.wide.trans h.wide, g.flags.trans h.flags,
    fun i c hc hn => g.due i c hc (h.due i c hc hn)⟩

theorem wbSet_moved (d : Dev) (region k state cursor step now : Nat) :
    d.EntryMoved (d.wbSet region k state cursor step) region k now := by
  unfold Dev.wbSet Dev.writeNat
  exact ⟨fun y hy => byte_write_outside d _ _ (by rwa [leBytes_length]), rfl, rfl, fun _ _ _ hn => hn⟩

theorem wbPost_moved (d : Dev) (region k island ctr now : Nat) :
    d.EntryMoved (d.wbPost region island ctr now) region k now := by
  unfold Dev.wbPost
  split
  · refine ⟨fun _ _ => rfl, rfl, rfl, fun i c hc hn t ht => ?_⟩
    unfold Dev.schedule at ht
    rw [Dev.island_modIsland] at ht
    split at ht
    · next same =>
      rcases (mem_insertItem _ _ _).mp ht with rfl | ht
      · exact hc same
      · exact hn t (same ▸ ht)
    · exact hn t ht
  · exact ⟨fun _ _ => rfl, rfl, rfl, fun _ _ _ hn => hn⟩

theorem wbAdvance_moved (d : Dev) (region k now : Nat) : d.EntryMoved (d.wbAdvance region k now) region k now := by
  unfold Dev.wbAdvance
  dsimp only
  split
  · split
    · exact (wbSet_moved d region k _ _ _ now).trans (wbPost_moved _ region k _ _ now)
    · exact wbSet_moved d region k _ _ _ now
  · exact wbSet_moved d region k _ _ _ now

/-! ### Application (R134) -/

/-- The words of a contribution's row with the contribution added, and the events of the additions. -/
def Dev.rowSum (d : Dev) (c : Contrib) : Fl (List F32) :=
  addContribution (d.progress c.addr) c.cols (rowWords (d.read (c.addr / 256 * 256) 256)) c.vals

theorem rowSum_length (d : Dev) (c : Contrib) : (wordBytes (d.rowSum c).1).length = 256 := by
  rw [wordBytes_length]
  unfold Dev.rowSum addContribution
  rw [mapList_length]
  rfl

/-- The row holds its sum, its events are raised, and it has passed one more list entry. -/
def Dev.rowAdded (d : Dev) (region step : Nat) (c : Contrib) (cycle : Nat) : Dev :=
  let a := c.addr / 256 * 256
  let e := (d.write a (wordBytes (d.rowSum c).1)).raise (FlagUnit.region region) step (d.rowSum c).2
  ({ e with wide := { e.wide with adder := sset 0 e.wide.adder (rowGroup a) (cycle + 1) } } : Dev).setProgress a
    (d.progress c.addr + 1)

theorem wbApply_eq (d : Dev) (i region k : Nat) (c : Contrib) (cycle : Nat) :
    d.wbApply i region k c cycle =
      ((d.rowAdded region (d.wbEnt region k).step c cycle).noteEffect c.sender c.issue 0 cycle).wbAdvance region k
        (if i = region then cycle else ((d.rowAdded region (d.wbEnt region k).step c cycle).island region).cycle) := by
  unfold Dev.wbApply Dev.rowAdded Dev.rowSum
  rfl

/-- What the sum leaves: the row's bytes, the flags of its events, the adder's cycle and the row's progress. -/
theorem rowAdded_adds (d : Dev) (region step : Nat) (c : Contrib) (cycle : Nat) :
    (∀ y, (d.rowAdded region step c cycle).byte y =
        (d.write (c.addr / 256 * 256) (wordBytes (d.rowSum c).1)).byte y) ∧
      (d.rowAdded region step c cycle).flags = (d.raise (FlagUnit.region region) step (d.rowSum c).2).flags ∧
      (∀ i, (d.rowAdded region step c cycle).island i = d.island i) ∧
      (d.rowAdded region step c cycle).wide = { d.wide with
        adder := sset 0 d.wide.adder (rowGroup (c.addr / 256 * 256)) (cycle + 1)
        progress := sset 0 d.wide.progress (c.addr / 256) (d.progress c.addr + 1) } := by
  have raised := raise_local (d.write (c.addr / 256 * 256) (wordBytes (d.rowSum c).1)) (FlagUnit.region region) step
    (d.rowSum c).2
  refine ⟨raised.frame.bytes, ?_, fun i => raised.frame.islands i (by simp), ?_⟩
  · exact flags_raise_congr (d := d) (e := d.write (c.addr / 256 * 256) (wordBytes (d.rowSum c).1)) rfl rfl _ _ _
  · unfold Dev.rowAdded Dev.setProgress
    dsimp only
    rw [raised.wide, Nat.mul_div_cancel _ (by decide)]
    rfl

/-- The application of a row: its sum, its count and its tile's step in the list. -/
theorem wbApply_moved (d : Dev) (i region k : Nat) (c : Contrib) (cycle : Nat) : ∃ now, (i = region → now = cycle) ∧
    (d.rowAdded region (d.wbEnt region k).step c cycle).EntryMoved (d.wbApply i region k c cycle) region k now := by
  rw [wbApply_eq]
  have noted := noteEffect_onlyTally (d.rowAdded region (d.wbEnt region k).step c cycle) c.sender c.issue 0 cycle
  generalize (d.rowAdded region (d.wbEnt region k).step c cycle).noteEffect c.sender c.issue 0 cycle = e at noted
  have moved := wbAdvance_moved e region k
    (if i = region then cycle else ((d.rowAdded region (d.wbEnt region k).step c cycle).island region).cycle)
  obtain ⟨t, rfl⟩ := noted
  exact ⟨_, fun h => if_pos h, moved.bytes, moved.wide, moved.flags, moved.due⟩

/-- A row is applied as R134 and R137 say. -/
theorem wbApply_applied {d : Dev} {i region k : Nat} {c : Contrib} {cycle : Nat} (hfelt : c.addr < feltSize)
    (hfind : d.wbFind c.addr = some (region, k)) :
    Certificates.RowApplied c region (d.wbEnt region k).step d (d.wbApply i region k c cycle) := by
  obtain ⟨now, -, moved⟩ := wbApply_moved d i region k c cycle
  obtain ⟨bytes, flags, -, wide⟩ := rowAdded_adds d region (d.wbEnt region k).step c cycle
  obtain ⟨hlo, hhi⟩ := wbEntAddr_bounds hfind hfelt
  have len := rowSum_length d c
  have below : c.addr / 256 * 256 + 256 ≤ wbEntAddr region k := by
    have h0 : feltSize ≤ wideTableBase 0 := by decide
    have h1 : feltSize = 256 * 8388608 := rfl
    omega
  refine ⟨?_, ?_, fun y hrow htable => ?_, moved.flags.trans flags⟩
  · have row := read_eq_of_bytes (d.wbApply i region k c cycle) (wordBytes (d.rowSum c).1) (c.addr / 256 * 256)
    rw [len] at row
    refine row fun j hj => ?_
    rw [moved.bytes _ (.inl (by omega)), bytes, byte_write, if_pos (by omega), Nat.add_sub_cancel_left]
  · unfold Dev.progress
    rw [moved.wide, wide, sget_sset_self]
    rfl
  · rw [moved.bytes y (by omega), bytes, byte_write_outside _ _ _ (by omega)]

/-- The rows that wait, come to the adders or stall stay where they are. -/
theorem wbApply_wide (d : Dev) (i region k : Nat) (c : Contrib) (cycle : Nat) :
    (d.wbApply i region k c cycle).wide.windows = d.wide.windows ∧
      (d.wbApply i region k c cycle).wide.adders = d.wide.adders ∧
      (d.wbApply i region k c cycle).wide.stalls = d.wide.stalls := by
  obtain ⟨now, -, moved⟩ := wbApply_moved d i region k c cycle
  obtain ⟨-, -, -, wide⟩ := rowAdded_adds d region (d.wbEnt region k).step c cycle
  rw [moved.wide, wide]
  exact ⟨rfl, rfl, rfl⟩

/-- A tile's token is due two cycles later in its own island. -/
theorem wbApply_noneDue {d : Dev} {i : Nat} (region k : Nat) (c : Contrib) {cycle : Nat} (hn : d.NoneDue i cycle) :
    (d.wbApply i region k c cycle).NoneDue i cycle := by
  obtain ⟨now, hnow, moved⟩ := wbApply_moved d i region k c cycle
  obtain ⟨-, -, island, -⟩ := rowAdded_adds d region (d.wbEnt region k).step c cycle
  refine moved.due i cycle (fun h => ?_) (noneDue_of_same hn (by rw [island]))
  rw [hnow h]
  exact Nat.lt_add_of_pos_right (by decide)

/-- What is applied depends on the memory, the rows' progress, the flags and the votes alone. -/
theorem rowApplied_congr {d D e : Dev} {c : Contrib} {region step : Nat} (hb : ∀ a, D.byte a = d.byte a)
    (hp : D.progress c.addr = d.progress c.addr) (hf : D.flags = d.flags) (hc : D.contract = d.contract)
    (h : Certificates.RowApplied c region step D e) : Certificates.RowApplied c region step d e := by
  obtain ⟨row, passed, bytes, flags⟩ := h
  rw [hp, read_congr hb] at row flags
  exact ⟨row, passed.trans (by rw [hp]), fun y hy ht => (bytes y hy ht).trans (hb y),
    flags.trans (flags_raise_congr hf hc _ _ _)⟩

/-- The last advance after it finds nothing due. -/
theorem rowApplied_advance {d e : Dev} {c : Contrib} {region step i now : Nat}
    (h : Certificates.RowApplied c region step d e) (hn : e.NoneDue i now) :
    Certificates.RowApplied c region step d (e.advance i now) := by
  have byte := (advance_frame e i now hn).bytes
  obtain ⟨flags, wide, -⟩ := advance_same e i now hn
  obtain ⟨row, passed, bytes, raised⟩ := h
  refine ⟨(read_congr byte _ _).trans row, ?_, fun y hy ht => (byte y).trans (bytes y hy ht), flags.trans raised⟩
  rw [Dev.progress, wide]
  exact passed

end Sys2Proof.Machine
end

section
/-!
PROOFS (*The backward pass*). Wide-buffer rows on their way: what a row is for its tile, where it waits, and the bound of
a stall.
-/
namespace Sys2Proof.Machine
open Sys2Proof

/-! ### Events of an island -/

/-- A command of the form act (onIsland i cycle f), where f makes E of the device at the event. -/
theorem occurs_run {c : Instr} {i cycle : Nat} {s : State} {f : Nat → Dev → Dev} {P : Dev → Dev → Prop} {E : Dev}
    (hc : exec c s = act (fun d => d.onIsland i cycle f) s)
    (hf : f (s.dev.eventCycle i cycle) (s.dev.atEvent i cycle) = E)
    (h : (s.dev.atEvent i cycle).NoneDue i (s.dev.eventCycle i cycle) →
      P (s.dev.atEvent i cycle) (E.advance i (s.dev.eventCycle i cycle))) : Occurs c i cycle s P :=
  occurs_of c i cycle s f P hc fun hn => by rw [hf]; exact h hn

/-! ### Waiting rows -/

/-- e differs from d in the wide buffer's rows at most. -/
def OnlyWide (d e : Dev) : Prop := e = { d with wide := e.wide }

/-- Rows of the wide buffer that move are no part of memory, panels, islands and the dictionary. -/
theorem OnlyWide.frame {d e : Dev} (h : OnlyWide d e) : d.Frame e [] [] [] := by
  have any (w : WideState) : d.Frame { d with wide := w } [] [] [] :=
    ⟨fun _ => rfl, rfl, fun _ _ => rfl, fun _ _ => rfl, fun _ _ => rfl, by constructor <;> rfl⟩
  rw [h]
  exact any e.wide

theorem OnlyWide.same {d e : Dev} (h : OnlyWide d e) : e.flags = d.flags ∧ e.tack = d.tack := by
  rw [h]
  exact ⟨rfl, rfl⟩

/-- The last advance after it, with nothing due. -/
theorem OnlyWide.advance {d e : Dev} {i now : Nat} (h : OnlyWide d e) (hn : d.NoneDue i now) :
    (e.advance i now).wide = e.wide ∧ d.Frame (e.advance i now) [] [i] [] ∧ (e.advance i now).flags = d.flags ∧
      (e.advance i now).tack = d.tack := by
  have none_ : e.NoneDue i now := noneDue_of_same hn (by rw [h.frame.islands i (by simp)])
  obtain ⟨flags, wide, -, tack, -⟩ := advance_same e i now none_
  exact ⟨wide, (h.frame.trans (advance_frame e i now none_)).mono (by simp) (by simp) (by simp), flags.trans h.same.1,
    tack.trans h.same.2⟩

theorem window_setWindow (d : Dev) (g : Nat) (ws : List WindowRow) : (d.setWindow g ws).window g = ws :=
  sget_sset_self [] d.wide.windows g ws

theorem window_congr {d e : Dev} (h : e.wide.windows = d.wide.windows) (g : Nat) : e.window g = d.window g := by
  rw [Dev.window, h]
  rfl

/-- A row that finds a place takes it, by its arrival (R138). -/
theorem wbHold_place (d : Dev) (region : Nat) (c : Contrib) (order now : Nat)
    (h : (d.window (rowGroup c.addr)).length < 8) :
    d.wbHold region c order now =
      d.setWindow (rowGroup c.addr) (insertRow (d.window (rowGroup c.addr)) ⟨c, order⟩) := if_pos h

theorem wbHold_adders (d : Dev) (region : Nat) (c : Contrib) (order now : Nat) :
    (d.wbHold region c order now).wide.adders = d.wide.adders := by
  unfold Dev.wbHold
  dsimp only
  split <;> rfl

/-! ### A row at an OPEN tile (R137) -/

/-- What becomes of a row at its OPEN tile, by its kind and the way it came. -/
def Dev.meetOpen (d : Dev) (i region k : Nat) (c : Contrib) (now order : Nat) : RowKind → Meeting → Dev
  | .foreign, _ => d.wbForeign c
  | .early, _ => d.wbHold region c order now
  | .expected, .arrives => d.wbTake i c order now
  | .expected, .fromWindow => d.wbApply i region k c now
  | .expected, .accepted => d.wbHold region c order now

theorem wbMeet_open {d : Dev} {c : Contrib} {region k : Nat} (hfind : d.wbFind c.addr = some (region, k))
    (hopen : (d.wbEnt region k).state = 1) (hstep : (d.wbEnt region k).step = c.tag) (i now order : Nat) (how : Meeting) :
    d.wbMeet i c now order how = d.meetOpen i region k c now order (d.rowKind (d.wbEnt region k) c order) how := by
  have closed : ¬ (d.wbEnt region k).state = 2 := by rw [hopen]; decide
  have done : ((d.wbEnt region k).state = 3 && (d.wbEnt region k).step == c.tag : Bool) = false := by
    rw [hopen]
    rfl
  have tag : ((d.wbEnt region k).step != c.tag) = false := by rw [hstep, bne_self_eq_false]
  unfold Dev.wbMeet
  simp only [hfind, if_neg closed, done, if_pos hopen, tag, Bool.false_eq_true, if_false]
  generalize d.rowKind (d.wbEnt region k) c order = kind
  cases kind with
  | foreign => rfl
  | early => rfl
  | expected => cases how <;> rfl

/-! ### Arrivals (R136) -/

/-- A row is no longer on its way, and has its place in the order of arrival. -/
def Dev.arrived (d : Dev) (c : Contrib) : Dev :=
  { d with wide := { d.wide with inFlight := d.wide.inFlight.erase c, arrivals := d.wide.arrivals + 1 } }

theorem arrived_rowKind (d : Dev) (c : Contrib) (e : WbEnt) (before : Nat) :
    (d.arrived c).rowKind e c before = d.rowKind e c before := rfl

/-- The oldest row of a sender that is not stalled meets its OPEN tile. -/
theorem wbArrive_open {d : Dev} {sender now : Nat} {c : Contrib} {region k : Nat}
    (hfly : d.wide.inFlight.find? (fun c => c.sender == sender) = some c) (harr : c.arrival ≤ now)
    (hstall : d.stalled sender = false) (hfind : d.wbFind c.addr = some (region, k))
    (hopen : (d.wbEnt region k).state = 1) (hstep : (d.wbEnt region k).step = c.tag) :
    d.wbArrive sender now = (d.arrived c).meetOpen (senderIsland sender) region k c now d.wide.arrivals
      (d.rowKind (d.wbEnt region k) c d.wide.arrivals) .arrives := by
  have arrives : d.wbArrive sender now = (d.arrived c).wbMeet (senderIsland sender) c now d.wide.arrivals .arrives := by
    unfold Dev.wbArrive
    simp only [hfly, hstall, decide_eq_false (Nat.not_lt.mpr harr), Bool.or_false, Bool.false_eq_true, if_false]
    rfl
  have ent : (d.arrived c).wbEnt region k = d.wbEnt region k := rfl
  rw [arrives, wbMeet_open (d := d.arrived c) hfind hopen hstep, ent, arrived_rowKind]

/-- An expected row is on its way to the adders, which it reaches four cycles later (R136). -/
theorem arrived_taken {d : Dev} {i now : Nat} (c : Contrib) (hn : d.NoneDue i now) :
    let e := ((d.arrived c).wbTake i c d.wide.arrivals now).advance i now
    e.wide.adders = d.wide.adders ++ [⟨c, d.wide.arrivals, now⟩] ∧ e.wide.inFlight = d.wide.inFlight.erase c ∧
      e.wide.windows = d.wide.windows ∧ d.Adds e i ⟨now + 4, 0, 8 * i, now, 9, .wbRow d.wide.arrivals⟩ ∧
      d.Frame e [] [i] [] ∧ e.flags = d.flags ∧ e.tack = d.tack := by
  have waits : OnlyWide d { d.arrived c with wide := { (d.arrived c).wide with
      adders := d.wide.adders ++ [⟨c, d.wide.arrivals, now⟩] } } := rfl
  have adds : d.Adds ((d.arrived c).wbTake i c d.wide.arrivals now) i
      ⟨now + 4, 0, 8 * i, now, 9, .wbRow d.wide.arrivals⟩ := by
    unfold Dev.Adds Dev.wbTake Dev.schedule
    rw [Dev.island_modIsland_self]
    rfl
  have none_ := adds.noneDue hn (Nat.lt_add_of_pos_right (by decide))
  have frame : d.Frame ((d.arrived c).wbTake i c d.wide.arrivals now) [] [i] [] := by
    unfold Dev.wbTake Dev.schedule
    exact (waits.frame.trans (modIsland_local _ i _).frame).mono (by simp) (by simp) (by simp)
  obtain ⟨flags, wide, -, tack, -⟩ := advance_same _ i now none_
  dsimp only
  rw [wide, flags, tack]
  exact ⟨rfl, rfl, rfl, adds.advance none_,
    (frame.trans (advance_frame _ i now none_)).mono (by simp) (by simp) (by simp), rfl, rfl⟩

/-- An early row takes its place in the window (R138). -/
theorem arrived_waits {d : Dev} {i now : Nat} (region : Nat) (c : Contrib)
    (hroom : (d.window (rowGroup c.addr)).length < 8) (hn : d.NoneDue i now) :
    let e := ((d.arrived c).wbHold region c d.wide.arrivals now).advance i now
    e.window (rowGroup c.addr) = insertRow (d.window (rowGroup c.addr)) ⟨c, d.wide.arrivals⟩ ∧
      e.wide.inFlight = d.wide.inFlight.erase c ∧ d.Frame e [] [i] [] ∧ e.flags = d.flags ∧ e.tack = d.tack := by
  rw [wbHold_place (d.arrived c) region c d.wide.arrivals now hroom]
  have only : OnlyWide d ((d.arrived c).setWindow (rowGroup c.addr)
      (insertRow ((d.arrived c).window (rowGroup c.addr)) ⟨c, d.wide.arrivals⟩)) := rfl
  obtain ⟨wide, frame, flags, tack⟩ := only.advance hn
  refine ⟨?_, ?_, frame, flags, tack⟩
  · exact (window_congr (congrArg WideState.windows wide) _).trans (window_setWindow _ _ _)
  · rw [wide]
    rfl

/-- A foreign row is recorded and the contribution withheld (R140). -/
theorem wbForeign_withholds (d : Dev) (c : Contrib) :
    d.Reported (d.wbForeign c) [] [Ent.faultClassCounts, Ent.lateStatus] ∧ (d.wbForeign c).withheld = true ∧
      ∃ r, (d.wbForeign c).tack.newestRec = some r ∧ r.code = 0x0573 := by
  obtain ⟨-, r, hr, hcode, -⟩ := fault_tack d 0x0573 Unit.felt c.addr
  exact ⟨(fault_onlyTack d 0x0573 Unit.felt c.addr).reported.trans (withhold_reported _), (withhold_bits _).1, r,
    (withhold_same _).2.1.trans hr, hcode⟩

/-- A foreign row that arrives is discarded (R140). -/
theorem arrived_foreign {d : Dev} {i now : Nat} (c : Contrib) (hn : d.NoneDue i now) :
    let e := ((d.arrived c).wbForeign c).advance i now
    (∃ r, e.tack.newestRec = some r ∧ r.code = 0x0573) ∧ e.withheld = true ∧
      e.wide.inFlight = d.wide.inFlight.erase c ∧ e.wide.windows = d.wide.windows ∧
      d.Frame e [] [i] [Ent.faultClassCounts, Ent.lateStatus] ∧ e.flags = d.flags := by
  have arrived : OnlyWide d (d.arrived c) := rfl
  obtain ⟨reported, withheld, recorded⟩ := wbForeign_withholds (d.arrived c) c
  have none_ : ((d.arrived c).wbForeign c).NoneDue i now :=
    noneDue_of_same hn (congrArg Island.agenda (reported.island i))
  obtain ⟨flags, wide, -, tack, -⟩ := advance_same _ i now none_
  dsimp only
  rw [tack, wide, flags, reported.wide, reported.flags, Dev.withheld, get_advance_noneDue _ _ _ _ none_]
  exact ⟨recorded, withheld, rfl, rfl,
    ((arrived.frame.trans reported.frame).trans (advance_frame _ i now none_)).mono (by simp) (by simp) (by simp), rfl⟩

/-! ### The adders (R134, R136) -/

/-- The adders without a row that has come to them. -/
def Dev.withoutAdder (d : Dev) (w : AdderRow) : Dev :=
  { d with wide := { d.wide with adders := d.wide.adders.erase w } }

/-- A row that comes to the adders is applied, or waits. -/
theorem wbRow_comes {d : Dev} {w : AdderRow} {region k : Nat} (i cycle : Nat)
    (hw : d.wide.adders.find? (fun x => x.order == w.order) = some w) (hfind : d.wbFind w.row.addr = some (region, k)) :
    d.wbRow i w.order cycle = if d.adderTaken w cycle then (d.withoutAdder w).wbHold region w.row w.order cycle
      else (d.withoutAdder w).wbApply i region k w.row cycle := by
  have here : (d.withoutAdder w).wbFind w.row.addr = some (region, k) := hfind
  unfold Dev.wbRow
  simp only [hw]
  rw [show ({ d with wide := { d.wide with adders := d.wide.adders.erase w } } : Dev) = d.withoutAdder w from rfl]
  simp only [here]

theorem runItem_wbRow {d : Dev} {t : Item} {order : Nat} (i : Nat) (h : t.work = .wbRow order) :
    d.runItem i t = d.wbRow i order t.cycle := by
  unfold Dev.runItem Dev.noteItem
  simp only [h, Deferred.visibleFrom]

/-! ### The window (R138) -/

/-- The oldest eligible row of a window, expected at its tile, is applied where no sender is stalled at the window, in the
cycle of its command (log 100). -/
theorem wbEarlyApply_applies {d : Dev} {g now region k : Nat} {w : WindowRow} (hfree : sget 0 d.wide.adder g ≠ now + 1)
    (hfirst : (d.window g).find? (fun w => d.eligible w) = some w)
    (hstalls : d.wide.stalls.find? (fun s => s.group == g) = none)
    (hexp : Certificates.Expected (d.setWindow g ((d.window g).erase w)) w.row region k w.order) :
    d.wbEarlyApply g now = (d.setWindow g ((d.window g).erase w)).wbApply (g / 32) region k w.row now := by
  obtain ⟨-, hfind, hopen, hstep, hkind⟩ := hexp
  obtain ⟨-, -, stalls⟩ := wbApply_wide (d.setWindow g ((d.window g).erase w)) (g / 32) region k w.row now
  have none_ : ((d.setWindow g ((d.window g).erase w)).wbApply (g / 32) region k w.row now).wide.stalls.find?
      (fun s => s.group == g) = none := by
    rw [stalls]
    exact hstalls
  unfold Dev.wbEarlyApply
  simp only [if_neg hfree, hfirst, wbMeet_open hfind hopen hstep, hkind, Dev.meetOpen, Dev.wbUnstall, none_]

/-- After the last advance, the row is applied and has left its window. -/
theorem windowRow_applied {d : Dev} {g now region k : Nat} {w : WindowRow}
    (hfelt : w.row.addr < feltSize) (hfind : d.wbFind w.row.addr = some (region, k)) (hn : d.NoneDue (g / 32) now) :
    let e := ((d.setWindow g ((d.window g).erase w)).wbApply (g / 32) region k w.row now).advance (g / 32) now
    Certificates.RowApplied w.row region (d.wbEnt region k).step d e ∧ e.window g = (d.window g).erase w := by
  have none_ := wbApply_noneDue region k w.row (d := d.setWindow g ((d.window g).erase w)) hn
  have applied := rowApplied_advance (wbApply_applied (d := d.setWindow g ((d.window g).erase w)) (i := g / 32)
    (cycle := now) hfelt hfind) none_
  obtain ⟨windows, -, -⟩ := wbApply_wide (d.setWindow g ((d.window g).erase w)) (g / 32) region k w.row now
  obtain ⟨-, wide, -⟩ := advance_same _ (g / 32) now none_
  refine ⟨rowApplied_congr (D := d.setWindow g ((d.window g).erase w)) (fun _ => rfl) rfl rfl rfl applied, ?_⟩
  exact (window_congr ((congrArg WideState.windows wide).trans windows) g).trans (window_setWindow d g _)

/-! ### The bound of a stall (R139) -/

/-- A sender's stall is marked. -/
def Dev.stallMarked (d : Dev) (x : SenderStall) : Dev :=
  { d with wide := { d.wide with stalls := d.wide.stalls.map fun t => if t == x then { t with faulted := true } else t } }

/-- A stall past its tile's bound, not marked yet, is marked and a contract fault of its sender. -/
theorem wbStallLimit_marks {d : Dev} {sender now region k : Nat} {x : SenderStall}
    (hx : d.wide.stalls.find? (fun t => t.row.sender == sender) = some x) (hnew : x.faulted = false)
    (hfind : d.wbFind x.row.addr = some (region, k)) (hpast : x.since + (d.wbEnt region k).stallMax < now) :
    d.wbStallLimit sender now = if sender < 128
      then ((d.stallMarked x).stallPeak x now).contractFault 0x0572 sender x.row.addr (.panel sender)
      else ((d.stallMarked x).stallPeak x now).contractFault 0x0572 (Unit.island (sender - 128)) x.row.addr
        (.island (sender - 128)) := by
  unfold Dev.wbStallLimit
  simp only [hx, hnew, hfind, decide_eq_false (Nat.not_le.mpr hpast), Bool.or_false, Bool.false_eq_true, if_false]
  rfl

/-- The fault is recorded, and but for it the mark and the peak nothing changes. -/
theorem wbStallLimit_records {d : Dev} {sender now region k : Nat} {x : SenderStall}
    (hx : d.wide.stalls.find? (fun t => t.row.sender == sender) = some x) (hnew : x.faulted = false)
    (hfind : d.wbFind x.row.addr = some (region, k)) (hpast : x.since + (d.wbEnt region k).stallMax < now) :
    ∃ ps ks, (d.stallMarked x).Reported (d.wbStallLimit sender now) ps ks ∧
      ∃ r, (d.wbStallLimit sender now).tack.newestRec = some r ∧ r.code = 0x0572 := by
  have peak : (d.stallMarked x).Reported ((d.stallMarked x).stallPeak x now) [] [Ent.wbStallPeak] :=
    (putB_onlyTack _ Ent.wbStallPeak _ _ _).reported
  have fault (unit : Nat) (who : Culprit) : ∃ ps ks, (d.stallMarked x).Reported
      (((d.stallMarked x).stallPeak x now).contractFault 0x0572 unit x.row.addr who) ps ks ∧
      ∃ r, (((d.stallMarked x).stallPeak x now).contractFault 0x0572 unit x.row.addr who).tack.newestRec = some r ∧
        r.code = 0x0572 := by
    obtain ⟨reported, r, hr, hcode, -⟩ := contractFault_reported ((d.stallMarked x).stallPeak x now) 0x0572 unit x.row.addr
      who false (.inr (by decide))
    exact ⟨_, _, peak.trans reported, r, hr, hcode⟩
  rw [wbStallLimit_marks hx hnew hfind hpast]
  split
  · exact fault _ _
  · exact fault _ _

end Sys2Proof.Machine

open Sys2Proof Sys2Proof.Machine

theorem contributionRows : Certificates.ContributionRows := by
  intro sender cycle c region k s i d now hfly harr hstall hfelt hfind hopen hstep
  have meets := wbArrive_open hfly harr hstall hfind hopen hstep
  refine ⟨fun ⟨_, _, _, _, hkind⟩ => ?_, fun hkind hroom => ?_, fun hkind => ?_⟩ <;> rw [hkind] at meets
  · exact occurs_run (f := fun c d => d.wbArrive sender c) rfl meets (arrived_taken c)
  · exact occurs_run (f := fun c d => d.wbArrive sender c) rfl meets (arrived_waits region c hroom)
  · exact occurs_run (f := fun c d => d.wbArrive sender c) rfl meets (arrived_foreign c)

theorem adderRowApplies : Certificates.AdderRowApplies := by
  intro i region k w t d _ hwork hw hfelt hfind e
  have run : e = _ := (runItem_wbRow i hwork).trans (wbRow_comes i t.cycle hw hfind)
  cases htaken : d.adderTaken w t.cycle with
  | true =>
    rw [htaken, if_pos rfl] at run
    rw [run]
    refine ⟨wbHold_adders _ _ _ _ _, fun h => by simp at h, fun _ hroom => ?_⟩
    rw [wbHold_place (d.withoutAdder w) region w.row w.order t.cycle hroom]
    exact ⟨window_setWindow _ _ _, OnlyWide.frame rfl, rfl, rfl⟩
  | false =>
    rw [htaken, if_neg Bool.false_ne_true] at run
    rw [run]
    obtain ⟨windows, adders, -⟩ := wbApply_wide (d.withoutAdder w) i region k w.row t.cycle
    have applied := wbApply_applied (d := d.withoutAdder w) (i := i) (cycle := t.cycle) hfelt hfind
    exact ⟨adders, fun _ => ⟨rowApplied_congr (D := d.withoutAdder w) (fun _ => rfl) rfl rfl rfl applied, windows⟩,
      fun h => by simp at h⟩

theorem earlyRowApplies : Certificates.EarlyRowApplies := by
  intro g cycle w region k s i d hfree hfirst hstalls hgroup hexp
  refine occurs_run (f := fun c d => d.wbEarlyApply g c) rfl (wbEarlyApply_applies hfree hfirst hstalls hexp) fun hn => ?_
  obtain ⟨hfelt, hfind, -⟩ := hexp
  exact windowRow_applied hfelt hfind hn

theorem stallLimitRecords : Certificates.StallLimitRecords := by
  intro sender cycle x region k s i d hx hnew hfind hpast
  refine occurs_of _ i cycle s (fun c d => d.wbStallLimit sender c) _ rfl fun hn => ?_
  obtain ⟨ps, ks, reported, recorded⟩ := wbStallLimit_records hx hnew hfind hpast
  have none_ := noneDue_of_same hn (congrArg Island.agenda (reported.island i))
  obtain ⟨flags, wide, -, tack, -⟩ := advance_same _ i _ none_
  refine ⟨wide.trans reported.wide, by rw [tack]; exact recorded, fun a => ?_, flags.trans reported.flags,
    Dev.SameIsland.advance (.of_eq (reported.island i)) none_⟩
  rw [(advance_frame _ i _ none_).bytes, reported.frame.bytes]
  rfl

/-- Settles O24: a row that arrives is taken, waits or is foreign (wbMeet_open); the adders and the window apply it as
wbApply_applied says; a stall past its bound is marked and recorded (wbStallLimit_records). -/
theorem wideBufferRows : Obligations.WideBufferRows :=
  ⟨contributionRows, adderRowApplies, earlyRowApplies, stallLimitRecords⟩

end

section
/-!
PROOFS (*Panel instruction bundles*). The sequencer's own operations and the beat alarms.
-/
namespace Sys2Proof.Machine
open Sys2Proof

/-! ### Changes of a panel alone -/

theorem modPanel_panelBecomes (d : Dev) (p : Nat) (f : Panel → Panel) :
    d.PanelBecomes (d.modPanel p f) p (f (d.panel p)) [] := panelBecomes_mod d d.tally p f

theorem panelBecomes_refl (d : Dev) (p : Nat) : d.PanelBecomes d p (d.panel p) [] :=
  ⟨rfl, (Dev.Frame.refl d).mono (by simp) (by simp) (by simp), rfl, rfl, rfl⟩

/-- The last advance after an operation that leaves the islands as they are. -/
theorem Dev.PanelBecomes.advance_sameIsland {d e : Dev} {p k : Nat} {x : Panel} {ks : List Nat}
    (h : d.PanelBecomes e p x ks) (hi : e.islands = d.islands) (hn : d.NoneDue (islandOf p) k) :
    d.PanelBecomes (e.advance (islandOf p) k) p x ks ∧ d.SameIsland (e.advance (islandOf p) k) (islandOf p) ∧
      (e.advance (islandOf p) k).tack = e.tack := by
  have island : e.island (islandOf p) = d.island (islandOf p) := by unfold Dev.island; rw [hi]
  have none_ : e.NoneDue (islandOf p) k := noneDue_of_same hn (congrArg Island.agenda island)
  obtain ⟨-, -, -, tack, -⟩ := advance_same _ _ _ none_
  exact ⟨h.advance none_, (Dev.SameIsland.of_eq island).advance none_, tack⟩

theorem getB_advance_noneDue (d : Dev) (i c k off len : Nat) (h : d.NoneDue i c) :
    (d.advance i c).getB k off len = d.getB k off len := by
  unfold Dev.getB
  rw [get_advance_noneDue d i c k h]

/-! ### s.fence, s.halt and s.tally (R187–R189) -/

/-- A fence of classes that are complete asks for nothing. -/
theorem opFence_complete {d : Dev} {p c classes : Nat}
    (h : ∀ k ∈ upTo 4, bitOf classes k = true → d.incomplete p c k = false) : d.opFence p c classes = d := by
  have nothing : ((upTo 4).any fun k => bitOf classes k && d.incomplete p c k) = false := by
    rw [List.any_eq_false]
    intro k hk asked
    rw [Bool.and_eq_true] at asked
    rw [h k hk asked.1] at asked
    exact Bool.false_ne_true asked.2
  unfold Dev.opFence
  rw [nothing]
  exact if_neg Bool.false_ne_true

/-- The panels are 128. -/
theorem Dev.Ready.panel_lt {d : Dev} {a : At} (h : d.Ready a) : a.panel < 128 := by
  have issue := h.issue
  simp only [Dev.canIssue, Bool.and_assoc, Bool.and_eq_true, decide_eq_true_eq] at issue
  exact issue.1

/-- A panel's halt changes its marks and its code. -/
theorem opHalt_panelBecomes (d : Dev) (p code : Nat) :
    d.PanelBecomes (d.opHalt p code) p { d.panel p with halted := true, haltedByFault := false, started := false }
      [Ent.panelHaltCode] := by
  obtain ⟨panel, frame, flags, wide, contract⟩ := modPanel_panelBecomes d p fun x =>
    { x with halted := true, haltedByFault := false, started := false }
  exact ⟨panel, (frame.trans (putB_onlyTack _ Ent.panelHaltCode (2 * p) 2 code).frame).mono (by simp) (by simp) (by simp),
    flags, wide, contract⟩

/-- Two bytes of PANEL_HALT_CODE for each panel: the halted panel's hold its code, the others' stay. -/
theorem opHalt_getB (d : Dev) {p q code : Nat} (hq : q < 128) (hcode : code < 65536) :
    (d.opHalt p code).getB Ent.panelHaltCode (2 * q) 2 =
      if q = p then code else d.getB Ent.panelHaltCode (2 * q) 2 := by
  have size : entSize Ent.panelHaltCode = 256 := by decide
  unfold Dev.opHalt
  split
  · next h =>
    rw [h, getB_putB_self _ _ _ _ _ (by omega)]
    exact Nat.mod_eq_of_lt hcode
  · rw [getB_putB_disjoint _ _ _ _ _ _ _ (by omega) (by omega)]
    rfl

theorem opHalt_islands (d : Dev) (p code : Nat) : (d.opHalt p code).islands = d.islands := rfl

/-- What s.halt leaves once the last advance has found nothing due. -/
theorem opHalt_halts {d : Dev} {p k code : Nat} (hcode : code < 65536) (hn : d.NoneDue (islandOf p) k) :
    let e := (d.opHalt p code).advance (islandOf p) k
    d.PanelBecomes e p { d.panel p with halted := true, haltedByFault := false, started := false } [Ent.panelHaltCode] ∧
      (∀ q, q < 128 → e.getB Ent.panelHaltCode (2 * q) 2 =
        if q = p then code else d.getB Ent.panelHaltCode (2 * q) 2) ∧ d.SameIsland e (islandOf p) := by
  have none_ : (d.opHalt p code).NoneDue (islandOf p) k := hn
  obtain ⟨becomes, island, -⟩ := (opHalt_panelBecomes d p code).advance_sameIsland (opHalt_islands d p code) hn
  exact ⟨becomes, fun q hq => (getB_advance_noneDue _ _ _ _ _ _ none_).trans (opHalt_getB d hq hcode), island⟩

/-- s.halt, as a command. -/
theorem issues_sHalt {a : At} {code : Nat} {s : State} (hcode : code < 65536) :
    Issues (.sHalt a code) a s fun d e =>
      d.PanelBecomes e a.panel { d.panel a.panel with halted := true, haltedByFault := false, started := false }
          [Ent.panelHaltCode] ∧
        (∀ q, q < 128 → e.getB Ent.panelHaltCode (2 * q) 2 =
          if q = a.panel then code else d.getB Ent.panelHaltCode (2 * q) 2) ∧ d.SameIsland e (islandOf a.panel) :=
  issues_of _ a s (fun _ d => d.opHalt a.panel code) _ rfl fun hn => opHalt_halts hcode hn

/-- What s.tally stores of counter n: the counter of its own island, or else the island's shadow of it (R188, R591). -/
def Dev.tallied (d : Dev) (p n : Nat) : Nat :=
  if n / 64 = islandOf p then d.counter n else sget 0 d.tally.shadows (islandOf p * 4096 + n)

/-- s.tally of an open group, to a row of scratch whose port is free, writes eight bytes four cycles later. -/
theorem opTally_open {d : Dev} {p c n g aix row addr : Nat} (hg : tallyGroup n = some g)
    (hopen : bitOf (d.get Ent.tallyOpen) g = true) (ho : d.rowOperand p aix row 8 8 = some (true, addr))
    (hp : (d.panel p).portBusy .scratchWr (c + 3) (c + 3) = false) :
    d.opTally p c n aix row =
      ((d.setPanel p ((d.panel p).claim .scratchWr (c + 3) (c + 3) c 3)).later p c 3 (c + 4) 0
        (.bits addr 8 (d.tallied p n) (allOnes 8))).pend p 1 (c + 4) c := by
  obtain ⟨-, hs, hspace⟩ := rowOperand_some (by decide) ho
  have scratch : ¬ addr < feltSize := by rw [hspace]; exact Bool.true_eq_false.mp
  have kept (x : Panel) : (d.setPanel p x).get Ent.tallyOpen = d.get Ent.tallyOpen := rfl
  unfold Dev.opTally
  simp only [hs, ho, hg, kept, hopen, withPorts_free _ _ _ _ _ _ _ _ hp, Dev.writeLater, scratch, Bool.not_true,
    Bool.and_false, Bool.false_eq_true, if_false]
  rfl

/-- It leaves the write in the agenda, and of the panel changes the port and what s.fence asks about. -/
theorem opTally_sends {d : Dev} {p c n g aix row addr : Nat} (hg : tallyGroup n = some g)
    (hopen : bitOf (d.get Ent.tallyOpen) g = true) (ho : d.rowOperand p aix row 8 8 = some (true, addr))
    (hp : (d.panel p).portBusy .scratchWr (c + 3) (c + 3) = false) :
    let e := d.opTally p c n aix row
    d.Adds e (islandOf p) ⟨c + 4, 0, p, c, 3, .bits addr 8 (d.tallied p n) (allOnes 8)⟩ ∧
      d.Local e [p] [islandOf p] [] ∧ (e.panel p).vr = (d.panel p).vr ∧ e.tack = d.tack ∧ e.flags = d.flags := by
  intro e
  have run : e = _ := opTally_open hg hopen ho hp
  have claimed := setPanel_sameButPorts d p ((d.panel p).claim .scratchWr (c + 3) (c + 3) c 3) rfl rfl
  rw [run]
  refine ⟨?_, ?_, ?_, ?_, ?_⟩
  · exact (adds_later (claimed.within.frame.islands _ (by simp)) _ _ _ _ _).of_island (Dev.island_modPanel _ _ _ _)
  · exact ((claimed.within.trans (later_local _ p _ _ _ _ _)).trans (modPanel_local _ p _)).mono (by simp) (by simp)
      (by simp)
  · unfold Dev.pend
    rw [Dev.panel_modPanel_self]
    exact claimed.vr
  · simp only [Dev.pend, Dev.modPanel_tack, Dev.later_tack, Dev.setPanel_tack]
  · simp only [Dev.pend, Dev.modPanel_flags, Dev.later_flags, Dev.setPanel_flags]

/-! ### s.beat (R186) -/

/-- The two alarms of a panel by their number. -/
def Panel.alarm (x : Panel) (n : Nat) : Option Alarm := if n = 0 then x.alarm0 else x.alarm1

def Panel.withAlarm (x : Panel) (n : Nat) (a : Option Alarm) : Panel :=
  if n = 0 then { x with alarm0 := a } else { x with alarm1 := a }

/-- The beat an alarm is armed for. -/
def Dev.alarmBeat (d : Dev) (basis : Bool) (beat : Nat) : Int :=
  if basis = true then (d.pat.startBeat : Int) + beat else d.startBeat d.step + beat

/-- A free alarm is armed for a beat still to come. -/
theorem opBeat_arms {d : Dev} {p c n ctr beat : Nat} {basis : Bool} (hfree : (d.panel p).alarm n = none)
    (hbeat : ((d.get Ent.logicalBeat : Nat) : Int) < d.alarmBeat basis beat) :
    d.opBeat p c basis n ctr beat =
      d.modPanel p fun x => x.withAlarm n (some ⟨ctr, (d.alarmBeat basis beat).toNat⟩) := by
  unfold Dev.alarmBeat at *
  unfold Panel.alarm at hfree
  unfold Dev.opBeat
  simp only [hfree, Option.isSome_none, Bool.false_eq_true, if_false, Int.not_le.mpr hbeat]
  rfl

/-- An armed alarm whose beat has been observed is free again, and posts to its counter. -/
theorem fireAlarm_fires {d : Dev} {p c n : Nat} {l : Alarm} (harmed : (d.panel p).alarm n = some l)
    (hbeat : l.beat ≤ d.get Ent.logicalBeat) :
    d.fireAlarm p c n = (d.modPanel p fun x => x.withAlarm n none).postOwn p l.ctr c := by
  unfold Panel.alarm at harmed
  unfold Dev.fireAlarm
  simp only [harmed, Nat.not_lt.mpr hbeat, if_false]
  rfl

/-- A change of panel p with a post of its own island. -/
theorem modPanel_postOwn (d : Dev) (p k ctr : Nat) (f : Panel → Panel) (hn : d.NoneDue (islandOf p) k) :
    let e := ((d.modPanel p f).postOwn p ctr k).advance (islandOf p) k
    d.PanelBecomes e p (f (d.panel p)) [] ∧ d.Adds e (islandOf p) ⟨k + 2, 0, p, k, 9, .token ctr 1 (p + 1)⟩ ∧
      e.tack = d.tack := by
  have becomes := modPanel_panelBecomes d p f
  have posted := later_local (d.modPanel p f) p k 9 (k + 2) 0 (.token ctr 1 (p + 1))
  have adds : d.Adds ((d.modPanel p f).postOwn p ctr k) (islandOf p) ⟨k + 2, 0, p, k, 9, .token ctr 1 (p + 1)⟩ :=
    adds_later (Dev.island_modPanel d p f _) k 9 (k + 2) 0 _
  have none_ := adds.noneDue hn (Nat.lt_add_of_pos_right (by decide))
  have sent : d.PanelBecomes ((d.modPanel p f).postOwn p ctr k) p (f (d.panel p)) [] :=
    ⟨becomes.panel, (becomes.frame.trans posted.frame).mono (by simp) (by simp) (by simp), rfl, rfl, rfl⟩
  obtain ⟨-, -, -, tack, -⟩ := advance_same _ _ _ none_
  exact ⟨sent.advance none_, adds.advance none_, tack⟩

/-- s.beat with alarm n, as a command. -/
theorem issues_sBeat {a : At} {basis : Bool} {n ctr beat : Nat} {s : State}
    (hbeat : (((s.dev.atIssue a).get Ent.logicalBeat : Nat) : Int) < (s.dev.atIssue a).alarmBeat basis beat)
    (hfree : ((s.dev.atIssue a).panel a.panel).alarm n = none) :
    Issues (.sBeat a basis n ctr beat) a s fun d e =>
      d.PanelBecomes e a.panel ((d.panel a.panel).withAlarm n (some ⟨ctr, (d.alarmBeat basis beat).toNat⟩)) [] ∧
        d.SameIsland e (islandOf a.panel) ∧ e.tack = d.tack := by
  refine issues_of _ a s (fun c d => d.opBeat a.panel c basis n ctr beat) _ rfl fun hn => ?_
  rw [opBeat_arms hfree hbeat]
  exact (modPanel_panelBecomes _ a.panel _).advance_sameIsland rfl hn

/-- BEAT_ALARM_FIRE for alarm n. -/
theorem occurs_beatAlarmFire {a : At} {n : Nat} {l : Alarm} {s : State}
    (harmed : ((s.dev.atEvent (islandOf a.panel) a.cycle).panel a.panel).alarm n = some l)
    (hbeat : l.beat ≤ (s.dev.atEvent (islandOf a.panel) a.cycle).get Ent.logicalBeat) :
    let k := s.dev.eventCycle (islandOf a.panel) a.cycle
    Occurs (.beatAlarmFire a n) (islandOf a.panel) a.cycle s fun d e =>
      d.PanelBecomes e a.panel ((d.panel a.panel).withAlarm n none) [] ∧
        d.Adds e (islandOf a.panel) ⟨k + 2, 0, a.panel, k, 9, .token l.ctr 1 (a.panel + 1)⟩ ∧ e.tack = d.tack := by
  refine occurs_of _ _ _ s (fun c d => d.fireAlarm a.panel c n) _ rfl fun hn => ?_
  rw [fireAlarm_fires harmed hbeat]
  exact modPanel_postOwn _ a.panel _ l.ctr _ hn

end Sys2Proof.Machine

open Sys2Proof Sys2Proof.Machine

theorem sequencerOps : Certificates.SequencerOps := by
  intro a s p i k
  refine ⟨fun level start count => ?_, fun classes hdone => ?_, fun code hcode => ?_,
    fun n g aix row addr hg hopen _ ho hp => ?_⟩
  · refine issues_of _ a s (fun c d => d.opLoop a.panel (d.panel a.panel).lastPc level start count) _ rfl fun hn => ?_
    exact (modPanel_panelBecomes _ p _).advance_sameIsland rfl hn
  · refine issues_of _ a s (fun c d => d.opFence a.panel c classes) _ rfl fun hn => ?_
    rw [opFence_complete hdone]
    exact (panelBecomes_refl _ p).advance_sameIsland rfl hn
  · intro ready hn
    obtain ⟨e, run, becomes, codes, island⟩ := issues_sHalt hcode ready hn
    exact ⟨e, run, becomes, by rw [codes _ ready.panel_lt, if_pos rfl], fun q hq hqp => by rw [codes q hq, if_neg hqp],
      island⟩
  · refine issues_of _ a s (fun c d => d.opTally a.panel c n aix row) _ rfl fun hn => ?_
    obtain ⟨adds, within, vr, tack, flags⟩ := opTally_sends hg hopen ho hp
    have none_ := adds.noneDue hn (Nat.lt_add_of_pos_right (by decide))
    have moved := within.trans (advance_local _ _ _ none_)
    obtain ⟨sf, -, -, st, -⟩ := advance_same _ _ _ none_
    exact ⟨adds.advance none_, moved.frame.mono (by simp) (by simp [i]) (by simp),
      (congrArg Panel.vr (panel_advance_noneDue _ _ _ _ none_)).trans vr, st.trans tack, sf.trans flags, moved.wide,
      moved.contract⟩

theorem alarmsArmAndFire : Certificates.AlarmsArmAndFire := by
  intro a basis ctr beat s p i
  exact ⟨fun hbeat => ⟨issues_sBeat (n := 0) hbeat, issues_sBeat (n := 1) hbeat⟩,
    fun _ => occurs_beatAlarmFire (n := 0), fun _ => occurs_beatAlarmFire (n := 1)⟩

/-- Settles O20: s.loop and s.beat change their panel alone (modPanel_panelBecomes), s.halt also its code (issues_sHalt),
a fence of complete classes nothing (opFence_complete); s.tally (opTally_sends) and an alarm that fires
(modPanel_postOwn) leave one item in the agenda. -/
theorem sequencerOpsAndAlarms : Obligations.SequencerOpsAndAlarms := ⟨sequencerOps, alarmsArmAndFire⟩

end
